-- ==== Sys2Proof/Syntax.lean ====
section
/-! DEFINITION. The commands the block takes from outside, one constructor of Instr per row of spec/opcode_table.json, with
the data of the messages and samples they carry. A row that is a Flomund opcode names the fetched packet it executes, by
ring and SEQ: the packet's header and payload arrive with RING_SLOT_FETCH or ETH_CMD_RECEIVE, and the opcode's row is the
packet's execution. Every other row is a register access, an arrival, an edge, the end of something or the expiry of a
timer. -/

namespace Sys2Proof

/-- The path by which a register access comes (R11, R13, R169). -/
inductive Path where
  | bar0 | mspi | command
  deriving DecidableEq, Repr

/-- An intact LSTAT frame (R458). -/
structure Lstat where
  lastSeen : Nat
  ackSeq : Nat
  sack : Nat
  firedLine : Nat
  firedCount : Nat
  /-- TEMP, 1/16 °C -/
  temp : Int
  hv : Nat
  alert : Nat
  voidCount : Nat
  deriving DecidableEq, Repr

/-- An intact DECLARE frame (R460). -/
structure Declare where
  proto : Nat
  levels : Nat
  nozzles : Nat
  hblat : Nat
  bufLines : Nat
  waves : Nat
  waveSamples : Nat
  hvRef : Nat
  maxRate : Nat
  uid : Nat
  model : Nat
  deriving DecidableEq, Repr

/-- A PTP message as it reaches a port (R565, R574). -/
structure PtpMsg where
  /-- messageType of IEEE 1588: 0 Sync, 1 Delay_Req, 2 Pdelay_Req, 3 Pdelay_Resp, 8 Follow_Up, 9 Delay_Resp,
  10 Pdelay_Resp_Follow_Up -/
  type : Nat
  /-- versionPTP -/
  version : Nat
  /-- domainNumber -/
  domain : Nat
  /-- clockIdentity of the sender -/
  source : Nat
  seq : Nat
  twoStep : Bool
  /-- the time-stamp the message carries, ns -/
  stamp : Int
  /-- correctionField, 2^-16 ns -/
  corr : Int
  /-- the message keeps its form -/
  wellFormed : Bool
  /-- TB_2 time between its passing the PCS boundary and now, 2^-16 ns -/
  ago : Nat
  deriving DecidableEq, Repr

/-- An Announce message (R577), as the numbers the default algorithm compares. -/
structure Announce where
  version : Nat
  domain : Nat
  source : Nat
  prio1 : Nat
  clockClass : Nat
  accuracy : Nat
  variance : Nat
  prio2 : Nat
  gm : Nat
  stepsRemoved : Nat
  wellFormed : Bool
  deriving DecidableEq, Repr

/-- What one PWM period of a brushless channel measured (R653, R656, R659). -/
structure BlSample where
  /-- both low-side windows were long enough (R659) -/
  valid : Bool
  /-- phase currents of A and B, 10 mA -/
  ia : Int
  ib : Int
  /-- V_bus, 10 mV -/
  vbus : Nat
  /-- the observer's speed, rpm -/
  speed : Int
  /-- the voltage vector reached its limit (R658) -/
  limited : Bool
  deriving DecidableEq, Repr

/-- A request that reaches an SDRAM channel (R708). -/
structure DdrArrival where
  port : Nat
  bank : Nat
  row : Nat
  write : Bool
  scrub : Bool
  deriving DecidableEq, Repr

/-- Who reads a word of SDRAM (R714). -/
inductive DdrReader where
  | delay (st : Nat)
  | lookahead (index source : Nat)
  | staging (index : Nat)
  | dma (c : Nat)
  | payloadCopy (r seq : Nat)
  | capture (st : Nat)
  | journal
  | firmware
  | none
  deriving DecidableEq, Repr


/-- The commands of the block: one constructor per row of spec/opcode_table.json. -/
inductive Instr where
  /-- REGISTER_WRITE (R13). A 32-bit register write through BAR0, MSPI or a REG opcode to a register that has no row of its own, applied by access type and discarded if misaligned, reserved or while the unit is in function reset. -/
  | registerWrite (path : Path) (addr : Nat) (value : BitVec 32)
  /-- READ_TO_CLEAR (R13). A read of an RC register returns its value and then clears it, by whatever path it comes. -/
  | readToClear (path : Path) (addr : Nat)
  /-- COUNTER_LOW_READ (R12). A read of the low word of a 64-bit register latches its high word for the next read. -/
  | counterLowRead (path : Path) (addr : Nat)
  /-- MSPI_WRITE_FRAME (R169). An MSPI WRITE frame writes successive registers, honouring WRITE_LOCK and discarding a partial last register. -/
  | mspiWriteFrame (addr : Nat) (bytes : List Nat)
  /-- MSPI_READ_FRAME (R170). An MSPI READ frame returns wait bytes, a start marker and register data, or times out after 64 wait bytes. -/
  | mspiReadFrame (addr : Nat) (count : Nat) (ready : Bool)
  /-- MSPI_STATUS_FRAME (R169). An MSPI STATUS frame returns READY and the flags of the last READ and WRITE frames. -/
  | mspiStatusFrame
  /-- BAR2_WRITE (R878). A write to BAR2 reaches a HOST bank word whole, or is discarded for another size, alignment, owner or window. -/
  | bar2Write (offset : Nat) (bytes : List Nat)
  /-- TABLE_APERTURE_ACCESS (R875). An access in the SYS aperture is carried out at the BAR2 offset given by SYS_TABLE_BASE. -/
  | tableApertureAccess (x : Nat) (write : Option (BitVec 32))
  /-- RING_TAIL_WRITE (R94). A write of RING_TAIL makes packets available for fetching, or stops the ring with OVERRUN when it exceeds the slot count. -/
  | ringTailWrite (r : Nat) (value : BitVec 32)
  /-- RING_SLOT_FETCH (R131). The device fetches the next packet slot of a ring and starts it in ring order, or stops the ring with FETCH_ERR on a bus error. -/
  | ringSlotFetch (r : Nat) (slot : Option (List Nat))
  /-- INDIRECT_PAYLOAD_FETCH (R187). The fetch of an indirect payload from host memory into its destination completes, or fails with FETCH_ERROR. -/
  | indirectPayloadFetch (r : Nat) (seq : Nat) (data : Option (List Nat))
  /-- CQ_HEAD_WRITE (R95). A write of CQ_HEAD frees completion entries, so that a ring stalled with CQ_FULL resumes. -/
  | cqHeadWrite (r : Nat) (value : BitVec 32)
  /-- RING_ENABLE (R99). Writing ENABLE 1 in RING_CTRL starts serving the ring, or sets CONFIG_ERR for an invalid LOG2_SLOTS or SOURCE. -/
  | ringEnable (r : Nat) (value : BitVec 32)
  /-- RING_DISABLE (R141). Writing ENABLE 0 aborts the ring's parked packets, completes its started packets and then clears ACTIVE. -/
  | ringDisable (r : Nat) (value : BitVec 32)
  /-- CLEAR_WINDOW (R99). Writing CLEAR_WINDOW while the ring is disabled clears its deduplication window and SEQ_VALID. -/
  | clearWindow (r : Nat) (value : BitVec 32)
  /-- RING_IRQ_HOLDOFF_END (R102). HOLDOFF µs after the first pending completion, the device sends the ring's MSI-X message. -/
  | ringIrqHoldoffEnd (r : Nat)
  /-- RPTQ_HEAD_WRITE (R164). A write of RPTQ_HEAD frees report queue space, so that held records are written and REPORT_FULL clears. -/
  | rptqHeadWrite (st : Nat) (value : BitVec 32)
  /-- RPTQ_ENABLE (R142). Enabling a report queue lets the device write the records it has held since a warm reset or since the queue was full. -/
  | rptqEnable (st : Nat) (value : BitVec 32)
  /-- CAPQ_HEAD_WRITE (R286). A write of CAPQ_HEAD frees capture queue space for waiting records. -/
  | capqHeadWrite (st : Nat) (value : BitVec 32)
  /-- CAPTURE_RECORD_DELIVER (R286). Once a waiting capture record fits in the host capture queue, the device moves it there on a firmware DMA channel. -/
  | captureRecordDeliver (st : Nat)
  /-- ETH_CMD_RECEIVE (R151). A CMD datagram arrives and is checked, then passed to the ring in SEQ order, held while out of order, dropped or re-acknowledged. -/
  | ethCmdReceive (port : Nat) (src : Nat) (udp : List Nat)
  /-- ETH_BULK_RECEIVE (R188). A BULK datagram is placed into the object or a staging slot, or dropped when no slot is free; a completed payload lets its packet start. -/
  | ethBulkReceive (port : Nat) (src : Nat) (udp : List Nat)
  /-- ETH_ACK_RECEIVE (R150). A host ACK acknowledges device TSEQ numbers and resumes a ring that was marked PEER_LOST. -/
  | ethAckReceive (port : Nat) (src : Nat) (udp : List Nat)
  /-- ETH_ACK_TIMER (R152). 100 µs after an unacknowledged CMD or BULK datagram, the device sends an ACK. -/
  | ethAckTimer (r : Nat)
  /-- ETH_RTO_EXPIRE (R158). A CPL or RPT datagram still unacknowledged after RTO is resent with doubled RTO, or after MAX_TRIES the ring sets PEER_LOST. -/
  | ethRtoExpire (r : Nat) (tseq : Nat)
  /-- SYS_INFO_BROADCAST_REPLY (R162). (SYS_UID modulo 1,024) × 10 µs after a broadcast SYS_INFO completes, the device sends its single untracked CPL. -/
  | sysInfoBroadcastReply
  /-- SYS_NOP (R118). Completes with DONE. -/
  | sysNop (r : Nat) (seq : Nat)
  /-- SYS_BARRIER (R122). Stops the ring until the rings of RING_MASK reach a barrier with the same ID, then completes all of them together. -/
  | sysBarrier (r : Nat) (seq : Nat)
  /-- BARRIER_TIMEOUT (R123). A barrier that has waited TIMEOUT_US completes with TIMEOUT and its ring resumes. -/
  | barrierTimeout (r : Nat) (seq : Nat)
  /-- SYS_INFO (R118). Returns SYS_UID and the device address. -/
  | sysInfo (r : Nat) (seq : Nat)
  /-- SYS_SET_ADDR (R119). The device whose SYS_UID matches takes the given address. -/
  | sysSetAddr (r : Nat) (seq : Nat)
  /-- SYS_TRIG_CANCEL (R120). Aborts a parked triggered packet named by ring and SEQ. -/
  | sysTrigCancel (r : Nat) (seq : Nat)
  /-- SYS_WARM_RESET (R780). Completes and then performs a warm reset. -/
  | sysWarmReset (r : Nat) (seq : Nat)
  /-- SYS_POWER_CYCLE (R782). Runs an orderly stop, shuts down every rail in order, holds them off and performs a cold reset. -/
  | sysPowerCycle (r : Nat) (seq : Nat)
  /-- CYCLE_OFF_EXPIRE (R782). After CYCLE_OFF_MS with every rail off, the supervisor performs the cold reset and boots. -/
  | cycleOffExpire
  /-- SYS_FW_WRITE (R791). Erases and programs a flash region and verifies the data by read-back. -/
  | sysFwWrite (r : Nat) (seq : Nat)
  /-- SYS_FW_ACTIVATE (R792). Verifies a slot, writes a directory with that slot active on trial and optionally restarts. -/
  | sysFwActivate (r : Nat) (seq : Nat)
  /-- REG_READ (R125). Reads up to two registers into RESULT. -/
  | regRead (r : Nat) (seq : Nat)
  /-- REG_WRITE (R125). Writes COUNT registers in ascending order. -/
  | regWrite (r : Nat) (seq : Nat)
  /-- REG_RMW (R126). Atomically changes the bits of MASK in a register and returns its old value. -/
  | regRmw (r : Nat) (seq : Nat)
  /-- REG_POLL (R127). Starts polling a register until the masked value equals VALUE. -/
  | regPoll (r : Nat) (seq : Nat)
  /-- REG_POLL_READ (R127). Every 1 µs the poll reads the register and completes with DONE on a match. -/
  | regPollRead (r : Nat) (seq : Nat)
  /-- REG_POLL_TIMEOUT (R127). A poll that reaches TIMEOUT_US completes with TIMEOUT and the last value read. -/
  | regPollTimeout (r : Nat) (seq : Nat)
  /-- REG_TABLE_WRITE (R882). Writes data to a BAR2 range, which must be writable. -/
  | regTableWrite (r : Nat) (seq : Nat)
  /-- REG_TABLE_READ (R125). Copies a BAR2 range to host memory. -/
  | regTableRead (r : Nat) (seq : Nat)
  /-- TIME_TRIGGER_DUE (R137). A parked TIME packet starts when its time base reaches TRIG_VALUE. -/
  | timeTriggerDue (r : Nat) (seq : Nat)
  /-- IMP_SUBMIT (R36). Checks an imprint descriptor and creates a Cairn entry in ACCEPTED, or in PRINTED from a checkpoint record, or reports a duplicate. -/
  | impSubmit (r : Nat) (seq : Nat)
  /-- IMP_CANCEL (R51). Cancels an uncommitted imprint with reason HOST_CANCEL. -/
  | impCancel (r : Nat) (seq : Nat)
  /-- IMP_SPOIL (R52). Spoils a committed or firing imprint from the next line boundary with reason HOST_SPOIL. -/
  | impSpoil (r : Nat) (seq : Nat)
  /-- IMP_RELEASE (R53). Frees the Cairn entry of a PRINTED or CANCELLED imprint. -/
  | impRelease (r : Nat) (seq : Nat)
  /-- IMP_CONFIG_STREAM (R43). Sets a stream's spoil policy, horizon and spoil-mark range after its checks. -/
  | impConfigStream (r : Nat) (seq : Nat)
  /-- IMP_RECOVER (R130). Returns the stream's last checkpoint record once the ring scan has ended. -/
  | impRecover (r : Nat) (seq : Nat)
  /-- IMP_REINIT (R115). Spoils the stream's committed imprints, discards staged lines and returns STAGED imprints to ACCEPTED. -/
  | impReinit (r : Nat) (seq : Nat)
  /-- CKPT_RECORD_PROGRAMMED (R67). A checkpoint record has been programmed and read back, so the device writes the report it waited for. -/
  | ckptRecordProgrammed (ok : Bool)
  /-- CKPT_SECTOR_ERASED (R72). The erase of the next checkpoint sector ends, which frees the ring and clears CKPT_FULL. -/
  | ckptSectorErased
  /-- CKPT_SCAN_END (R80). The checkpoint ring scan ends: SCAN_DONE and IMP_NEXT_ACCEPT are set, and waiting IMP_SUBMIT and IMP_RECOVER commands go on. -/
  | ckptScanEnd
  /-- STAGE_OBJ_OPEN (R176). Opens an ingest object with a reserved capacity and returns its handle. -/
  | stageObjOpen (r : Nat) (seq : Nat)
  /-- STAGE_OBJ_APPEND (R180). Appends data at the fill level of an object. -/
  | stageObjAppend (r : Nat) (seq : Nat)
  /-- STAGE_OBJ_CLOSE (R178). Completes an object at its fill level and returns its unused extents. -/
  | stageObjClose (r : Nat) (seq : Nat)
  /-- STAGE_OBJ_FREE (R179). Frees an object and makes its handle unknown. -/
  | stageObjFree (r : Nat) (seq : Nat)
  /-- STAGE_DMA_START (R206). Writes a channel's shadow set and arms it, completing when the transfer ends. -/
  | stageDmaStart (r : Nat) (seq : Nat)
  /-- STAGE_DMA_ABORT (R216). Aborts the command-driven channel's transfer and any armed shadow set. -/
  | stageDmaAbort (r : Nat) (seq : Nat)
  /-- STAGE_CAPTURE (R266). Sets capture ports or flushes open capture blocks of a stream. -/
  | stageCapture (r : Nat) (seq : Nat)
  /-- STAGE_REINIT (R185). Function reset of STAGE: keeps objects and stops every DMA channel as an abort. -/
  | stageReinit (r : Nat) (seq : Nat)
  /-- DMA_GO (R203). Writing GO arms the shadow set, or starts it at once on an idle channel. -/
  | dmaGo (c : Nat) (value : BitVec 32)
  /-- DMA_CTRL_ABORT (R214). Writing ABORT stops the running transfer within 10 µs and discards an armed shadow set. -/
  | dmaCtrlAbort (c : Nat) (value : BitVec 32)
  /-- DMA_CTRL_CLEAR (R213). Writing CLEAR returns a halted channel to IDLE and drops its armed shadow set. -/
  | dmaCtrlClear (c : Nat) (value : BitVec 32)
  /-- DMA_TRANSFER_END (R202). A transfer ends with its result, the fill level is advanced, DMA_DONE is set and an armed shadow set starts. -/
  | dmaTransferEnd (c : Nat) (moved : List Nat) (other : List Nat)
  /-- DMA_BUS_ERROR (R211). A failing request halts the channel, latches the error and raises FLT_DMA_BUS. -/
  | dmaBusError (c : Nat) (kind : Nat) (dir : Bool) (addr : Nat) (moved : List Nat)
  /-- LOOKAHEAD_DECODE_START (R183). Once every source object of an accepted imprint is complete, the device starts its look-ahead decode. -/
  | lookaheadDecodeStart (index : Nat)
  /-- LOOKAHEAD_DECODE_END (R223). The look-ahead decode records segment offsets and coverage, or latches a codec error, raises FLT_CODEC_DATA and leaves the imprint ACCEPTED. -/
  | lookaheadDecodeEnd (index : Nat)
  /-- STAGING_DECODE_END (R258). A staging decode of a segment block completes, or fails and causes a function reset of the codec with spoils. -/
  | stagingDecodeEnd (index : Nat) (source : Nat) (segment : Nat) (eccBad : Bool)
  /-- ATTEMPT_BOUNDARY (R320). Before an attempt's first line is screened, pending tables, status map and shift are adopted and the degradations are fixed. -/
  | attemptBoundary (st : Nat)
  /-- SCREEN_LINE_DONE (R306). A lane finishes screening a line, which is reassembled in order for drop mapping; segment 0 done makes the imprint STAGED. -/
  | screenLineDone (st : Nat)
  /-- SCR_CAPACITY_UPDATE (R887). Every 1 ms the device sets SCR_CAPACITY from the lane rate monitors. -/
  | scrCapacityUpdate (st : Nat) (diffusion : Nat) (threshold : Nat)
  /-- SCR_LANE_MAP_WRITE (R337). A write of SCR_LANE_MAP changes group ownership, or is refused with LANE_MAP_REFUSED. -/
  | scrLaneMapWrite (value : BitVec 32)
  /-- SCR_LOAD_TONE (R330). Loads a stream's pending tone curve. -/
  | scrLoadTone (r : Nat) (seq : Nat)
  /-- SCR_LOAD_DENSITY (R322). Loads entries of a stream's pending density table. -/
  | scrLoadDensity (r : Nat) (seq : Nat)
  /-- SCR_LOAD_THRESH (R333). Loads a threshold set that is not in use. -/
  | scrLoadThresh (r : Nat) (seq : Nat)
  /-- SCR_SET_DIFFUSION (R331). Sets the kernels, levels and fallback of a diffusion set. -/
  | scrSetDiffusion (r : Nat) (seq : Nat)
  /-- SCR_LOAD_DROPMAP (R332). Loads a port's pending NORMAL and REDUCED drop-level maps. -/
  | scrLoadDropmap (r : Nat) (seq : Nat)
  /-- SCR_REINIT (R334). Restarts a stream's lanes, discards uncommitted screened lines and spoils committed imprints. -/
  | scrReinit (r : Nat) (seq : Nat)
  /-- NOZ_CONFIG_STREAM (R345). Configures or releases a stream's ports, columns and maximum rate and resets its nozzle settings. -/
  | nozConfigStream (r : Nat) (seq : Nat)
  /-- NOZ_LOAD_STATUS (R354). Writes nozzle statuses into the stream's pending map. -/
  | nozLoadStatus (r : Nat) (seq : Nat)
  /-- NOZ_SWAP_STATUS (R356). Schedules the pending status map to become active. -/
  | nozSwapStatus (r : Nat) (seq : Nat)
  /-- NOZ_LOAD_TAKEOVER (R359). Loads the dead-column takeover table of a stream. -/
  | nozLoadTakeover (r : Nat) (seq : Nat)
  /-- NOZ_SET_STITCH (R365). Schedules a change of shift or stitch blend weights. -/
  | nozSetStitch (r : Nat) (seq : Nat)
  /-- NOZ_SET_DELAY (R374). Schedules a change of a port's placement Y. -/
  | nozSetDelay (r : Nat) (seq : Nat)
  /-- NOZ_LOAD_OFFSETS (R375). Schedules a load of nozzle placements Z for a port. -/
  | nozLoadOffsets (r : Nat) (seq : Nat)
  /-- NOZ_REINIT (R385). Empties a stream's delay lines and spoils its committed imprints. -/
  | nozReinit (r : Nat) (seq : Nat)
  /-- ENCODER_TRANSITION (R408). A qualified A or B transition is counted forward or backward, updating the net count, M, the deficit and WP, or is refused as illegal or too fast. -/
  | encoderTransition (e : Nat) (a : Bool) (b : Bool) (ago : Nat)
  /-- ENCODER_INDEX_EDGE (R396). At a rising Z edge, the net count since the previous edge is checked against COUNTS_PER_INDEX. -/
  | encoderIndexEdge (e : Nat)
  /-- ENCODER_LOS (R395). A pair below threshold for 100 ns sets LOS and raises FLT_ENC_LOS. -/
  | encoderLos (e : Nat)
  /-- ENCODER_COMPARE (R400). Every 1 ms the speed estimates of both encoders are compared, and MISMATCH is raised after 10 disagreements. -/
  | encoderCompare
  /-- TRACKING_LOOP_TICK (R413). Every 1.024 µs the loop updates from the latest edge, advances S and recomputes FSYNC times. -/
  | trackingLoopTick
  /-- STANDSTILL (R415). After STILL_US without a count that raises M, speed is set to 0 and STOPPED is set. -/
  | standstill
  /-- FSYNC_EMIT (R429). At its emission time an armed FSYNC edge is emitted on the port. -/
  | fsyncEmit (port : Nat)
  /-- FIRE_CONFIG_ENCODER (R398). Sets an encoder's role, inversion, filter and index check. -/
  | fireConfigEncoder (r : Nat) (seq : Nat)
  /-- FIRE_SET_RATIO (R407). Sets an encoder's count-to-dot ratio. -/
  | fireSetRatio (r : Nat) (seq : Nat)
  /-- FIRE_SET_TRACKING (R419). Sets the loop bandwidth, damping, pitch, tolerances and rate limits. -/
  | fireSetTracking (r : Nat) (seq : Nat)
  /-- FIRE_SET_DATUM (R424). Schedules a change of a stream's datum or lead. -/
  | fireSetDatum (r : Nat) (seq : Nat)
  /-- FIRE_REGISTER (R423). Schedules a datum change and a shift change together. -/
  | fireRegister (r : Nat) (seq : Nat)
  /-- FIRE_REINIT (R412). Clears the deficit, restarts the loop and spoils committed imprints. -/
  | fireReinit (r : Nat) (seq : Nat)
  /-- HL_LINE_SEND (R461). When line n − W has fired or its FSYNC time has passed, the device sends line n's LINE frame to the port. -/
  | hlLineSend (port : Nat)
  /-- HL_FEEDER_DEADLINE (R462). A line whose data is not in the feeder 4 line periods before its FSYNC is not sent and is handled as missed. -/
  | hlFeederDeadline (port : Nat)
  /-- HL_LSTAT_RECEIVE (R464). An LSTAT arrives with acknowledgements, which may cause replays, and fire reports, temperature, HV and alerts. -/
  | hlLstatReceive (port : Nat) (l : Lstat)
  /-- HL_LSTAT_TIMEOUT (R482). 100 µs without an intact LSTAT takes an UP port DOWN and raises FLT_HL_DOWN. -/
  | hlLstatTimeout (port : Nat)
  /-- HL_RX_LOCK_LOSS (R482). Loss of symbol lock on the RX lane takes the port DOWN and may start a retraining. -/
  | hlRxLockLoss (port : Nat)
  /-- HL_REPLAY_TIMEOUT (R464). 4 µs after a frame's EOF without acknowledgement, the frame is sent again. -/
  | hlReplayTimeout (port : Nat) (tseq : Nat)
  /-- HL_FIRE_CONFIRM_TIMEOUT (R470). An armed line not reported fired within 20 µs raises FLT_HL_FIRE and is spoiled. -/
  | hlFireConfirmTimeout (port : Nat)
  /-- HL_VOID_CHECK_TIMEOUT (R472). A VOID_COUNT that does not match within 20 µs raises FLT_HL_FIRE. -/
  | hlVoidCheckTimeout (port : Nat)
  /-- HL_HRST_RELEASE (R479). After HRST_MS the device releases HP_p_HRST_n, starting training or ending a HEAD_RESET. -/
  | hlHrstRelease (port : Nat)
  /-- HL_TRAINING_SET_RECEIVE (R479). Intact TS1 or TS2 ordered sets on the RX lane move the training exchange on to TS2 and IDLE. -/
  | hlTrainingSetReceive (port : Nat) (second : Bool) (count : Nat)
  /-- HL_DECLARE_RECEIVE (R480). A DECLARE frame is checked and authentication or loading of offsets and waveforms starts. -/
  | hlDeclareReceive (port : Nat) (d : Declare)
  /-- HL_RESP_RECEIVE (R457). A RESP frame answers a CTRL; OK to TRAINED makes the port UP. -/
  | hlRespReceive (port : Nat) (op : Nat) (result : Nat)
  /-- HL_TRAINING_TIMEOUT (R479). A port not UP 500 ms after reset release fails training with TIMEOUT. -/
  | hlTrainingTimeout (port : Nat)
  /-- HL_I2C_TRANSACTION_END (R497). An I2C transaction with the head's authentication memory ends, advancing authentication or counter updates. -/
  | hlI2cTransactionEnd (port : Nat) (ok : Bool) (data : List Nat)
  /-- HL_HALERT_LOW (R503). HP_p_HALERT_n low for 1 µs sets ALERT_SEEN and raises FLT_HL_ALERT. -/
  | hlHalertLow (port : Nat)
  /-- HL_USAGE_INCREMENT_TIMER (R499). 60 s with pending usage units causes an INCREMENT write to the head memory. -/
  | hlUsageIncrementTimer (port : Nat)
  /-- HEAD_TRAIN (R481). Starts training a head port with its settings. -/
  | headTrain (r : Nat) (seq : Nat)
  /-- HEAD_AUTH (R498). Runs a head authentication, or provisions a root key into a fuse slot. -/
  | headAuth (r : Nat) (seq : Nat)
  /-- HEAD_LOAD_WAVE (R491). Replaces a waveform slot and commits it on an UP port. -/
  | headLoadWave (r : Nat) (seq : Nat)
  /-- HEAD_SELECT_WAVE (R492). Schedules the waveform slot that the port's lines use. -/
  | headSelectWave (r : Nat) (seq : Nat)
  /-- HEAD_RESET (R501). Spoils, ends training and asserts head reset for HRST_MS. -/
  | headReset (r : Nat) (seq : Nat)
  /-- HEAD_READ_COUNTER (R500). Authenticates and returns the head's usage counter. -/
  | headReadCounter (r : Nat) (seq : Nat)
  /-- HEAD_REINIT (R502). Spoils and retrains the port without reset. -/
  | headReinit (r : Nat) (seq : Nat)
  /-- HELD_ATTEMPT_TIMER (R520). A held attempt that has waited 100 ms is restaged with a stronger degradation set when that would fit. -/
  | heldAttemptTimer (st : Nat)
  /-- HEAT_BIAS_UPDATE (R531). Every 100 ms each port's BIAS is updated and FLT_SCHED_MODEL is checked. -/
  | heatBiasUpdate
  /-- CORE_VFLOOR_UPDATE (R532). Every 1 ms the device computes V_floor from capacity and line rate. -/
  | coreVfloorUpdate
  /-- CORE_SLACK_RAISE_TICK (R533). Every 20 µs with least slack below SLACK_LOW, the target rises by 5 mV, or FLT_SLACK is raised at VMAX. -/
  | coreSlackRaiseTick (slack : Nat) (monitor : Nat)
  /-- CORE_SLACK_LOWER_TIMER (R533). After 10 ms with slack above SLACK_HIGH, the target falls by 5 mV. -/
  | coreSlackLowerTimer (slack : Nat) (monitor : Nat)
  /-- AVS_POLL (R535). Every 1 ms the device reads Voltage, Current and Status over AVSBus. -/
  | avsPoll
  /-- AVS_ALERT (R535). An AVS alert causes a read of the regulator. -/
  | avsAlert
  /-- AVS_TRANSACTION_END (R536). An AVSBus transaction ends; three consecutive failures raise FLT_AVS. -/
  | avsTransactionEnd (ok : Bool) (value : Nat)
  /-- THERM_SAMPLE (R538). Every 100 µs the die sensors are sampled and the throttle fraction and die faults are updated. -/
  | thermSample (temps : List Int)
  /-- SHED_STAGE_CLEAR (R540). A stage clears after 100 ms above its thresholds, with a warm reset or boot when all stages have cleared after a stop. -/
  | shedStageClear
  /-- ORDERLY_STOP_END (R542). The orderly stop ends once checkpoints, CLOSE and capture flush are written and SDRAM is in self-refresh. -/
  | orderlyStopEnd
  /-- PWR_SET_CAP (R524). Sets the device power cap CAP_MW. -/
  | pwrSetCap (r : Nat) (seq : Nat)
  /-- PWR_SET_EXT_BUDGET (R526). Sets the external budgets, a port's model or a dryer zone's model. -/
  | pwrSetExtBudget (r : Nat) (seq : Nat)
  /-- MAINT_START (R549). Declares a host maintenance activity, which runs or is queued. -/
  | maintStart (r : Nat) (seq : Nat)
  /-- MAINT_END (R553). Ends a host activity and starts queued activities that no longer conflict. -/
  | maintEnd (r : Nat) (seq : Nat)
  /-- MAINT_QUERY (R554). Waits for an activity to run or end and returns its state. -/
  | maintQuery (r : Nat) (seq : Nat)
  /-- MAINT_QUERY_TIMEOUT (R554). A MAINT_QUERY whose activity is still QUEUED after TIMEOUT_US completes with TIMEOUT. -/
  | maintQueryTimeout (r : Nat) (seq : Nat)
  /-- MAINT_ACTIVITY_TIMEOUT (R552). A host activity that has run MAX_MS ends with TIMEOUT. -/
  | maintActivityTimeout (id : Nat)
  /-- MAINT_REINIT (R115). Ends every host activity with ABORTED. -/
  | maintReinit (r : Nat) (seq : Nat)
  /-- PTP_SYNC_RECEIVE (R574). A Sync from the selected master drives the servo, a step, a slew or a change of lock state. -/
  | ptpSyncReceive (k : Nat) (port : Nat) (m : PtpMsg)
  /-- PTP_FOLLOW_UP_RECEIVE (R574). A Follow_Up completes a two-step Sync for the servo. -/
  | ptpFollowUpReceive (k : Nat) (port : Nat) (m : PtpMsg)
  /-- PTP_DELAY_RESP_RECEIVE (R574). A Delay_Resp updates the mean path delay. -/
  | ptpDelayRespReceive (k : Nat) (port : Nat) (m : PtpMsg)
  /-- PTP_PDELAY_RECEIVE (R569). A Pdelay message is terminated at the port and updates its peer delay. -/
  | ptpPdelayReceive (port : Nat) (m : PtpMsg)
  /-- PTP_ANNOUNCE_RECEIVE (R577). An Announce feeds the best master algorithm, which may make the device grandmaster. -/
  | ptpAnnounceReceive (k : Nat) (port : Nat) (a : Announce)
  /-- PTP_SYNC_TIMEOUT (R576). 3 sync intervals without a Sync put the base in HOLDOVER. -/
  | ptpSyncTimeout (k : Nat)
  /-- PTP_ANNOUNCE_TIMEOUT (R576). The announce receipt timeout puts the base in HOLDOVER. -/
  | ptpAnnounceTimeout (k : Nat)
  /-- PTP_MESSAGE_SEND (R577). At its interval the instance sends Sync and Announce as grandmaster, or its delay requests. -/
  | ptpMessageSend (k : Nat) (type : Nat)
  /-- PTP_EVENT_RELAY (R569). The transparent clock passes a PTP event message with its residence time added. -/
  | ptpEventRelay (port : Nat) (m : PtpMsg) (residence : Nat)
  /-- ETH_FRAME_RELAY (R570). A frame not addressed to the port is relayed to the other port. -/
  | ethFrameRelay (port : Nat) (multicast : Bool) (bytes : List Nat)
  /-- ETH_LINK_CHANGE (R576). An Ethernet port gains or loses link; loss of both enters HOLDOVER. -/
  | ethLinkChange (port : Nat) (up : Bool)
  /-- TIME_SLEW_END (R580). The slew has removed the remaining offset, so CONVERGING clears and the base acquires. -/
  | timeSlewEnd (k : Nat)
  /-- TIME_CONFIG_PTP (R572). Configures a base's PTP instance. -/
  | timeConfigPtp (r : Nat) (seq : Nat)
  /-- TIME_SET (R582). Sets a host-controlled base as a step. -/
  | timeSet (r : Nat) (seq : Nat)
  /-- TIME_ADJUST (R583). Sets a base's rate or slews it by an offset. -/
  | timeAdjust (r : Nat) (seq : Nat)
  /-- TIME_TOUT_CONFIG (R586). Configures a timed output. -/
  | timeToutConfig (r : Nat) (seq : Nat)
  /-- TIME_TIN_CONFIG (R592). Configures a capture input. -/
  | timeTinConfig (r : Nat) (seq : Nat)
  /-- TIME_READ (R584). Returns a base's present time. -/
  | timeRead (r : Nat) (seq : Nat)
  /-- TIME_REINIT (R585). Restarts a base's PTP instance. -/
  | timeReinit (r : Nat) (seq : Nat)
  /-- TOUT_EDGE (R587). A timed output emits its active edge when its base reaches the edge time. -/
  | toutEdge (n : Nat)
  /-- TOUT_PULSE_END (R587). After WIDTH_NS the output returns to its inactive level. -/
  | toutPulseEnd (n : Nat)
  /-- TIN_EDGE (R593). A selected input edge records TB_0, TB_1 and TB_2, or overflows the queue. -/
  | tinEdge (n : Nat) (rising : Bool) (ago : Nat)
  /-- TIN_POP (R598). Writing TIN_POP removes the oldest capture record. -/
  | tinPop (n : Nat) (value : BitVec 32)
  /-- TIME_SNAP (R598). Writing SNAP latches all three bases at one instant. -/
  | timeSnap (value : BitVec 32)
  /-- MOT_CONFIG (R605). Configures an axis. -/
  | motConfig (r : Nat) (seq : Nat)
  /-- MOT_MOVE (R610). Plans and starts a move, resume or velocity run. -/
  | motMove (r : Nat) (seq : Nat)
  /-- MOT_STOP (R619). Stops an axis in SERVICE, IMMEDIATE or DISABLE mode. -/
  | motStop (r : Nat) (seq : Nat)
  /-- MOT_HOME (R622). Starts a homing sequence. -/
  | motHome (r : Nat) (seq : Nat)
  /-- MOT_FOLLOW (R625). Starts or stops following a coarse step input. -/
  | motFollow (r : Nat) (seq : Nat)
  /-- MOT_GEAR (R631). Engages, changes or releases gearing to web position. -/
  | motGear (r : Nat) (seq : Nat)
  /-- MOT_SET_LIMITS (R606). Sets an axis's motion and soft limits. -/
  | motSetLimits (r : Nat) (seq : Nat)
  /-- MOT_REINIT (R642). Stops the axis immediately and ends homing, following and gearing. -/
  | motReinit (r : Nat) (seq : Nat)
  /-- AXIS_STEP_PULSE (R609). At the planned instant the axis sends a step pulse; the last pulse ends the move or a homing step. -/
  | axisStepPulse (n : Nat) (velocity : Int) (final : Bool)
  /-- AXIS_ENABLE_SETUP_END (R621). EN_SETUP_MS after AX_n_EN is asserted, the axis may send its first pulse. -/
  | axisEnableSetupEnd (n : Nat)
  /-- AXIS_LIMIT_ACTIVE (R618). A limit input becomes active while the axis moves towards it, stopping the axis immediately. -/
  | axisLimitActive (n : Nat) (positive : Bool) (active : Bool)
  /-- AXIS_HOME_EDGE (R623). A home input edge advances the homing sequence or latches the home position. -/
  | axisHomeEdge (n : Nat) (active : Bool)
  /-- FOLLOW_COARSE_STEP (R626). A rising FOL_m_STEP edge schedules MULT interpolated microsteps. -/
  | followCoarseStep (m : Nat) (dirHigh : Bool)
  /-- GEAR_LOCK (R633). An engaging axis reaches the geared speed and locks to WP. -/
  | gearLock (n : Nat)
  /-- GEAR_BLEND_START (R635). A scheduled CHANGE starts its blend when S reaches its position. -/
  | gearBlendStart (n : Nat)
  /-- BL_CONFIG (R655). Configures a brushless channel. -/
  | blConfig (r : Nat) (seq : Nat)
  /-- BL_START (R661). Begins the start sequence of a channel. -/
  | blStart (r : Nat) (seq : Nat)
  /-- BL_SET_SPEED (R666). Replaces a running channel's set-point. -/
  | blSetSpeed (r : Nat) (seq : Nat)
  /-- BL_STOP (R667). Stops a channel by ramp, coast or brake. -/
  | blStop (r : Nat) (seq : Nat)
  /-- BL_REINIT (R689). Turns the outputs off and leaves the channel STOPPED. -/
  | blReinit (r : Nat) (seq : Nat)
  /-- BL_PWM_PERIOD (R656). Each PWM period the current loop runs, with overvoltage, overcurrent and undervoltage checks. -/
  | blPwmPeriod (n : Nat) (sample : BlSample)
  /-- BL_SPEED_UPDATE (R656). Every 16 periods the speed loop sets iq_ref, and a brake request starts a chopper check. -/
  | blSpeedUpdate (n : Nat)
  /-- BL_CHOPPER_CHECK_END (R670). After the 20 µs chopper pulse, the feedback is judged and regeneration is permitted or CHOP_FAULT is set. -/
  | blChopperCheckEnd (n : Nat) (pass : Bool)
  /-- BL_BUS_SETTLED (R672). After 10 ms of normal bus voltage, a coasting channel catches its motor again. -/
  | blBusSettled (n : Nat)
  /-- BL_MEASURE_END (R662). The 50 ms back-EMF measurement ends, and the channel catches, brakes, starts from rest or coasts. -/
  | blMeasureEnd (n : Nat) (cycles : Bool) (speed : Int)
  /-- BL_ALIGN_END (R664). After ALIGN_MS the forced rotation of a start from rest begins. -/
  | blAlignEnd (n : Nat)
  /-- BL_HANDOVER (R664). At HANDOVER_RPM the observer takes over, or the try fails. -/
  | blHandover (n : Nat) (within : Bool)
  /-- BL_RETRY_END (R665). After RETRY_MS of coasting the channel measures again, or fails after CATCH_TRIES. -/
  | blRetryEnd (n : Nat)
  /-- LOOP_CONFIG (R675). Configures a control loop. -/
  | loopConfig (r : Nat) (seq : Nat)
  /-- LOOP_SET_POINT (R677). Sets a loop's set-point. -/
  | loopSetPoint (r : Nat) (seq : Nat)
  /-- LOOP_ENABLE (R678). Enables or disables a loop. -/
  | loopEnable (r : Nat) (seq : Nat)
  /-- LOOP_READ (R682). Returns a loop's input, output and status. -/
  | loopRead (r : Nat) (seq : Nat)
  /-- LOOP_REINIT (R682). Restarts an enabled loop and clears IMPLAUSIBLE. -/
  | loopReinit (r : Nat) (seq : Nat)
  /-- LOOP_UPDATE (R676). At each PERIOD_US a loop computes its output and advances its plausibility model. -/
  | loopUpdate (l : Nat)
  /-- MEM_BANK_HANDOVER (R733). Requests a change of a bank's owner or power state. -/
  | memBankHandover (r : Nat) (seq : Nat)
  /-- MEM_RETRAIN (R704). Tracks or fully retrains an SDRAM channel. -/
  | memRetrain (r : Nat) (seq : Nat)
  /-- MEM_SCRUB (R735). Sets the scrub period or scrubs a range. -/
  | memScrub (r : Nat) (seq : Nat)
  /-- MEM_SCREE (R735). Enables or disables Scree on a bank. -/
  | memScree (r : Nat) (seq : Nat)
  /-- MEM_ERR_READ (R735). Returns the latched error address and counts. -/
  | memErrRead (r : Nat) (seq : Nat)
  /-- MEM_REINIT (R735). Discards a channel's queues, spoils committed imprints and retrains it. -/
  | memReinit (r : Nat) (seq : Nat)
  /-- DDR_TRAINING_END (R702). Channel training ends with SERVING, or with TRAIN_FAIL and FLT_DDR_TRAIN. -/
  | ddrTrainingEnd (c : Nat) (ok : Bool)
  /-- DDR_TRACK_TIMER (R703). Every TRACK_MS a channel is tracked as a DDR_RETRAIN activity, or the track waits. -/
  | ddrTrackTimer (c : Nat)
  /-- DDR_REFRESH_DUE (R705). At each refresh interval the device issues or postpones refresh. -/
  | ddrRefreshDue (c : Nat) (rank : Nat) (hot : Bool)
  /-- DDR_COMMAND_SLOT (R708). At each command slot the channel picks a request by panic, drain and rotation, with activate counting. -/
  | ddrCommandSlot (c : Nat) (arrivals : List DdrArrival) (leads : List Nat)
  /-- DDR_ACT_TABLE_CLEAR (R710). Once per refresh window every activate table is cleared. -/
  | ddrActTableClear
  /-- DDR_READ_RETURN (R714). Read data returns and is checked by ECC, with correction and write-back or an uncorrectable outcome by region. -/
  | ddrReadReturn (c : Nat) (addr : Nat) (reader : DdrReader) (ue : Bool)
  /-- DDR_SCRUB_READ (R715). The patrol scrub reads the next word under token pacing. -/
  | ddrScrubRead (c : Nat) (addr : Nat) (ce : Bool) (ue : Bool)
  /-- SRAMC_BANK_CTRL_WRITE (R719). A write of SRAMC_BANK_CTRL starts a bank handover, or is refused. -/
  | sramcBankCtrlWrite (n : Nat) (value : BitVec 32)
  /-- BANK_CLEAR_END (R719). The bank is cleared and its new owner is set. -/
  | bankClearEnd (n : Nat)
  /-- BANK_WAKE_END (R725). A bank in RET woken by an access returns to ON and the access completes. -/
  | bankWakeEnd (n : Nat)
  /-- SCREE_REGION_START (R729). Each INTERVAL_US Scree saves, tests, remaps if needed and restores the next region. -/
  | screeRegionStart (n : Nat) (fails : Bool)
  /-- SRAM_READ_ERROR (R731). A bank ECC error is corrected, or an uncorrectable one acts by owner. -/
  | sramReadError (n : Nat) (offset : Nat) (ue : Bool) (st : Nat)
  /-- POWER_ON (R780). VDD_IO18 rises into range, PD_0 starts and the cold boot begins. -/
  | powerOn
  /-- POWER_REMOVED (R30). VDD_IO18 leaves its range and the whole device, PD_0 included, loses power. -/
  | powerRemoved
  /-- RAIL_GOOD_CHANGE (R752). A rail's sense voltage enters or leaves the good range, starting qualification or counting chatter. -/
  | railGoodChange (n : Nat) (mv : Nat)
  /-- RAIL_QUAL_END (R752). A rail good for QUAL becomes UP and the sequence goes on. -/
  | railQualEnd (n : Nat) (riseUs : Nat)
  /-- RAIL_RISE_TIMEOUT (R759). A rail not good within RISE_MS fails. -/
  | railRiseTimeout (n : Nat)
  /-- RAIL_BELOW_OFF (R753). A released rail falls below OFF and the shutdown goes on to the next rail. -/
  | railBelowOff (n : Nat)
  /-- RAIL_FALL_TIMEOUT (R753). A rail not below OFF within FALL_MS records FALL_TIMEOUT and the shutdown goes on. -/
  | railFallTimeout (n : Nat)
  /-- RAIL_RUN_FAULT (R760). An UP rail outside its good range for 10 µs records RUN_FAULT and starts its FAIL_ACTION. -/
  | railRunFault (n : Nat)
  /-- RAIL_WARN_END (R760). After RAIL_WARN the failed rail's dependants and the rail itself are shut down. -/
  | railWarnEnd (n : Nat)
  /-- BOOT_RAIL_RETRY (R745). 1 s after a boot rail failure the boot rails are started again. -/
  | bootRailRetry
  /-- PWR_RAIL_CONFIG (R750). Configures a supervised rail. -/
  | pwrRailConfig (r : Nat) (seq : Nat)
  /-- PWR_RAIL_ON (R754). Powers up the rails of MASK in order. -/
  | pwrRailOn (r : Nat) (seq : Nat)
  /-- PWR_RAIL_OFF (R755). Shuts down the rails of MASK and their dependants. -/
  | pwrRailOff (r : Nat) (seq : Nat)
  /-- PWR_DOMAIN (R748). Switches a power domain on or off. -/
  | pwrDomain (r : Nat) (seq : Nat)
  /-- DOMAIN_SETTLED (R748). A domain switched on leaves RESET once its supply has settled, completing PWR_DOMAIN. -/
  | domainSettled (k : Nat)
  /-- PWR_REINIT (R115). Restarts the AVSBus master and the housekeeping ADC and aborts waiting rail requests. -/
  | pwrReinit (r : Nat) (seq : Nat)
  /-- PFW_ASSERT (R762). PFW_n low for 1 µs enters stage 6 and the orderly stop. -/
  | pfwAssert
  /-- PFW_BUDGET_END (R763). When BUDGET passes, the timed shutdown begins. -/
  | pfwBudgetEnd
  /-- PFW_RELEASE (R764). PFW_n high for 100 ms clears stage 6 and the device boots. -/
  | pfwRelease
  /-- SRST_STRETCH_END (R765). STRETCH_MS after its last condition ends, SRST_k is released. -/
  | srstStretchEnd (k : Nat)
  /-- SRST_PULSE (R765). Writing PULSE asserts SRST_k for a pulse. -/
  | srstPulse (k : Nat) (value : BitVec 32)
  /-- HK_ROUND (R766). Every 1 ms the housekeeping ADC converts all channels and replaces the round's values. -/
  | hkRound (ext : List Nat) (int : List Nat)
  /-- PLL_UPDATE (R769). Writing UPDATE applies the shadow PLL settings together, with bypass for large changes, or is refused. -/
  | pllUpdate (k : Nat) (value : BitVec 32)
  /-- PLL_LOCK (R772). A PLL declares lock after LOCK_CNT cycles and its outputs return from bypass. -/
  | pllLock (k : Nat)
  /-- PLL_LOSS_OF_LOCK (R773). Phase error beyond ±2 ns switches the outputs to bypass and raises FLT_PLL_LOCK. -/
  | pllLossOfLock (k : Nat)
  /-- PLL_REF_LOSS (R773). No reference edge for 200 ns switches to bypass and raises FLT_PLL_REF. -/
  | pllRefLoss
  /-- PLL_REF_RETURN (R773). The reference returns and the PLL reacquires on bypass. -/
  | pllRefReturn
  /-- CLKOUT_CFG_WRITE (R775). A CLKOUT_CFG write enables or disables a clock output glitch-free, or is discarded while enabled. -/
  | clkoutCfgWrite (k : Nat) (value : BitVec 32)
  /-- COL_BRIDGE_TIMEOUT (R779). A bridge whose clocked side stops for TIMEOUT_US fails its transfer and raises FLT_COL_TIMEOUT. -/
  | colBridgeTimeout (b : Nat)
  /-- FW_IMAGE_LOAD_END (R796). The ROM ends reading and verifying an image, starting the firmware, trying the other slot or entering NO_IMAGE. -/
  | fwImageLoadEnd
  /-- BOOT_OPERATIONAL (R794). The firmware reaches operational status, clearing TRIAL and the failed-start count and starting the ring scan and retraining. -/
  | bootOperational
  /-- BOOT_WATCHDOG_EXPIRE (R798). A start not operational in time counts as failed and boots again, or enters Saddle mode at the third failure. -/
  | bootWatchdogExpire
  /-- BOOT_IMG_GO (R797). Writing GO in SYS_BOOT_CTRL starts loading an image from host memory, or sets NO_MEMORY. -/
  | bootImgGo (value : BitVec 32)
  /-- BOOT_IMG_LOAD_END (R797). A host-loaded image is verified and started, leaving Saddle mode, or sets BOOT_ERR. -/
  | bootImgLoadEnd (data : Option (List Nat))
  /-- PERST_RELEASE (R795). The release of PCIE_PERST_n starts link training and configuration service. -/
  | perstRelease
  /-- FAULT_RAISE (R809). A source's pair turns to raised and the collector applies its reaction. -/
  | faultRaise (n : Nat)
  /-- FAULT_LOWER (R815). A LEVEL source's pair turns to not raised and the source goes QUIET. -/
  | faultLower (n : Nat)
  /-- FAULT_WIRE_ERROR (R805). Both wires at one level for 100 ns set WIRE_ERR and count as raised. -/
  | faultWireError (n : Nat)
  /-- WIRE_SOUND_END (R805). A pair sound for 1 ms clears WIRE_ERR. -/
  | wireSoundEnd (n : Nat)
  /-- SOFT_TIMER_EXPIRE (R810). A SOFT timer expires and the source acts as SAFE with ESCALATED. -/
  | softTimerExpire (n : Nat)
  /-- QUIET_EXPIRE (R815). After QUIET_MS without a raise the source returns to IDLE and counts a recovery. -/
  | quietExpire (n : Nat)
  /-- LOCKSTEP_MISMATCH (R812). The cores of a lockstep pair disagree, forcing a warm reset. -/
  | lockstepMismatch
  /-- FW_WATCHDOG_EXPIRE (R812). The firmware fails its 100 ms watchdog, forcing a warm reset. -/
  | fwWatchdogExpire
  /-- FABRIC_PARITY_REFUSE (R823). A hop refuses a word of bad parity and replays it; after 3 and 256 replays faults and resets follow. -/
  | fabricParityRefuse (region : Nat) (hop : Nat) (again : Bool)
  /-- FLT_CONFIG (R837). Sets a source's reaction, WEB_STOP, QUIET_MS and timer. -/
  | fltConfig (r : Nat) (seq : Nat)
  /-- FLT_READ (R838). Returns a source's counters, reaction and state. -/
  | fltRead (r : Nat) (seq : Nat)
  /-- FLT_CLEAR (R839). Acknowledges a source, clears its counts or exits the safe state. -/
  | fltClear (r : Nat) (seq : Nat)
  /-- FLT_INJECT (R840). Drives a source's pair to raised or to a wire error. -/
  | fltInject (r : Nat) (seq : Nat)
  /-- FLT_INJECT_END (R840). After DURATION_US the injection ends and the command completes. -/
  | fltInjectEnd (r : Nat) (seq : Nat)
  /-- FLT_REINIT (R841). Rechecks every pair and clears WIRE_ERR on sound ones. -/
  | fltReinit (r : Nat) (seq : Nat)
  /-- WEAR_DAILY_SAMPLE (R833). Every 24 h of PD_0 time every indicator is sampled and stored, and predictions update FLT_WEAR. -/
  | wearDailySample (values : List (Nat × Nat))
  /-- WEAR_READ (R842). Returns an indicator's latest value. -/
  | wearRead (r : Nat) (seq : Nat)
  /-- WEAR_PREDICT (R842). Sets prediction parameters and returns hours to the limit. -/
  | wearPredict (r : Nat) (seq : Nat)
  /-- WEAR_REINIT (R115). Discards an indicator's samples. -/
  | wearReinit (r : Nat) (seq : Nat)
  /-- DIAG_ECHO (R843). Returns the CRC and length of the payload. -/
  | diagEcho (r : Nat) (seq : Nat)
  /-- DIAG_LOOPBACK (R844). Runs a PRBS31 loopback on a port. -/
  | diagLoopback (r : Nat) (seq : Nat)
  /-- DIAG_LOOPBACK_END (R843). After DURATION_MS the loopback completes with its bit error count. -/
  | diagLoopbackEnd (r : Nat) (seq : Nat) (errors : Nat) (lock : Bool)
  /-- DIAG_TRACE (R843). Returns a fault log entry. -/
  | diagTrace (r : Nat) (seq : Nat)
  /-- DIAG_MEMTEST (R844). Runs a destructive march over a FREE bank. -/
  | diagMemtest (r : Nat) (seq : Nat)
  /-- DIAG_REINIT (R115). Ends a running loopback or memory test. -/
  | diagReinit (r : Nat) (seq : Nat)
  /-- ENCODER_SIGNAL_RESTORE (R440). All three pairs of an encoder return above the receiver threshold, so SIGNAL_OK becomes 1 again and the encoder can count and be chosen as WP source. -/
  | encoderSignalRestore (e : Nat) (a : Bool) (b : Bool)
  /-- HL_HALERT_RELEASE (R507). HP_p_HALERT_n returns high, so HALERT in HL_STATUS clears. -/
  | hlHalertRelease (port : Nat)
  /-- HL_RX_FRAME_DISCARD (R452). A frame on the head port's receive lane arrives with a bad CRC, a code violation, an ABORT, a reserved TYPE or a wrong length, and is discarded and counted in HL_CRC_ERRS. -/
  | hlRxFrameDiscard (port : Nat)
  /-- PTP_DELAY_REQ_RECEIVE (R565). A Delay_Req from a slave reaches this device's instance while it is grandmaster, which answers with Delay_Resp carrying the ingress time-stamp. -/
  | ptpDelayReqReceive (k : Nat) (port : Nat) (m : PtpMsg)
  /-- DIAG_MEMTEST_END (R843). The destructive march over the whole bank ends, the bank is cleared under step 2 of R719 and DIAG_MEMTEST completes with the failing words. -/
  | diagMemtestEnd (r : Nat) (seq : Nat) (failing : Nat)
  /-- FW_WRITE_PROGRAMMED (R791). The erase and programming of a flash region for SYS_FW_WRITE ends and the read-back decides between DONE and WRITE_ERROR. -/
  | fwWriteProgrammed (ok : Bool)
  deriving DecidableEq, Repr

end Sys2Proof
end

