-- ==== Sys2Proof/Config.lean ====
section
/-! DEFINITION. What one part fixes and the values the spec leaves open: opaque constants that nothing in Lean can
evaluate. A statement that mentions one holds for every value of it. Log entries 5 to 12 and 15 name them. -/

namespace Sys2Proof.Config

/-- The free value a step takes when the spec leaves a result open and gives no operands it depends on: the n-th one
(log entry 5). -/
opaque freeValue : Nat → Nat

/-- SYS_UID, the 64-bit identity in the part's fuses (R871, log entry 6). -/
opaque sysUid : Nat

/-- Of the two neighbours between which an inexact quotient lies, does the device take the upper one? The spec fixes the
format of many results and not their rounding (log entry 7). The first argument names the result. -/
opaque roundUp : Nat → Int → Int → Bool

/-- 2 pi in units of 2^-60, as the device holds it (R413, R655; log entry 8). -/
opaque twoPi60 : Nat

/-- 1 - e^(-num/den) in units of 2^-32, as the device holds it (R530, R683; log entry 8). -/
opaque expRise : Nat → Nat → Nat

/-- The response of AES-128-CMAC (R496): key and message as numbers, message length in bytes (log entry 9). -/
opaque cmac : Nat → Nat → Nat → Nat

/-- The n-th 16-byte challenge the device draws (R497, log entry 9). -/
opaque challenge : Nat → Nat

/-- Does the firmware image verify (its length, its digest and its ECDSA signature under the fused key, R787)? Log
entry 10. -/
opaque imageVerifies : List (BitVec 8) → Bool

/-- The q-axis current after one PWM period: measured currents, reference, speed and voltages (R656; log entry 11). -/
opaque iqOf : Int → Int → Int → Int

/-- The currents the motor model predicts for a period whose sample is not valid (R659; log entry 11). -/
opaque iqPredict : Int → Int → Int → Int

/-- The populated SDRAM: channels, ranks, width and density as DDRC_CFG gives them (R694, R737; log entry 12). -/
opaque ddrPopulation : Nat × Nat × Nat × Nat

/-- TEMP_idle of a head port, 1/16 °C (R530): the spec states no value for it (log entry 5). -/
opaque headIdle : Nat → Int

/-- A loop quantity whose computed value lies outside the signed 16.16 format (chapter 13, control loops; log entry 5). -/
opaque outOfRange : Int → Int

/-- The supply-compensated output of a loop whose supply reads 0, before its clamp (R676; log entry 5). -/
opaque zeroSupply : Int → Int

/-- Bytes of the NOR flash beyond the 16 MiB it must have (R785, log entry 15). -/
opaque flashBeyond : Nat

/-- Size of the NOR flash in bytes, which the device discovers (R785). -/
def flashSize : Nat := 0x1000000 + flashBeyond

end Sys2Proof.Config
end

