-- ==== Sys2Proof/Machine/State.lean ====
section
/-! DEFINITION. The machine's state as plain data: every register, FIFO, buffer, counter, mode and pin the spec gives the
EH-3216, the queue of waiting commands, and State.reset, the machine right after power-on. Each field's docstring names
the rule of spec/ (R<n> and the chapter) that gives it. -/

namespace Sys2Proof.Machine

/-- A sparse table: entries by index in rising order; an index without an entry holds its default (see Tab.get). -/
abbrev Tab (α : Type) := List (Nat × α)

/-- A packet's name: its ring and its SEQ (R103). -/
abbrev PktRef := Nat × Nat

/-- State of a power domain (R800: PWR_DOMAIN_STATUS). -/
inductive Dom where
  | on | reset | off | ret
  deriving DecidableEq, Repr

/-- STATE of RAIL_STATUS (R801). -/
inductive RailSt where
  | off | wait | rising | qualifying | up | falling | failed
  deriving DecidableEq, Repr

/-- What the rail sequencer runs (R756, R800). -/
inductive SeqKind where
  | idle | powerUp | shutdown | timedShutdown | safeShutdown | boot
  deriving DecidableEq, Repr

/-- STAGE of SYS_BOOT_STATUS (R803). -/
inductive Stage where
  | rom | rails | clocks | ddrTrain | fwLoad | fwInit | operational | noImage | saddle
  deriving DecidableEq, Repr

/-- A source's reaction (R809). -/
inductive Reaction where
  | ignore | log | soft | safe | reset
  deriving DecidableEq, Repr

/-- A source's state (R815). -/
inductive SrcSt where
  | idle | active | quiet
  deriving DecidableEq, Repr

/-- Where a fetched packet stands: started and not yet executed; waiting for its indirect payload (R155, R187);
parked in the trigger table (R136); a duplicate that waits for the earlier packet (R76); stopped at a barrier (R122);
polling (R127); executing, its end being a later event. -/
inductive Phase where
  | started | payload | parked | dupWait | barrier | polling | executing
  deriving DecidableEq, Repr

/-- Status codes of completions (R109). -/
inductive Status where
  | done | doneEmpty | accepted | queued | duplicate | alreadyAccepted | alreadyPrinted
  | malformed | badOpcode | badTarget | badLength | badField | badTrigger | wrongDevice | stale | badSeq
  | busy | tooLate | unknownId | notFinal | late | timeout | aborted | barrierMismatch | noResource
  | notInSaddle | refused
  | badId | badStream | badPolicy | badStart | badSource | idConflict | cairnFull | badHorizon
  | checksum | expansion | notSmaller | badBitstream | signature | compareMismatch | authFailed
  | fetchError | writeError | eccUncorrectable | linkDown
  | safeState | unitReset | powerShed | internal
  deriving DecidableEq, Repr

/-- An imprint's state (R45). -/
inductive ImpSt where
  | received | accepted | staged | committed | firing | printed | spoiled | cancelled | released
  deriving DecidableEq, Repr

/-- Progress of an imprint's look-ahead decode (R223, R257). -/
inductive DecodeSt where
  | waiting | running | ok | failed
  deriving DecidableEq, Repr

/-- STATE of a DMA channel (R220). -/
inductive DmaSt where
  | idle | running | halted
  deriving DecidableEq, Repr

/-- STATE of a head port (R476). -/
inductive HlSt where
  | down | reset | training | auth | loading | up | failed
  deriving DecidableEq, Repr

/-- The I2C transaction of a port that is in progress (R495, R497). -/
inductive I2cStep where
  | idle | readInfo | writeChallenge | readResponse | readCounter | increment
  deriving DecidableEq, Repr

/-- STATE of a time base (R599). -/
inductive TbSt where
  | host | acquiring | locked | holdover | grandmaster
  deriving DecidableEq, Repr

/-- STATE of an axis (R648). -/
inductive AxisSt where
  | disabled | idle | moving | stopping | homing | following | engaging | geared
  deriving DecidableEq, Repr

/-- What an axis that moves under its own profile generator is doing (R610, R616). -/
inductive MoveMode where
  | none | toTarget | velocity | stop
  deriving DecidableEq, Repr

/-- STATE of a brushless channel (R692). -/
inductive BlSt where
  | stopped | measuring | braking | starting | running | stopping | coasting
  deriving DecidableEq, Repr

/-- STATE of an SDRAM channel (R739). -/
inductive DdrSt where
  | unpopulated | training | serving | selfRefresh | failed
  deriving DecidableEq, Repr

/-- Balls whose level a command changes (R598 and the signal tables of chapters 8 to 15). -/
inductive Pin where
  | pen | srst | webStop | axStep | axDir | axEn | tout | hrst | blPwm | blBrake | blChop | dry | gpioPwm | clkout | irq
  deriving DecidableEq, Repr

/-- The management SPI's mailbox (R169, 17/18: SYS+0x4000, SYS+0x5000). -/
structure Mailbox where
  /-- 16 slots of 256 bytes, by word index 0..1023; reset 0 (R871 18). -/
  slots : Tab Nat
  /-- 16 completion entries of 16 bytes, by word index 0..63 (R871 18). -/
  cpls : Tab Nat
  deriving DecidableEq, Repr

/-- Mailbox at reset. -/
def Mailbox.reset : Mailbox where
  slots := []
  cpls := []

/-- SYS block (18_register_map R871, 15 R803, 03 R143 R167 R168). -/
structure Sys where
  /-- VDD_IO18 is within its range (R30 01). -/
  powered : Bool
  /-- ADDR of SYS_ADDR (R143 03). -/
  addr : Nat
  /-- VALID of SYS_ADDR (1 = ADDR has been set) (R143 03). -/
  addrValid : Bool
  /-- SYS_IRQ_PENDING, bit v is vector v (R167 03). -/
  irqPending : Nat
  /-- SYS_IRQ_PIN_MASK, default all zero (R168 03). -/
  irqMask : Nat
  /-- STAGE of SYS_BOOT_STATUS (R794: ROM first) (R803 15). -/
  stage : Stage
  /-- SLOT loaded (R803 15). -/
  slotLoaded : Nat
  /-- TRIAL of SYS_BOOT_STATUS (R803 15). -/
  trialLoaded : Bool
  /-- BOOT_ERR (R803 15). -/
  bootErr : Nat
  /-- SYS_RESET_CAUSE [3:0], 1 = POWER_ON (R803 15). -/
  resetCause : Nat
  /-- failed-start count, cleared by power-on (R781 15). -/
  failedStarts : Nat
  /-- SYS_BOOT_IMG_LO (R803 15). -/
  bootImgLo : Nat
  /-- SYS_BOOT_IMG_HI (R803 15). -/
  bootImgHi : Nat
  /-- SYS_BOOT_IMG_LEN (R803 15). -/
  bootImgLen : Nat
  /-- an image load from host memory is in progress (R797 15). -/
  bootLoading : Bool
  /-- SYS_FW_VERSION (R803 15). -/
  fwVersion : Nat
  /-- STAGE_1..STAGE_3 of SYS_START_HIST, newest first; 0 when none (R874 18). -/
  startStages : List Nat
  /-- SADDLE_REASON, 0 outside Saddle mode (R829 16). -/
  saddleReason : Nat
  /-- the start in progress is a warm reset (R798 15). -/
  warmStarting : Bool
  /-- FLT_LOCKSTEP raised during the present start (R829 16). -/
  lockstepSeen : Bool
  /-- WRITE_LOCK, reset 0 (R872 18). -/
  writeLock : Bool
  /-- MISO_DRIVE, reset 1 (R872 18). -/
  misoDrive : Nat
  /-- SYS_MSPI_STATS [15:0] (R871 18). -/
  mspiTimeouts : Nat
  /-- SYS_MSPI_STATS [31:16] (R871 18). -/
  mspiDiscards : Nat
  /-- STATUS byte [1] (R169 03). -/
  mspiReadTimedOut : Bool
  /-- STATUS byte [2] (R169 03). -/
  mspiWriteDiscarded : Bool
  /-- BASE of SYS_TABLE_BASE (R871 18). -/
  tableBase : Nat
  /-- the mailbox (R871 18). -/
  mbox : Mailbox
  /-- high words latched by a read of the low word, by BAR0 offset of the high register (R12 00). -/
  latch : Tab Nat
  /-- PCIE_PERST_n released; link training started (R795 15). -/
  perstReleased : Bool
  /-- MAC address of ETH_0, octets as in the calibration record (R789 15). -/
  mac0 : Nat
  /-- MAC address of ETH_1 (R789 15). -/
  mac1 : Nat
  /-- PCIe link up (R510 10). -/
  pcieUp : Bool
  deriving DecidableEq, Repr

/-- Sys at reset. -/
def Sys.reset : Sys where
  powered := true
  addr := 0
  addrValid := false
  irqPending := 0
  irqMask := 0
  stage := .rom
  slotLoaded := 0
  trialLoaded := false
  bootErr := 0
  resetCause := 1
  failedStarts := 0
  bootImgLo := 0
  bootImgHi := 0
  bootImgLen := 0
  bootLoading := false
  fwVersion := 0
  startStages := []
  saddleReason := 0
  warmStarting := false
  lockstepSeen := false
  writeLock := false
  misoDrive := 1
  mspiTimeouts := 0
  mspiDiscards := 0
  mspiReadTimedOut := false
  mspiWriteDiscarded := false
  tableBase := 0
  mbox := Mailbox.reset
  latch := []
  perstReleased := false
  mac0 := 0
  mac1 := 0
  pcieUp := false

/-- one supervised rail (15 R749, R800, R801). -/
structure Rail where
  /-- PWR_RAIL_CONFIG in force; rails 5 to 15 unconfigured after power-on (R749 15). -/
  configured : Bool
  /-- ORDER (R749 15). -/
  order : Nat
  /-- FAIL_ACTION, true = DEVICE (R749 15). -/
  failDevice : Bool
  /-- EN_ACTIVE_HIGH (R749 15). -/
  enActiveHigh : Bool
  /-- CHATTER_LIMIT (8 on boot rails) (R743 15). -/
  chatterLimit : Nat
  /-- PREREQ (R749 15). -/
  prereq : Nat
  /-- UV, mV (R749 15). -/
  uv : Nat
  /-- OV, mV (R749 15). -/
  ov : Nat
  /-- OFF, mV (R749 15). -/
  off : Nat
  /-- QUAL, 0.1 ms (R749 15). -/
  qual : Nat
  /-- RISE_MS (R749 15). -/
  riseMs : Nat
  /-- FALL_MS (R749 15). -/
  fallMs : Nat
  /-- STATE of RAIL_STATUS (R801 15). -/
  st : RailSt
  /-- GOOD (R801 15). -/
  good : Bool
  /-- EN, PEN_n asserted; PEN_n released after power-on (R801 15). -/
  en : Bool
  /-- CAUSE of the last failure (R801 15). -/
  cause : Nat
  /-- CHATTER (R801 15). -/
  chatter : Nat
  /-- FAIL_SEEN (R801 15). -/
  failSeen : Bool
  /-- RAIL_RISE_US (R800 15). -/
  riseUs : Nat
  /-- RAIL_FAILS (R800 15). -/
  fails : Nat
  /-- RAIL_WARN runs after a running fault (R760 15). -/
  warning : Bool
  deriving DecidableEq, Repr

/-- Rail at reset. -/
def Rail.reset : Rail where
  configured := false
  order := 0
  failDevice := false
  enActiveHigh := false
  chatterLimit := 8
  prereq := 0
  uv := 0
  ov := 0
  off := 0
  qual := 0
  riseMs := 0
  fallMs := 0
  st := .off
  good := false
  en := false
  cause := 0
  chatter := 0
  failSeen := false
  riseUs := 0
  fails := 0
  warning := false

/-- one request to the rail sequencer (R756). -/
structure SeqReq where
  /-- power-up, shutdown, or timed shutdown (R756 15). -/
  kind : SeqKind
  /-- rails asked for (R754 15). -/
  mask : Nat
  /-- the packet that waits for it (R754 15). -/
  ref : Option PktRef
  deriving DecidableEq, Repr

/-- SeqReq at reset. -/
def SeqReq.reset : SeqReq where
  kind := .powerUp
  mask := 0
  ref := none

/-- one system reset output (R765, R800). -/
structure Srst where
  /-- STRETCH_MS, 100 after power-on (R765 15). -/
  stretchMs : Nat
  /-- RAIL_MASK, 0x001F after power-on (R765 15). -/
  railMask : Nat
  /-- ON_WARM, 0 after power-on (R765 15). -/
  onWarm : Bool
  /-- SRST_k driven high (asserted from VDD_AON good) (R765 15). -/
  asserted : Bool
  deriving DecidableEq, Repr

/-- Srst at reset. -/
def Srst.reset : Srst where
  stretchMs := 100
  railMask := 0x1F
  onWarm := false
  asserted := true

/-- PWR block and power domains (15). -/
structure Pwr where
  /-- PD_0 ON, the others in RESET until the boot rails are UP (R747 R794 15). -/
  domains : Tab Dom
  /-- rails SUPV_0 to SUPV_15 (R749 15). -/
  rails : Tab Rail
  /-- enabled rails, the last enabled first (R751 15). -/
  enabledOrder : List Nat
  /-- SEQ of PWR_SEQ_STATUS (R800 15). -/
  seqKind : SeqKind
  /-- rails the running sequence has still to step, in order (R751 15). -/
  seqTodo : List Nat
  /-- rail in step (R800 15). -/
  seqRail : Nat
  /-- MASK of the running request (R754 15). -/
  seqMask : Nat
  /-- packet of the running request (R754 15). -/
  seqRef : Option PktRef
  /-- the running power-up was cut short by a shutdown request (R757 15). -/
  seqAbort : Bool
  /-- requests that wait, in order of arrival (R756 15). -/
  seqWaiting : List SeqReq
  /-- 1 s wait after a boot rail failure (R745 15). -/
  bootRetry : Bool
  /-- BUDGET, reset 100 (R800 15). -/
  pfwBudget : Nat
  /-- RAIL_WARN, reset 20 (R800 15). -/
  railWarn : Nat
  /-- CYCLE_OFF_MS, reset 500 (R800 15). -/
  cycleOffMs : Nat
  /-- PFW_EN, reset 1 (R800 15). -/
  pfwEn : Bool
  /-- PFW of SCHED_SHED (R557 10). -/
  pfwLow : Bool
  /-- the orderly stop in progress is followed by the timed shutdown (R763 15). -/
  timedDue : Bool
  /-- SRST_0 to SRST_3 (R765 15). -/
  srst : Tab Srst
  /-- HK_EXT_c (R800 15). -/
  hkExt : Tab Nat
  /-- HK_INT_c (R800 15). -/
  hkInt : Tab Nat
  /-- a SYS_POWER_CYCLE is in progress (R782 15). -/
  cycling : Bool
  /-- every rail off, CYCLE_OFF_MS runs (R782 15). -/
  offHold : Bool
  deriving DecidableEq, Repr

/-- Pwr at reset. -/
def Pwr.reset : Pwr where
  domains := [(0, .on)]
  rails := []
  enabledOrder := []
  seqKind := .idle
  seqTodo := []
  seqRail := 0
  seqMask := 0
  seqRef := none
  seqAbort := false
  seqWaiting := []
  bootRetry := false
  pfwBudget := 100
  railWarn := 20
  cycleOffMs := 500
  pfwEn := true
  pfwLow := false
  timedDue := false
  srst := []
  hkExt := []
  hkInt := []
  cycling := false
  offHold := false

/-- one PLL (R769 to R774, R802). -/
structure Pll where
  /-- shadow REF_DIV (R802 15). -/
  refDiv : Nat
  /-- shadow FB_DIV (R802 15). -/
  fbDiv : Nat
  /-- shadow FRAC (R802 15). -/
  frac : Nat
  /-- shadow OUT_DIV word (R802 15). -/
  outDiv : Nat
  /-- LOCK_CNT, 256 after power-on (R772 15). -/
  lockCnt : Nat
  /-- REF_DIV in force (R769 15). -/
  aRef : Nat
  /-- FB_DIV in force (R769 15). -/
  aFb : Nat
  /-- FRAC in force (R769 15). -/
  aFrac : Nat
  /-- OUT_DIV in force (R769 15). -/
  aOut : Nat
  /-- LOCK_CNT in force (R772 15). -/
  aLock : Nat
  /-- LOCKED (PLLs lock in the boot, R794) (R802 15). -/
  locked : Bool
  /-- BYPASS (until lock, R772) (R802 15). -/
  bypass : Bool
  /-- REF_LOST (R802 15). -/
  refLost : Bool
  /-- LOL_SEEN (R802 15). -/
  lolSeen : Bool
  /-- UPD_REFUSED (R802 15). -/
  updRefused : Bool
  deriving DecidableEq, Repr

/-- Pll at reset. -/
def Pll.reset : Pll where
  refDiv := 1
  fbDiv := 200
  frac := 0
  outDiv := 0
  lockCnt := 256
  aRef := 1
  aFb := 200
  aFrac := 0
  aOut := 0
  aLock := 256
  locked := false
  bypass := true
  refLost := false
  lolSeen := false
  updRefused := false

/-- CLK block (15 R802). -/
structure Clk where
  /-- SYSPLL, DDRPLL, ETHPLL, PCIe PHY PLL (R768 15). -/
  plls : Tab Pll
  /-- CLKOUT_CFG_k, every output disabled after power-on (R775 15). -/
  clkout : Tab Nat
  /-- MODE of bridge b, 1 = VERIFIED (R776 15). -/
  colMode : Tab Nat
  /-- TIMEOUT_US, reset 64 (R802 15). -/
  colTimeout : Tab Nat
  /-- bridge of the last timeout (R802 15). -/
  colBridge : Nat
  /-- TIMEOUT_SEEN (R802 15). -/
  colSeen : Bool
  deriving DecidableEq, Repr

/-- Clk at reset. -/
def Clk.reset : Clk where
  plls := []
  clkout := []
  colMode := [(5,1),(6,1),(7,1),(9,1)]
  colTimeout := []
  colBridge := 0
  colSeen := false

/-- one fault source (16 R807 to R815, R845). -/
structure Src where
  /-- REACTION, the table's default (R807 16). -/
  reaction : Reaction
  /-- WEB_STOP, 0 (R836 16). -/
  webStop : Bool
  /-- QUIET_MS, 100 (R836 16). -/
  quietMs : Nat
  /-- TIMER_US, 10,000 (R836 16). -/
  timerUs : Nat
  /-- STATE (R815 16). -/
  st : SrcSt
  /-- WIRE_ERR (R805 16). -/
  wireErr : Bool
  /-- ESCALATED (R810 16). -/
  escalated : Bool
  /-- DETAIL (R808 16). -/
  detail : Nat
  /-- RAISES (R815 16). -/
  raises : Nat
  /-- RECOVERIES (R815 16). -/
  recoveries : Nat
  /-- the pair shows raised (a LEVEL source's condition holds) (R804 16). -/
  raised : Bool
  /-- a SOFT timer runs, with the TIMER_US it was started with (R814) (R810 16). -/
  softTimer : Option Nat
  deriving DecidableEq, Repr

/-- Src at reset. -/
def Src.reset : Src where
  reaction := .log
  webStop := false
  quietMs := 100
  timerUs := 10000
  st := .idle
  wireErr := false
  escalated := false
  detail := 0
  raises := 0
  recoveries := 0
  raised := false
  softTimer := none

/-- one entry of the fault log (R816). -/
structure LogEntry where
  /-- TIME_US (R816 16). -/
  timeUs : Nat
  /-- SOURCE (R816 16). -/
  source : Nat
  /-- KIND (R816 16). -/
  kind : Nat
  deriving DecidableEq, Repr

/-- LogEntry at reset. -/
def LogEntry.reset : LogEntry where
  timeUs := 0
  source := 0
  kind := 0

/-- one fault injection in progress (R840). -/
structure Inject where
  /-- source (R840 16). -/
  src : Nat
  /-- MODE WIRE (R840 16). -/
  wire : Bool
  /-- the FLT_INJECT packet (R840 16). -/
  ref : PktRef
  deriving DecidableEq, Repr

/-- Inject at reset. -/
def Inject.reset : Inject where
  src := 0
  wire := false
  ref := (0,0)

/-- fault collector (16). -/
structure Flt where
  /-- sources by number (R807 16). -/
  srcs : Tab Src
  /-- SAFE_RAIL_MASK, as bits 5 to 15 (R845 16). -/
  safeRailMask : Nat
  /-- INJECT_EN, reset 0 (R845 16). -/
  injectEn : Bool
  /-- the safe state is held (a cold reset ends it) (R822 16). -/
  held : Bool
  /-- WEB_STOP_n asserted (R822 16). -/
  webStop : Bool
  /-- RESET_SUPPRESSED (R846 16). -/
  resetSuppressed : Bool
  /-- ENTERED (R846 16). -/
  entered : Bool
  /-- FIRST_SOURCE (R846 16). -/
  firstSource : Nat
  /-- sources that requested the safe state now held (FLT_CAUSE) (R845 16). -/
  causes : List Nat
  /-- the fault log, newest first; only a power-on empties it (R816 16). -/
  log : List LogEntry
  /-- FAB_REPLAYS_r (R845 16). -/
  fabReplays : Tab Nat
  /-- consecutive replays of the present word, by region * 4096 + hop (R824 16). -/
  fabRun : Tab Nat
  /-- TB_2 (ns) of the last warm reset with cause WARM_FAULT (R811 16). -/
  lastWarmFault : Option Nat
  /-- raises (true) and lowers (false) of sources posted during the present command, with the detail, oldest first; empty between commands (R809 16). -/
  todo : List (Bool × Nat × Nat)
  /-- injections in progress (R840 16). -/
  injects : List Inject
  deriving DecidableEq, Repr

/-- Flt at reset. -/
def Flt.reset : Flt where
  srcs := []
  safeRailMask := 0
  injectEn := false
  held := false
  webStop := false
  resetSuppressed := false
  entered := false
  firstSource := 0
  causes := []
  log := []
  fabReplays := []
  fabRun := []
  lastWarmFault := none
  todo := []
  injects := []

/-- one fetched Flomund packet with its header fields (R103) and its place in execution. -/
structure Packet where
  /-- ring it came by (R131 03). -/
  ring : Nat
  /-- SEQ (R103 03). -/
  seq : Nat
  /-- OPCODE (R103 03). -/
  op : Nat
  /-- TARGET (R103 03). -/
  target : Nat
  /-- FENCE (R103 03). -/
  fence : Bool
  /-- IRQ (R103 03). -/
  irq : Bool
  /-- TRIG_KIND (R103 03). -/
  trigKind : Nat
  /-- TRIG_SRC (R103 03). -/
  trigSrc : Nat
  /-- TRIG_VALUE (R103 03). -/
  trigValue : Nat
  /-- LATE_OK (R103 03). -/
  lateOk : Bool
  /-- DEST_ADDR (R103 03). -/
  dest : Nat
  /-- INDIRECT (R103 03). -/
  indirect : Bool
  /-- INDIRECT_LEN (R103 03). -/
  indirectLen : Nat
  /-- PAYLOAD_ADDR (R103 03). -/
  payloadAddr : Nat
  /-- payload bytes (R103 03). -/
  payload : List Nat
  /-- where the packet stands (R131 03). -/
  phase : Phase
  /-- executed from the trigger table (R107 03). -/
  triggered : Bool
  /-- trigger had passed and LATE_OK applied (R107 03). -/
  late : Bool
  /-- the header breaks its form (R104 03). -/
  bad : Bool
  /-- last value a REG_POLL read (R127 03). -/
  pollLast : Nat
  /-- maintenance activity the packet waits for (R554 10). -/
  activity : Nat
  deriving DecidableEq, Repr

/-- Packet at reset. -/
def Packet.reset : Packet where
  ring := 0
  seq := 0
  op := 0
  target := 0
  fence := false
  irq := false
  trigKind := 0
  trigSrc := 0
  trigValue := 0
  lateOk := false
  dest := 4095
  indirect := false
  indirectLen := 0
  payloadAddr := 0
  payload := []
  phase := .started
  triggered := false
  late := false
  bad := false
  pollLast := 0
  activity := 0

/-- one completion as written (R107). -/
structure Cpl where
  /-- ring (R107 03). -/
  ring : Nat
  /-- SEQ (R107 03). -/
  seq : Nat
  /-- STATUS (R109 03). -/
  status : Status
  /-- PHASE (R96 03). -/
  phase : Bool
  /-- TRIGGERED (R107 03). -/
  triggered : Bool
  /-- LATE (R107 03). -/
  late : Bool
  /-- AUX (R107 03). -/
  aux : Nat
  /-- RESULT (R107 03). -/
  result : Nat
  deriving DecidableEq, Repr

/-- Cpl at reset. -/
def Cpl.reset : Cpl where
  ring := 0
  seq := 0
  status := .done
  phase := false
  triggered := false
  late := false
  aux := 0
  result := 0

/-- one CPL or RPT datagram sent and not yet acknowledged (R157, R158). -/
structure EthOut where
  /-- TSEQ (R157 03). -/
  tseq : Nat
  /-- an RPT datagram (R148 03). -/
  rpt : Bool
  /-- SEQ of the completion it carries, or the ACCEPT_NUM of the report (R157 03). -/
  item : Nat
  /-- the bytes of the completion or report record it carries (R107 03). -/
  bytes : List Nat
  /-- sends so far (R159 03). -/
  sends : Nat
  /-- present RTO (R158 03). -/
  rtoMs : Nat
  deriving DecidableEq, Repr

/-- EthOut at reset. -/
def EthOut.reset : EthOut where
  tseq := 0
  rpt := false
  item := 0
  bytes := []
  sends := 1
  rtoMs := 2

/-- one Flomund ring (03 R98 to R101, R75, Ethernet transport R150 to R159). -/
structure Ring where
  /-- RING_BASE_LO (R98 03). -/
  baseLo : Nat
  /-- RING_BASE_HI (R98 03). -/
  baseHi : Nat
  /-- LOG2_SLOTS (R99 03). -/
  log2Slots : Nat
  /-- SOURCE (R99 03). -/
  source : Nat
  /-- PRIORITY (R99 03). -/
  priority : Nat
  /-- WEIGHT (R99 03). -/
  weight : Nat
  /-- ENABLE (each ring is disabled after a reset) (R142 03). -/
  enable : Bool
  /-- RING_TAIL (R98 03). -/
  tail : Nat
  /-- RING_HEAD (R98 03). -/
  head : Nat
  /-- CQ_BASE_LO (R98 03). -/
  cqBaseLo : Nat
  /-- CQ_BASE_HI (R98 03). -/
  cqBaseHi : Nat
  /-- CQ_HEAD (R98 03). -/
  cqHead : Nat
  /-- CQ_TAIL (R98 03). -/
  cqTail : Nat
  /-- ACTIVE (R142 03). -/
  active : Bool
  /-- CQ_FULL (R100 03). -/
  cqFull : Bool
  /-- FENCE_WAIT (R100 03). -/
  fenceWait : Bool
  /-- TRIG_FULL (R100 03). -/
  trigFull : Bool
  /-- OVERRUN (R100 03). -/
  overrun : Bool
  /-- CONFIG_ERR (R100 03). -/
  configErr : Bool
  /-- FETCH_ERR (R100 03). -/
  fetchErr : Bool
  /-- PEER_LOST (R100 03). -/
  peerLost : Bool
  /-- SEQ_VALID, cleared by power-on (R100 03). -/
  seqValid : Bool
  /-- VECTOR, default 8 (R101 03). -/
  irqVector : Nat
  /-- COUNT, 0 encodes 256 (R101 03). -/
  irqCount : Nat
  /-- HOLDOFF (R101 03). -/
  holdoff : Nat
  /-- RING_SEQ_TOP (R98 03). -/
  seqTop : Nat
  /-- executed sequence numbers inside the window (SRAM_11, cleared at power-on) (R75 02). -/
  window : List Nat
  /-- completions pending for a message (R102 03). -/
  irqPendingCpl : Nat
  /-- fetched packet that cannot start yet (R95 03). -/
  stalled : Option Packet
  /-- stopped by OVERRUN or FETCH_ERR (R94 R100 03). -/
  stopped : Bool
  /-- ENABLE 0 written, started packets still to complete (R141 03). -/
  disabling : Bool
  /-- CUM of the Ethernet transport; none until the first CMD (R150 R156 03). -/
  cum : Option Nat
  /-- CMD packets received out of order and held (R151 03). -/
  ooo : List Packet
  /-- CMD packets passed to the ring in SEQ order and not yet started (R151 03). -/
  toStart : List Packet
  /-- CMD and BULK datagrams not yet acknowledged (R152 03). -/
  ackCount : Nat
  /-- next TSEQ, from 0 after enable (R157 03). -/
  tseqNext : Nat
  /-- datagrams sent and not acknowledged (R158 03). -/
  unacked : List EthOut
  /-- source address of the most recent CMD (R157 03). -/
  peer : Option Nat
  /-- (SEQ, Cairn index + 1, or 0) of each IMP_SUBMIT executed in the window (R76 02). -/
  windowOf : List (Nat × Nat)
  deriving DecidableEq, Repr

/-- Ring at reset. -/
def Ring.reset : Ring where
  baseLo := 0
  baseHi := 0
  log2Slots := 0
  source := 0
  priority := 0
  weight := 0
  enable := false
  tail := 0
  head := 0
  cqBaseLo := 0
  cqBaseHi := 0
  cqHead := 0
  cqTail := 0
  active := false
  cqFull := false
  fenceWait := false
  trigFull := false
  overrun := false
  configErr := false
  fetchErr := false
  peerLost := false
  seqValid := false
  irqVector := 8
  irqCount := 0
  holdoff := 0
  seqTop := 0
  window := []
  irqPendingCpl := 0
  stalled := none
  stopped := false
  disabling := false
  cum := none
  ooo := []
  toStart := []
  ackCount := 0
  tseqNext := 0
  unacked := []
  peer := none
  windowOf := []

/-- one report record (R62). -/
structure Report where
  /-- IMPRINT_ID (R62 02). -/
  id : Nat
  /-- ACCEPT_NUM (R62 02). -/
  acceptNum : Nat
  /-- CAIRN_INDEX (R62 02). -/
  index : Nat
  /-- ATTEMPT (R62 02). -/
  attempt : Nat
  /-- EVENT (R62 02). -/
  event : Nat
  /-- STREAM (R62 02). -/
  stream : Nat
  /-- MARKED (R62 02). -/
  marked : Bool
  /-- WP_FIRST (R62 02). -/
  wpFirst : Nat
  /-- REASON (R62 02). -/
  reason : Nat
  /-- WP_LAST (R62 02). -/
  wpLast : Nat
  /-- WP_MARK (R62 02). -/
  wpMark : Nat
  /-- DEVICE_ADDR (R62 02). -/
  device : Nat
  deriving DecidableEq, Repr

/-- Report at reset. -/
def Report.reset : Report where
  id := 0
  acceptNum := 0
  index := 0
  attempt := 0
  event := 0
  stream := 0
  marked := false
  wpFirst := 0
  reason := 0
  wpLast := 0
  wpMark := 0
  device := 0

/-- one report queue (R163). -/
structure RptQ where
  /-- RPTQ_BASE_LO (R163 03). -/
  baseLo : Nat
  /-- RPTQ_BASE_HI (R163 03). -/
  baseHi : Nat
  /-- LOG2_ENTRIES (R163 03). -/
  log2 : Nat
  /-- ENABLE (R142 03). -/
  enable : Bool
  /-- ETHERNET (R163 03). -/
  ethernet : Bool
  /-- RPTQ_HEAD (R163 03). -/
  head : Nat
  /-- RPTQ_TAIL (R163 03). -/
  tail : Nat
  /-- records not yet written, oldest first (kept by a warm reset) (R164 R142 03). -/
  held : List Report
  /-- ring on which the stream's last IMP_CONFIG_STREAM arrived (R157 03). -/
  ring : Nat
  deriving DecidableEq, Repr

/-- RptQ at reset. -/
def RptQ.reset : RptQ where
  baseLo := 0
  baseHi := 0
  log2 := 0
  enable := false
  ethernet := false
  head := 0
  tail := 0
  held := []
  ring := 0

/-- one indirect payload arriving in BULK datagrams (R155, R188, R189). -/
structure Bulk where
  /-- RING (R148 03). -/
  ring : Nat
  /-- SEQ of the owning packet (R148 03). -/
  seq : Nat
  /-- received bytes by offset, later data first (R155 03). -/
  cells : List (Nat × Nat)
  /-- a staging slot is in use (R189 04). -/
  slot : Bool
  /-- data was placed straight into the object (R188 04). -/
  direct : Bool
  deriving DecidableEq, Repr

/-- Bulk at reset. -/
def Bulk.reset : Bulk where
  ring := 0
  seq := 0
  cells := []
  slot := false
  direct := false

/-- RING block (03). -/
structure Rings where
  /-- rings 0 to 255 (R98 03). -/
  rings : Tab Ring
  /-- fetched packets that have not completed, in starting order (R131 03). -/
  inflight : List Packet
  /-- report queues (R163 03). -/
  rptq : Tab RptQ
  /-- indirect payloads arriving over Ethernet (R189 04). -/
  bulks : List Bulk
  /-- WINDOW of RING_ETH_CTRL, default 64 (R160 03). -/
  ethWindow : Nat
  /-- JUMBO (R160 03). -/
  jumbo : Bool
  /-- RTO_MS, default 2 (R160 03). -/
  rtoMs : Nat
  /-- MAX_TRIES, default 8 (R160 03). -/
  maxTries : Nat
  /-- UDP_PORT of FLOMUND_ETH (R160 03). -/
  udpPort : Nat
  /-- ring whose weighted turn runs (R134 03). -/
  turnRing : Nat
  /-- packets started in that turn (R134 03). -/
  turnCount : Nat
  /-- broadcast SYS_INFO completions whose CPL is still to be sent (R162 03). -/
  infoReplies : List Cpl
  deriving DecidableEq, Repr

/-- Rings at reset. -/
def Rings.reset : Rings where
  rings := []
  inflight := []
  rptq := []
  bulks := []
  ethWindow := 64
  jumbo := false
  rtoMs := 2
  maxTries := 8
  udpPort := 61709
  turnRing := 0
  turnCount := 0
  infoReplies := []

/-- one raster source of an imprint (R35). -/
structure Source where
  /-- OBJECT (R35 02). -/
  handle : Nat
  /-- PORT_MASK (R35 02). -/
  portMask : Nat
  /-- FORMAT (R35 02). -/
  format : Nat
  deriving DecidableEq, Repr

/-- Source at reset. -/
def Source.reset : Source where
  handle := 0
  portMask := 0
  format := 0

/-- an imprint descriptor (R34). -/
structure Desc where
  /-- IMPRINT_ID (R34 02). -/
  id : Nat
  /-- LENGTH (R34 02). -/
  length : Nat
  /-- STREAM (R34 02). -/
  stream : Nat
  /-- START_MODE (R34 02). -/
  startMode : Nat
  /-- MAX_ATTEMPTS (R34 02). -/
  maxAttempts : Nat
  /-- SPOIL_MARK (R34 02). -/
  spoilMark : Bool
  /-- ALLOW_THRESHOLD (R34 02). -/
  allowThresh : Bool
  /-- ALLOW_LEVEL_REDUCE (R34 02). -/
  allowReduce : Bool
  /-- START_WP (R34 02). -/
  startWp : Nat
  /-- MIN_GAP (R34 02). -/
  minGap : Nat
  /-- SCREEN_MODE (R34 02). -/
  mode : Nat
  /-- SCREEN_SET (R34 02). -/
  set : Nat
  /-- SOURCE entries (R35 02). -/
  sources : List Source
  deriving DecidableEq, Repr

/-- Desc at reset. -/
def Desc.reset : Desc where
  id := 0
  length := 0
  stream := 0
  startMode := 0
  maxAttempts := 0
  spoilMark := false
  allowThresh := false
  allowReduce := false
  startWp := 0
  minGap := 0
  mode := 0
  set := 0
  sources := []

/-- what the look-ahead decode records of one segment of one source (R223). -/
structure SegInfo where
  /-- byte offset of the segment's first block header (R223 05). -/
  offset : Nat
  /-- dots at levels 1 to 7 (dot plane) (R223 05). -/
  counts : List Nat
  /-- sum of all samples (contone) (R223 05). -/
  sum : Nat
  /-- samples of the segment (R515 10). -/
  samples : Nat
  deriving DecidableEq, Repr

/-- SegInfo at reset. -/
def SegInfo.reset : SegInfo where
  offset := 0
  counts := []
  sum := 0
  samples := 0

/-- one Cairn entry (02 R45, R68). -/
structure Entry where
  /-- the descriptor (R34 02). -/
  desc : Desc
  /-- ACCEPT_NUM (R63 02). -/
  acceptNum : Nat
  /-- imprint state; RELEASED = the entry is free (R45 02). -/
  st : ImpSt
  /-- attempt number, first is 0 (R55 02). -/
  attempt : Nat
  /-- the attempt is a reprint (NEXT_AVAILABLE) (R58 02). -/
  reprint : Bool
  /-- reason of the last spoil, 0 = none (R59 02). -/
  cause : Nat
  /-- ring of the IMP_SUBMIT (R76 02). -/
  ring : Nat
  /-- its SEQ (R76 02). -/
  seq : Nat
  /-- look-ahead decode: waiting, running, ok, failed (R223 R257 05). -/
  decode : DecodeSt
  /-- per source, per segment (R223 05). -/
  segs : List (List SegInfo)
  /-- planned first stream line once fixed (R47 02). -/
  firstLine : Option Int
  /-- segment 0 of the attempt is screened into staging (R45 02). -/
  staged : Bool
  /-- threshold fallback chosen for the attempt (R298 06). -/
  degThresh : Bool
  /-- REDUCED maps chosen for the attempt (R298 06). -/
  degReduce : Bool
  /-- shedding stage 4 forces fallback for the attempt (R299 06). -/
  shedFallback : Bool
  /-- drop levels by position of the attempt's screened lines, line 0 first (R289 06). -/
  lines : List (List Nat)
  /-- carry into the attempt's next line, all zero at its first (R306 06). -/
  carry : List Int
  /-- last whole stream line fired (R62 02). -/
  lastFired : Option Int
  /-- a spoil mark was placed for the last spoil (R62 02). -/
  marked : Bool
  /-- held candidate (R521 10). -/
  held : Bool
  /-- takeover table of the attempt (ADD[0..7], BOTH, SHARE_LEFT) (R360 07). -/
  takeover : List Nat
  /-- TB_2 (ns) since which the attempt is held (R520 10). -/
  heldAt : Option Nat
  /-- lines added at commit (R518 10). -/
  spacing : Nat
  /-- attempt u awaits its SPOILED record of R82 (R82 02). -/
  unresolved : Bool
  deriving DecidableEq, Repr

/-- Entry at reset. -/
def Entry.reset : Entry where
  desc := Desc.reset
  acceptNum := 0
  st := .released
  attempt := 0
  reprint := false
  cause := 0
  ring := 0
  seq := 0
  decode := .waiting
  segs := []
  firstLine := none
  staged := false
  degThresh := false
  degReduce := false
  shedFallback := false
  lines := []
  carry := []
  lastFired := none
  marked := false
  held := false
  takeover := []
  heldAt := none
  spacing := 0
  unresolved := false

/-- one checkpoint record (R70). -/
structure CkptRec where
  /-- IMPRINT_ID (R70 02). -/
  id : Nat
  /-- ACCEPT_NUM (R70 02). -/
  acceptNum : Nat
  /-- STREAM (R70 02). -/
  stream : Nat
  /-- EVENT (R70 02). -/
  event : Nat
  /-- ATTEMPT (R70 02). -/
  attempt : Nat
  /-- LAP (R70 02). -/
  lap : Nat
  deriving DecidableEq, Repr

/-- CkptRec at reset. -/
def CkptRec.reset : CkptRec where
  id := 0
  acceptNum := 0
  stream := 0
  event := 0
  attempt := 0
  lap := 0

/-- a checkpoint record waiting to be programmed, and what follows it (R65, R67, R82). -/
structure CkptJob where
  /-- the record (R70 02). -/
  record : CkptRec
  /-- reports written once it is programmed (R65 R67 R84 02). -/
  reports : List Report
  /-- Cairn entry it concerns (R67 02). -/
  index : Option Nat
  deriving DecidableEq, Repr

/-- CkptJob at reset. -/
def CkptJob.reset : CkptJob where
  record := CkptRec.reset
  reports := []
  index := none

/-- one stream's imprint settings and registers (02 R38, R88 to R90). -/
structure ImpStream where
  /-- CONFIGURED (R88 02). -/
  configured : Bool
  /-- POLICY, true = RELAXED (R88 02). -/
  policy : Bool
  /-- MARK_LEVEL (R38 02). -/
  markLevel : Nat
  /-- MARK_COUNT (R38 02). -/
  markCount : Nat
  /-- MARK_FIRST (R38 02). -/
  markFirst : Nat
  /-- MARK_LINES (R38 02). -/
  markLines : Nat
  /-- STOP_DISTANCE (R38 02). -/
  stopDistance : Nat
  /-- HORIZON (R38 02). -/
  horizon : Nat
  /-- SHORT_HORIZON (R88 02). -/
  shortHorizon : Bool
  /-- SPOILS (R88 02). -/
  spoils : Nat
  /-- IMP_NEXT_ACCEPT (R64 R90 02). -/
  nextAccept : Nat
  /-- Cairn indices not yet final, in stream order (R46 R56 02). -/
  queue : List Nat
  /-- (ACCEPT_NUM, index) of imprints whose final report is not written, in ACCEPT_NUM order (R66 02). -/
  awaiting : List (Nat × Nat)
  /-- final reports ready but held by R66, by ACCEPT_NUM (R66 02). -/
  finals : List (Nat × Report)
  /-- SCHED_HOLD (R523 10). -/
  hold : Nat
  /-- SCHED_SPACING (R557 10). -/
  spacing : Nat
  /-- first stream line of the spoil mark being fired (R60 02). -/
  markStart : Option Int
  /-- a spoil mark waits until every port that carries a marker nozzle can fire (R60 02). -/
  markWait : Bool
  /-- Cairn indices whose spoil the mark marks (R62 02). -/
  markReports : List Nat
  /-- Cairn index of the imprint the mark being fired belongs to (R276 05). -/
  markEntry : Nat
  /-- its spoiled attempt (R276 05). -/
  markAttempt : Nat
  /-- planned last line of the last imprint of the stream to be PRINTED (R46 R47 02). -/
  tail : Option Int
  deriving DecidableEq, Repr

/-- ImpStream at reset. -/
def ImpStream.reset : ImpStream where
  configured := false
  policy := false
  markLevel := 0
  markCount := 0
  markFirst := 0
  markLines := 0
  stopDistance := 0
  horizon := 0
  shortHorizon := false
  spoils := 0
  nextAccept := 0
  queue := []
  awaiting := []
  finals := []
  hold := 0
  spacing := 0
  markStart := none
  markWait := false
  markReports := []
  markEntry := 0
  markAttempt := 0
  tail := none

/-- Cairn and the checkpoint ring (02). -/
structure Imp where
  /-- Cairn entries by index (lost at a power cycle, R79) (R68 02). -/
  entries : Tab Entry
  /-- STREAM_0 to STREAM_3 (R88 02). -/
  streams : Tab ImpStream
  /-- SCAN_DONE (R91 R80 02). -/
  scanDone : Bool
  /-- ORDERLY (R91 02). -/
  orderly : Bool
  /-- CKPT_FULL (R91 02). -/
  ckptFull : Bool
  /-- a record failed its program or read-back, checkpointing has stopped (R807 16). -/
  ckptFail : Bool
  /-- programmed records of the checkpoint ring, newest first (in NOR flash, kept through every power-off) (R72 02). -/
  ring : List CkptRec
  /-- records the scan after the last cold reset found, newest first (R80 02). -/
  scanned : List CkptRec
  /-- the ring scan runs (R80 02). -/
  scanning : Bool
  /-- records waiting to be programmed, in order (R65 02). -/
  jobs : List CkptJob
  /-- records programmed into the ring since it was empty (write point) (R72 02). -/
  written : Nat
  /-- sectors erased ahead of the write point, counted from the start (R72 02). -/
  erased : Nat
  /-- erase count by sector (R832 16). -/
  erases : Tab Nat
  /-- identities already accepted since the power cycle (R81 02). -/
  seen : List Nat
  deriving DecidableEq, Repr

/-- Imp at reset. -/
def Imp.reset : Imp where
  entries := []
  streams := []
  scanDone := false
  orderly := false
  ckptFull := false
  ckptFail := false
  ring := []
  scanned := []
  scanning := false
  jobs := []
  written := 0
  erased := 0
  erases := []
  seen := []

/-- one ingest object index (04 R173 to R182). -/
structure Obj where
  /-- the index names an open object (R174 04). -/
  isOpen : Bool
  /-- GEN, 0 at power-on (R174 04). -/
  gen : Nat
  /-- the index has been issued since power-on (R174 04). -/
  used : Bool
  /-- CAPACITY (R175 04). -/
  cap : Nat
  /-- KIND (R175 04). -/
  kind : Nat
  /-- bytes below the fill level; the fill level is its length (R176 04). -/
  data : List Nat
  /-- the object is complete (R178 04). -/
  complete : Bool
  /-- an append or a DMA transfer is writing it (R180 04). -/
  writing : Bool
  /-- DMA transfers reading it (R180 04). -/
  readers : Nat
  deriving DecidableEq, Repr

/-- Obj at reset. -/
def Obj.reset : Obj where
  isOpen := false
  gen := 0
  used := false
  cap := 0
  kind := 0
  data := []
  complete := false
  writing := false
  readers := 0

/-- one DMA channel (04 R218 to R220). -/
structure Dma where
  /-- DMA_SHADOW_0..11 (R218 04). -/
  shadow : Tab Nat
  /-- DMA_ACTIVE_0..11 (R218 04). -/
  act : Tab Nat
  /-- OWNER, true = commands (R219 04). -/
  owner : Bool
  /-- STATE (R220 04). -/
  st : DmaSt
  /-- SHADOW_ARMED (R220 04). -/
  armed : Bool
  /-- LAST_RESULT (R220 04). -/
  lastResult : Nat
  /-- SHADOW_DROPPED (R220 04). -/
  shadowDropped : Bool
  /-- WRITE_IGNORED (R220 04). -/
  writeIgnored : Bool
  /-- DMA_RESIDUE (R218 04). -/
  residue : Nat
  /-- DMA_ERR_ADDR (R218 04). -/
  errAddr : Nat
  /-- DIR (R218 04). -/
  errDir : Bool
  /-- SPACE (R218 04). -/
  errSpace : Nat
  /-- KIND (R218 04). -/
  errKind : Nat
  /-- DMA_CMP_OFFSET (R218 04). -/
  cmpOffset : Nat
  /-- STAGE_DMA_START of the active transfer (R208 04). -/
  actRef : Option PktRef
  /-- STAGE_DMA_START of the armed shadow set (R206 04). -/
  shadowRef : Option PktRef
  deriving DecidableEq, Repr

/-- Dma at reset. -/
def Dma.reset : Dma where
  shadow := []
  act := []
  owner := false
  st := .idle
  armed := false
  lastResult := 0
  shadowDropped := false
  writeIgnored := false
  residue := 0
  errAddr := 0
  errDir := false
  errSpace := 0
  errKind := 0
  cmpOffset := 0
  actRef := none
  shadowRef := none

/-- ingest objects, staging and DMA (04). -/
structure Ingest where
  /-- objects by INDEX 1..65535 (R174 04). -/
  objs : Tab Obj
  /-- INDEX issued last (search starts at 1) (R174 04). -/
  lastIndex : Nat
  /-- channels 0 to 31 (R218 04). -/
  chans : Tab Dma
  /-- DMA_DONE (R221 04). -/
  dmaDone : Nat
  /-- STAGE_DROPS (R221 04). -/
  stageDrops : Nat
  deriving DecidableEq, Repr

/-- Ingest at reset. -/
def Ingest.reset : Ingest where
  objs := []
  lastIndex := 0
  chans := []
  dmaDone := 0
  stageDrops := 0

/-- an open fired-dot capture block of a port (05 R275, R276). -/
structure CapBlock where
  /-- Cairn entry whose lines it holds (R276 05). -/
  index : Nat
  /-- IMPRINT_ID (R276 05). -/
  id : Nat
  /-- ACCEPT_NUM (R276 05). -/
  acceptNum : Nat
  /-- ATTEMPT (R276 05). -/
  attempt : Nat
  /-- SEGMENT (R276 05). -/
  segment : Nat
  /-- LINE_OFFSET (R276 05). -/
  lineOffset : Nat
  /-- MARK (R276 05). -/
  mark : Bool
  /-- WP_FIRST (R276 05). -/
  wpFirst : Nat
  /-- captured lines of the record so far, oldest first (R273 05). -/
  lines : List (List Nat)
  deriving DecidableEq, Repr

/-- CapBlock at reset. -/
def CapBlock.reset : CapBlock where
  index := 0
  id := 0
  acceptNum := 0
  attempt := 0
  segment := 0
  lineOffset := 0
  mark := false
  wpFirst := 0
  lines := []

/-- one capture record in the capture store (R276). -/
structure CapRec where
  /-- stream (R277 05). -/
  stream : Nat
  /-- PORT (R276 05). -/
  port : Nat
  /-- its identity fields and captured lines (R276 05). -/
  block : CapBlock
  /-- PARTIAL (R276 05). -/
  isPartial : Bool
  /-- FLUSHED (R276 05). -/
  flushed : Bool
  /-- RECORD_BYTES (R276 05). -/
  bytes : Nat
  /-- held uncompressed while shedding stage 2 defers compression (R279 05). -/
  raw : Bool
  deriving DecidableEq, Repr

/-- CapRec at reset. -/
def CapRec.reset : CapRec where
  stream := 0
  port := 0
  block := CapBlock.reset
  isPartial := false
  flushed := false
  bytes := 0
  raw := false

/-- one capture queue (R285). -/
structure CapQ where
  /-- CAPQ_BASE_LO (R285 05). -/
  baseLo : Nat
  /-- CAPQ_BASE_HI (R285 05). -/
  baseHi : Nat
  /-- LOG2_BYTES (R285 05). -/
  log2 : Nat
  /-- ENABLE (R142 03). -/
  enable : Bool
  /-- CAPQ_HEAD (R285 05). -/
  head : Nat
  /-- CAPQ_TAIL (R285 05). -/
  tail : Nat
  /-- CAPQ_LOST (R285 05). -/
  lost : Nat
  /-- ports captured now (R266 05). -/
  ports : Nat
  /-- port set that takes effect at the next line boundary (R270 05). -/
  newPorts : Option Nat
  /-- STAGE_CAPTURE with FLUSH that waits (R271 05). -/
  flush : Option PktRef
  /-- flush at the next line boundary (R266 05). -/
  flushDue : Bool
  deriving DecidableEq, Repr

/-- CapQ at reset. -/
def CapQ.reset : CapQ where
  baseLo := 0
  baseHi := 0
  log2 := 0
  enable := false
  head := 0
  tail := 0
  lost := 0
  ports := 0
  newPorts := none
  flush := none
  flushDue := false

/-- CODEC block and capture (05 R283, R284). -/
structure Codec where
  /-- VALID (R284 05). -/
  errValid : Bool
  /-- OVERFLOW (R284 05). -/
  errOverflow : Bool
  /-- CAUSE (R284 05). -/
  errCause : Nat
  /-- STREAM (R284 05). -/
  errStream : Nat
  /-- SOURCE (R284 05). -/
  errSource : Nat
  /-- SEGMENT (R284 05). -/
  errSegment : Nat
  /-- CODEC_ERR_BLOCK (R283 05). -/
  errBlock : Nat
  /-- CODEC_ERR_ID (R283 05). -/
  errId : Nat
  /-- CODEC_ERR_HANDLE (R283 05). -/
  errHandle : Nat
  /-- CODEC_ERR_OFFSET (R283 05). -/
  errOffset : Nat
  /-- CODEC_STAGE_ERRS (R283 05). -/
  stageErrs : Nat
  /-- capture queues (R285 05). -/
  capq : Tab CapQ
  /-- open capture block by port (R275 05). -/
  capBlocks : Tab CapBlock
  /-- ports with an open capture block (R275 05). -/
  capOpen : Nat
  /-- the capture store, oldest first (R277 05). -/
  store : List CapRec
  deriving DecidableEq, Repr

/-- Codec at reset. -/
def Codec.reset : Codec where
  errValid := false
  errOverflow := false
  errCause := 0
  errStream := 0
  errSource := 0
  errSegment := 0
  errBlock := 0
  errId := 0
  errHandle := 0
  errOffset := 0
  stageErrs := 0
  capq := []
  capBlocks := []
  capOpen := 0
  store := []

/-- one density entry (R295). -/
structure Density where
  /-- G, 1,024 after a power cycle (R294 06). -/
  gain : Nat
  /-- O, 0 after a power cycle (R294 06). -/
  offset : Int
  deriving DecidableEq, Repr

/-- Density at reset. -/
def Density.reset : Density where
  gain := 1024
  offset := 0

/-- one stream of the screening engine (06). -/
structure ScrStream where
  /-- active tone curve; none = the default T[s] = 16 s + (s >> 4) (R291 06). -/
  tone : Option (List Nat)
  /-- pending tone curve (R320 06). -/
  tonePend : Option (List Nat)
  /-- active density table (R294 06). -/
  density : Tab Density
  /-- pending density table (R322 06). -/
  densityPend : Option (Tab Density)
  /-- PHASE_CROSS as written (R335 06). -/
  phaseCross : Nat
  /-- PHASE_WEB as written (R335 06). -/
  phaseWeb : Nat
  /-- PHASE_CROSS in force (R302 06). -/
  curCross : Nat
  /-- PHASE_WEB in force (R302 06). -/
  curWeb : Nat
  /-- SCR_DEGRADED (R335 06). -/
  degraded : Nat
  /-- SCR_SATURATIONS (R335 06). -/
  saturations : Nat
  /-- SCR_CAPACITY, diffusion (R335 06). -/
  capDiff : Nat
  /-- SCR_CAPACITY, threshold (R335 06). -/
  capThresh : Nat
  /-- Cairn index of the attempt being screened (R288 06). -/
  cur : Option Nat
  /-- nozzle status map the attempt uses (R324 07). -/
  curStatus : Tab Nat
  /-- shift the attempt uses for screening (R362 07). -/
  curShift : Int
  deriving DecidableEq, Repr

/-- ScrStream at reset. -/
def ScrStream.reset : ScrStream where
  tone := none
  tonePend := none
  density := []
  densityPend := none
  phaseCross := 0
  phaseWeb := 0
  curCross := 0
  curWeb := 0
  degraded := 0
  saturations := 0
  capDiff := 0
  capThresh := 0
  cur := none
  curStatus := []
  curShift := 0

/-- a port's drop-level maps (R317, R319). -/
structure DropMap where
  /-- active NORMAL map (R319 06). -/
  normal : List Nat
  /-- active REDUCED map (R319 06). -/
  reduced : List Nat
  /-- pending maps (R320 06). -/
  pend : Option (List Nat × List Nat)
  /-- MAP_CLAMPED (R335 06). -/
  clamped : Bool
  deriving DecidableEq, Repr

/-- DropMap at reset. -/
def DropMap.reset : DropMap where
  normal := [0,1,2,3,4,5,6,7]
  reduced := [0,1,2,3,4,5,6,7]
  pend := none
  clamped := false

/-- one threshold set (R301). -/
structure Thresh where
  /-- WIDTH, 0 = not loaded (R326 06). -/
  width : Nat
  /-- HEIGHT (R335 06). -/
  height : Nat
  /-- thresholds t1..t7 of each cell, row by row (R301 06). -/
  cells : List (List Nat)
  deriving DecidableEq, Repr

/-- Thresh at reset. -/
def Thresh.reset : Thresh where
  width := 0
  height := 0
  cells := []

/-- one diffusion set (R305). -/
structure Diff where
  /-- LOADED (R326 06). -/
  loaded : Bool
  /-- W_E, W_E2, W_SW, W_S, W_SE (R305 06). -/
  kernel : List Nat
  /-- dead kernel (R305 06). -/
  dead : List Nat
  /-- MAX_LEVEL (R335 06). -/
  maxLevel : Nat
  /-- FALLBACK_SET (R335 06). -/
  fallback : Nat
  /-- LEVEL_VALUE[0..7] (R305 06). -/
  values : List Nat
  deriving DecidableEq, Repr

/-- Diff at reset. -/
def Diff.reset : Diff where
  loaded := false
  kernel := []
  dead := []
  maxLevel := 0
  fallback := 0
  values := []

/-- SCR block (06). -/
structure Scr where
  /-- SCR_LANE_MAP, 4 (none) for every group (R336 06). -/
  laneMap : Nat
  /-- LANE_MAP_REFUSED (R335 06). -/
  laneMapRefused : Bool
  /-- streams (R335 06). -/
  streams : Tab ScrStream
  /-- drop-level maps by port (R335 06). -/
  dropMaps : Tab DropMap
  /-- threshold sets (R335 06). -/
  thresh : Tab Thresh
  /-- diffusion sets (R335 06). -/
  diff : Tab Diff
  deriving DecidableEq, Repr

/-- Scr at reset. -/
def Scr.reset : Scr where
  laneMap := 0x924924
  laneMapRefused := false
  streams := []
  dropMaps := []
  thresh := []
  diff := []

/-- one port of a stream configuration (R344). -/
structure PortEntry where
  /-- PORT (R344 07). -/
  port : Nat
  /-- NOZZLES (R344 07). -/
  nozzles : Nat
  /-- COL (R344 07). -/
  col : Nat
  deriving DecidableEq, Repr

/-- PortEntry at reset. -/
def PortEntry.reset : PortEntry where
  port := 0
  nozzles := 0
  col := 0

/-- one scheduled change (07 R376 to R384, 08 R422, 09 R492). -/
structure Change where
  /-- opcode that scheduled it (R384 07). -/
  op : Nat
  /-- its target (R384 07). -/
  target : Nat
  /-- stream line U; none while a NEXT_GAP boundary is not known (R376 07). -/
  boundary : Option Int
  /-- first line a NEXT_GAP boundary may take (R382 07). -/
  earliest : Int
  /-- the command's payload, applied at the boundary (R376 07). -/
  payload : List Nat
  /-- decoded entries (nozzle placements) (R375 07). -/
  table : List Nat
  deriving DecidableEq, Repr

/-- Change at reset. -/
def Change.reset : Change where
  op := 0
  target := 0
  boundary := none
  earliest := 0
  payload := []
  table := []

/-- one stream of the nozzle stages (07 R387, R388). -/
structure NozStream where
  /-- CONFIGURED (a power cycle leaves every stream unconfigured) (R348 07). -/
  configured : Bool
  /-- port list in stream order (R339 07). -/
  ports : List PortEntry
  /-- MAX_RATE (R343 07). -/
  maxRate : Nat
  /-- active status map by stream nozzle index, all GOOD (R346 07). -/
  status : Tab Nat
  /-- pending map (R355 07). -/
  statusPend : Option (Tab Nat)
  /-- map in force for screening (a swap takes effect there first) (R357 07). -/
  statusNext : Tab Nat
  /-- shift in force for firing (R346 07). -/
  shift : Int
  /-- shift in force for screening (R362 07). -/
  shiftScreen : Int
  /-- blend weights, zone 0 first; none = the defaults of R364 (R364 07). -/
  weights : Option (List Nat)
  /-- ADD[0..7], BOTH, SHARE_LEFT (R360 07). -/
  takeover : List Nat
  /-- NOZ_REG_SKIPPED (R387 07). -/
  skipped : Nat
  /-- NOZ_REG_BLANKED (R387 07). -/
  blanked : Nat
  /-- NOZ_LAST_APPLY (R387 07). -/
  lastApply : Nat
  /-- scheduled changes not yet in effect (R348 07). -/
  changes : List Change
  /-- reserved line spans of fixed NEXT_GAP boundaries (first, count) (R888 07). -/
  reserved : List (Int × Int)
  /-- (U, old shift, old weights) of applied changes, for image lines below U (R379 07). -/
  oldShift : List (Int × Int × List Nat)
  /-- (U, old map) of applied swaps, for image lines below U (R379 07). -/
  oldStatus : List (Int × Tab Nat)
  deriving DecidableEq, Repr

/-- NozStream at reset. -/
def NozStream.reset : NozStream where
  configured := false
  ports := []
  maxRate := 0
  status := []
  statusPend := none
  statusNext := []
  shift := 0
  shiftScreen := 0
  weights := none
  takeover := [0,1,2,3,4,5,6,7,0,128]
  skipped := 0
  blanked := 0
  lastApply := 0
  changes := []
  reserved := []
  oldShift := []
  oldStatus := []

/-- one port of the nozzle stages (07 R389). -/
structure NozPort where
  /-- placement Y in force (R346 07). -/
  y : Nat
  /-- nozzle placements Z in force (R346 07). -/
  z : Tab Nat
  /-- (U, old Y, old Z) of applied changes, for image lines below U (R380 07). -/
  oldPlace : List (Int × Nat × Tab Nat)
  deriving DecidableEq, Repr

/-- NozPort at reset. -/
def NozPort.reset : NozPort where
  y := 0
  z := []
  oldPlace := []

/-- NOZ block (07). -/
structure Noz where
  /-- SHORT_EXTRA (R386 07). -/
  shortExtra : Bool
  /-- streams (R387 07). -/
  streams : Tab NozStream
  /-- ports (R389 07). -/
  ports : Tab NozPort
  deriving DecidableEq, Repr

/-- Noz at reset. -/
def Noz.reset : Noz where
  shortExtra := false
  streams := []
  ports := []

/-- one encoder input (08 R391 to R408, R439, R440). -/
structure Enc where
  /-- ROLE, both encoders OFF after a power cycle (R442 08). -/
  role : Nat
  /-- INVERT (R439 08). -/
  invert : Bool
  /-- FILTER_NS (R439 08). -/
  filterNs : Nat
  /-- INDEX_TOL (R439 08). -/
  indexTol : Nat
  /-- COUNTS_PER_INDEX (R397 08). -/
  perIndex : Nat
  /-- RATIO, 2^32 after a power cycle (R442 08). -/
  ratio : Nat
  /-- net count, 0 after power-on and cold reset (R406 08). -/
  count : Int
  /-- qualified level of A (R391 08). -/
  a : Bool
  /-- qualified level of B (R391 08). -/
  b : Bool
  /-- SIGNAL_OK (R440 08). -/
  signalOk : Bool
  /-- LOS (R440 08). -/
  los : Bool
  /-- ILLEGAL (R440 08). -/
  illegal : Bool
  /-- RATE_ERR (R440 08). -/
  rateErr : Bool
  /-- INDEX_ERR (R440 08). -/
  indexErr : Bool
  /-- MISMATCH (R440 08). -/
  mismatch : Bool
  /-- ENC_INDEX_SPAN (R439 08). -/
  indexSpan : Int
  /-- net count at the previous Z edge (R396 08). -/
  lastIndex : Option Int
  /-- TB_2 (2^-16 ns) of the previous qualified transition (R393 08). -/
  lastTrans : Option Nat
  /-- ENC_EDGE_TIME, ns of TB_2 (R439 08). -/
  edgeNs : Nat
  /-- ENC_ILLEGAL_COUNT (R439 08). -/
  illegalCount : Nat
  /-- M, the highest net count since its base (R406 08). -/
  m : Int
  /-- deficit, saturating (R406 08). -/
  deficit : Nat
  /-- WP_BASE in 2^-16 sub-dots, not reduced (R405 08). -/
  wpBase : Int
  /-- M_BASE (R405 08). -/
  mBase : Int
  /-- the bases are reset at the next count (R405 08). -/
  rebase : Bool
  /-- WP of the latest edge that raised M, 2^-16 sub-dots, not reduced (R413 R406 08). -/
  xE : Int
  /-- time-stamp of that edge, 2^-16 ns of TB_2 (R413 08). -/
  tE : Nat
  /-- that edge has not yet updated the loop (R413 08). -/
  edgeNew : Bool
  /-- position estimate (R413 08). -/
  p : Int
  /-- speed estimate in 2^-24 sub-dots per ns (FIRE_VELOCITY) (R413 R437 08). -/
  v : Nat
  /-- time of the edge of the previous update, 2^-16 ns (R413 08). -/
  tPrev : Nat
  /-- no count has raised M since STILL_US (at power-on no count has) (R415 08). -/
  still : Bool
  deriving DecidableEq, Repr

/-- Enc at reset. -/
def Enc.reset : Enc where
  role := 0
  invert := false
  filterNs := 0
  indexTol := 0
  perIndex := 0
  ratio := 0x100000000
  count := 0
  a := false
  b := false
  signalOk := false
  los := false
  illegal := false
  rateErr := false
  indexErr := false
  mismatch := false
  indexSpan := 0
  lastIndex := none
  lastTrans := none
  edgeNs := 0
  illegalCount := 0
  m := 0
  deficit := 0
  wpBase := 0
  mBase := 0
  rebase := false
  xE := 0
  tE := 0
  edgeNew := false
  p := 0
  v := 0
  tPrev := 0
  still := true

/-- a stream line armed under R428. -/
structure ArmedLine where
  /-- stream line (R428 08). -/
  line : Int
  /-- (port, emission time in 2^-16 ns) of FSYNC edges still to emit (R429 08). -/
  times : List (Nat × Nat)
  deriving DecidableEq, Repr

/-- ArmedLine at reset. -/
def ArmedLine.reset : ArmedLine where
  line := 0
  times := []

/-- one stream of fire timing (08 R422, R441). -/
structure FireStream where
  /-- D in force, 0 after a power cycle (R442 08). -/
  datum : Int
  /-- LEAD_NS in force, 0 after a power cycle (R442 08). -/
  lead : Nat
  /-- stream line of the next boundary, not reduced (R420 R441 08). -/
  nextLine : Int
  /-- RATE_HIGH (R441 08). -/
  rateHigh : Bool
  /-- lines armed and not fired on every port, oldest first (R428 R441 08). -/
  armed : List ArmedLine
  /-- first stream line not yet armed or passed over (R428 08). -/
  nextArm : Int
  /-- FIRE_DATUM_SKIPPED (R441 08). -/
  skipped : Nat
  /-- first stream line of a datum change in force; lines below U of the old datum are done (R424 08). -/
  blank : Int
  deriving DecidableEq, Repr

/-- FireStream at reset. -/
def FireStream.reset : FireStream where
  datum := 0
  lead := 0
  nextLine := 0
  rateHigh := false
  armed := []
  nextArm := 0
  skipped := 0
  blank := 0

/-- one port of fire timing (08 R442). -/
structure FirePort where
  /-- FSYNC_TIME (R442 08). -/
  fsyncNs : Nat
  /-- FSYNC_COUNT (R442 08). -/
  fsyncCount : Nat
  /-- FSYNC_HBLAT (R442 08). -/
  hblat : Nat
  deriving DecidableEq, Repr

/-- FirePort at reset. -/
def FirePort.reset : FirePort where
  fsyncNs := 0
  fsyncCount := 0
  hblat := 0

/-- FIRE block (08). -/
structure Fire where
  /-- ENC_0 and ENC_1 (R439 08). -/
  encs : Tab Enc
  /-- SOURCE (R438 08). -/
  src : Nat
  /-- LOST under R399 (both encoders are OFF after a power cycle) (R399 08). -/
  lostNoPrimary : Bool
  /-- LOST under R402 (R402 08). -/
  lostSource : Bool
  /-- LOST under R411 (R411 08). -/
  lostSat : Bool
  /-- REVERSED (R438 08). -/
  reversed : Bool
  /-- FAILED_OVER (R438 08). -/
  failedOver : Bool
  /-- BELOW_MIN, 1 after reset (R438 08). -/
  belowMin : Bool
  /-- FIRE_REVERSALS (R437 08). -/
  reversals : Nat
  /-- consecutive comparisons that disagreed (R400 08). -/
  mismatchRun : Nat
  /-- S in 2^-16 sub-dots, not reduced; WP is its integer part modulo 2^48 (R414 R406 08). -/
  s : Int
  /-- WP of the last count that raised M of any source, 2^-16 sub-dots (R405 08). -/
  lastWp : Int
  /-- BW_HZ (R418 08). -/
  bwHz : Nat
  /-- ZETA (R418 08). -/
  zeta : Nat
  /-- LPI (R418 08). -/
  lpi : Nat
  /-- REV_TOL (R418 08). -/
  revTol : Nat
  /-- STILL_US (R418 08). -/
  stillUs : Nat
  /-- MIN_RATE (R418 08). -/
  minRate : Nat
  /-- RESUME_RATE (R418 08). -/
  resumeRate : Nat
  /-- streams (R441 08). -/
  streams : Tab FireStream
  /-- ports (R442 08). -/
  ports : Tab FirePort
  /-- FIRE_REINIT packets that wait for the first edge or standstill (R412 08). -/
  reinits : List PktRef
  deriving DecidableEq, Repr

/-- Fire at reset. -/
def Fire.reset : Fire where
  encs := []
  src := 0
  lostNoPrimary := true
  lostSource := false
  lostSat := false
  reversed := false
  failedOver := false
  belowMin := true
  reversals := 0
  mismatchRun := 0
  s := 0
  lastWp := 0
  bwHz := 200
  zeta := 181
  lpi := 1200
  revTol := 4
  stillUs := 100000
  minRate := 2363
  resumeRate := 2510
  streams := []
  ports := []
  reinits := []

/-- a TX frame kept until acknowledged (09 R463). -/
structure TxFrame where
  /-- TSEQ (R463 09). -/
  tseq : Nat
  /-- TYPE (R451 09). -/
  type : Nat
  /-- stream line of a LINE frame (R453 09). -/
  line : Int
  /-- bank, slot or OP of an OFFS, WAVE or CTRL frame (R455 R456 R457 09). -/
  key : Nat
  /-- sends so far (R464 09). -/
  sent : Nat
  /-- its fields as numbers (R451 09). -/
  fields : List Nat
  deriving DecidableEq, Repr

/-- TxFrame at reset. -/
def TxFrame.reset : TxFrame where
  tseq := 0
  type := 0
  line := 0
  key := 0
  sent := 0
  fields := []

/-- one waveform slot of a port (09 R489). -/
structure Wave where
  /-- no slot is loaded after a power cycle (R485 09). -/
  loaded : Bool
  /-- samples loaded (R489 09). -/
  count : Nat
  /-- samples as 16-bit words (R489 09). -/
  samples : List Nat
  deriving DecidableEq, Repr

/-- Wave at reset. -/
def Wave.reset : Wave where
  loaded := false
  count := 0
  samples := []

/-- a line sent to a port and what was sent with it (09 R461, R471). -/
structure LineTx where
  /-- stream line (R461 09). -/
  line : Int
  /-- levels sent (R453 09). -/
  levels : List Nat
  /-- its frame is acknowledged (R467 09). -/
  acked : Bool
  /-- ARM sent (R467 09). -/
  armed : Bool
  /-- its FSYNC has been emitted or its time has passed without firing (R461 09). -/
  fsync : Bool
  /-- TSEQ of its latest frame (R463 09). -/
  tseq : Nat
  deriving DecidableEq, Repr

/-- LineTx at reset. -/
def LineTx.reset : LineTx where
  line := 0
  levels := []
  acked := false
  armed := false
  fsync := false
  tseq := 0

/-- one head port (09). -/
structure HlPort where
  /-- AUTH_REQ (R505 09). -/
  authReq : Bool
  /-- HV_FF (R505 09). -/
  hvFf : Bool
  /-- AUTO_RETRAIN (R505 09). -/
  autoRetrain : Bool
  /-- SEND_AHEAD (R505 09). -/
  sendAhead : Nat
  /-- HRST_MS (R505 09). -/
  hrstMs : Nat
  /-- STATE; a power cycle leaves every port DOWN (R485 09). -/
  st : HlSt
  /-- HP_p_HRST_n asserted by the device (R443 09). -/
  hrst : Bool
  /-- HV_RANGE (R507 09). -/
  hvRange : Bool
  /-- HALERT (R507 09). -/
  halert : Bool
  /-- ALERT_SEEN (R507 09). -/
  alertSeen : Bool
  /-- DOWN_SEEN (R507 09). -/
  downSeen : Bool
  /-- ALERT of the last LSTAT (R507 09). -/
  alert : Nat
  /-- FAIL_CAUSE (R507 09). -/
  failCause : Nat
  /-- declared NOZZLES (R505 09). -/
  nozzles : Nat
  /-- declared LEVELS (R505 09). -/
  levels : Nat
  /-- declared WAVES (R505 09). -/
  waves : Nat
  /-- declared BUF_LINES (R505 09). -/
  bufLines : Nat
  /-- declared WAVE_SAMPLES (R505 09). -/
  waveSamples : Nat
  /-- declared HV_REF (R505 09). -/
  hvRef : Nat
  /-- declared MAX_RATE (R505 09). -/
  maxRate : Nat
  /-- UID (R505 09). -/
  uid : Nat
  /-- MODEL (R505 09). -/
  model : Nat
  /-- declared HBLAT (R460 09). -/
  hblat : Nat
  /-- TEMP of the last LSTAT, 1/16 °C (R505 09). -/
  temp : Int
  /-- HV of the last LSTAT (R505 09). -/
  hv : Nat
  /-- (TB_2 ns, HV) of the intact LSTATs of the last 64 µs, newest first (R493 09). -/
  hvWin : List (Nat × Nat)
  /-- SCALE in use (R505 09). -/
  scale : Nat
  /-- mean HV H of R493 (R505 09). -/
  hMean : Nat
  /-- KEY_VER of the head (R505 09). -/
  keyVer : Nat
  /-- AUTHENTICATED (R505 09). -/
  authed : Bool
  /-- waveform slots (R489 09). -/
  slots : Tab Wave
  /-- slot in force (R505 09). -/
  slot : Nat
  /-- HL_REPLAYS (R505 09). -/
  replays : Nat
  /-- HL_CRC_ERRS (R505 09). -/
  crcErrs : Nat
  /-- HL_LINES_LOST (R505 09). -/
  linesLost : Nat
  /-- HL_RETRAINS (R505 09). -/
  retrains : Nat
  /-- HL_DROPS (R505 09). -/
  drops : Nat
  /-- drops not yet written as INCREMENT units (R499 09). -/
  dropsPend : Nat
  /-- HL_COUNTER (R505 09). -/
  counter : Nat
  /-- next TSEQ (R463 09). -/
  tseq : Nat
  /-- frames not acknowledged, oldest first (R463 09). -/
  unacked : List TxFrame
  /-- lines sent and not yet fired or discarded, oldest first (R461 09). -/
  sentLines : List LineTx
  /-- next stream line to send (R461 09). -/
  nextSend : Int
  /-- FIRED_COUNT of the last LSTAT (R470 09). -/
  firedCount : Nat
  /-- armed lines the port has still to report fired, oldest first (R470 09). -/
  confirm : List Int
  /-- VOID sets sent, modulo 256 (R472 09). -/
  voidSent : Nat
  /-- VOID_COUNT of the last LSTAT (R472 09). -/
  voidSeen : Nat
  /-- offset bank in use (R486 09). -/
  bank : Nat
  /-- Z values written into each bank (R486 09). -/
  banks : Tab (Tab Nat)
  /-- boundary U of a running changeover (R487 09). -/
  changeover : Option Int
  /-- intact TS1 received (R479 09). -/
  ts1 : Nat
  /-- TS2 received (R479 09). -/
  ts2 : Nat
  /-- exchange: 0 sending TS1, 1 sending TS2, 2 IDLE sent and DECLARE awaited (R479 09). -/
  phase : Nat
  /-- HEAD_TRAIN or HEAD_REINIT of the training (R481 R502 09). -/
  trainRef : Option PktRef
  /-- HEAD_RESET in progress (R501 09). -/
  resetRef : Option PktRef
  /-- HEAD_AUTH or HEAD_READ_COUNTER in progress (R498 R500 09). -/
  authRef : Option PktRef
  /-- HEAD_LOAD_WAVE in progress (R491 09). -/
  waveRef : Option PktRef
  /-- its slot (R491 09). -/
  waveSlot : Nat
  /-- the present training asserted reset (R478 09). -/
  trainReset : Bool
  /-- retraining under R483 or R485: 0 none, 1 first attempt, 2 attempt with reset, 3 waits (R483 09). -/
  retry : Nat
  /-- the port was UP when the warm reset began (R485 09). -/
  wasUp : Bool
  /-- I2C transaction in progress (R497 09). -/
  i2c : I2cStep
  /-- challenge written (R497 09). -/
  challenge : Nat
  /-- RESPONSE read (R497 09). -/
  resp : Nat
  /-- UID read from INFO (R495 09). -/
  infoUid : Nat
  /-- MODEL read from INFO (R495 09). -/
  infoModel : Nat
  /-- CTRL frames still to be answered in LOADING: slots to commit, then 255 for TRAINED (R479 09). -/
  loadQ : List Nat
  deriving DecidableEq, Repr

/-- HlPort at reset. -/
def HlPort.reset : HlPort where
  authReq := false
  hvFf := true
  autoRetrain := true
  sendAhead := 12
  hrstMs := 20
  st := .down
  hrst := false
  hvRange := false
  halert := false
  alertSeen := false
  downSeen := false
  alert := 0
  failCause := 0
  nozzles := 0
  levels := 0
  waves := 0
  bufLines := 0
  waveSamples := 0
  hvRef := 0
  maxRate := 0
  uid := 0
  model := 0
  hblat := 0
  temp := 0
  hv := 0
  hvWin := []
  scale := 32768
  hMean := 0
  keyVer := 0
  authed := false
  slots := []
  slot := 0
  replays := 0
  crcErrs := 0
  linesLost := 0
  retrains := 0
  drops := 0
  dropsPend := 0
  counter := 0
  tseq := 0
  unacked := []
  sentLines := []
  nextSend := 0
  firedCount := 0
  confirm := []
  voidSent := 0
  voidSeen := 0
  bank := 0
  banks := []
  changeover := none
  ts1 := 0
  ts2 := 0
  phase := 0
  trainRef := none
  resetRef := none
  authRef := none
  waveRef := none
  waveSlot := 0
  trainReset := false
  retry := 0
  wasUp := false
  i2c := .idle
  challenge := 0
  resp := 0
  infoUid := 0
  infoModel := 0
  loadQ := []

/-- HLINK block (09). -/
structure Hl where
  /-- head ports (R505 09). -/
  ports : Tab HlPort
  /-- root keys by fuse slot (R498 09). -/
  fuses : Tab Nat
  /-- CTRL BLANK is due once the last armed line has fired (R474 09). -/
  blankDue : Bool
  /-- fuse slots programmed (R505 09). -/
  fuseDone : Nat
  deriving DecidableEq, Repr

/-- Hl at reset. -/
def Hl.reset : Hl where
  ports := []
  fuses := []
  blankDue := false
  fuseDone := 0

/-- a port's external model (10 R525, R526). -/
structure PortModel where
  /-- IDLE_MW (R526 10). -/
  idleMw : Nat
  /-- HEATER_LOOP, none (R526 10). -/
  heaterLoop : Nat
  /-- PUMP_LOOP, none (R526 10). -/
  pumpLoop : Nat
  /-- E_DROP[1..7], nJ (R526 10). -/
  eDrop : List Nat
  /-- VOL[1..7], pL (R526 10). -/
  vol : List Nat
  /-- R_TH (R526 10). -/
  rTh : Nat
  /-- TAU_MS (R525 10). -/
  tauMs : Nat
  /-- WARN, 60 °C (R526 10). -/
  warnT : Int
  /-- CRIT, 65 °C (R526 10). -/
  critT : Int
  /-- RESUME, 55 °C (R526 10). -/
  resumeT : Int
  /-- WARN of HEAT_STATUS (R557 10). -/
  warn : Bool
  /-- CRIT (R557 10). -/
  crit : Bool
  /-- BACKOFF (R557 10). -/
  backoff : Bool
  /-- predicted peak temperature (R557 10). -/
  peak : Int
  /-- predicted present temperature, 1/16 °C (R531 10). -/
  pred : Int
  /-- BIAS, 1/16 °C (R557 10). -/
  bias : Nat
  /-- time the measurement has exceeded the prediction by 2 °C (R531 10). -/
  overMs : Nat
  deriving DecidableEq, Repr

/-- PortModel at reset. -/
def PortModel.reset : PortModel where
  idleMw := 0
  heaterLoop := 255
  pumpLoop := 255
  eDrop := [0,0,0,0,0,0,0]
  vol := [0,0,0,0,0,0,0]
  rTh := 0
  tauMs := 1
  warnT := 960
  critT := 1040
  resumeT := 880
  warn := false
  crit := false
  backoff := false
  peak := 0
  pred := 0
  bias := 0
  overMs := 0

/-- a dryer zone (10 R525). -/
structure ZoneModel where
  /-- STREAM_MASK, 0 after a power cycle (R526 10). -/
  mask : Nat
  /-- LOOP (R525 10). -/
  loop : Nat
  /-- DIST (R525 10). -/
  dist : Nat
  /-- IDLE_MW (R525 10). -/
  idleMw : Nat
  /-- MAX_MW (R525 10). -/
  maxMw : Nat
  /-- K (R525 10). -/
  k : Nat
  /-- LEAD_MS (R525 10). -/
  leadMs : Nat
  /-- DRY_FF, feed-forward power, mW (R557 10). -/
  ff : Nat
  /-- DRY_z duty in 16.16 per cent; off after a power cycle (R528 R688 10). -/
  duty : Nat
  deriving DecidableEq, Repr

/-- ZoneModel at reset. -/
def ZoneModel.reset : ZoneModel where
  mask := 0
  loop := 255
  dist := 0
  idleMw := 0
  maxMw := 0
  k := 0
  leadMs := 0
  ff := 0
  duty := 0

/-- one maintenance activity (10 R546). -/
structure Activity where
  /-- ID (R550 10). -/
  id : Nat
  /-- KIND 1 to 8 (R546 10). -/
  kind : Nat
  /-- PORT_MASK, bank or channel (R546 10). -/
  res : Nat
  /-- RUNNING; else QUEUED (R548 10). -/
  running : Bool
  /-- MAX_MS of a host activity (R549 10). -/
  maxMs : Nat
  /-- command that started it (R548 10). -/
  ref : Option PktRef
  /-- what a queued device activity does when it runs (owner and power; interval and mode) (R733 10). -/
  arg : Nat
  deriving DecidableEq, Repr

/-- Activity at reset. -/
def Activity.reset : Activity where
  id := 0
  kind := 0
  res := 0
  running := false
  maxMs := 0
  ref := none
  arg := 0

/-- lines of one stream that have passed its reference row with imprint data, until they are dry (10 R527, R528). -/
structure Inked where
  /-- stream (R527 10). -/
  stream : Nat
  /-- first stream line (R527 10). -/
  first : Int
  /-- last stream line (R527 10). -/
  last : Int
  /-- ink of each line, pL (R527 10). -/
  ink : Rat
  deriving DecidableEq, Repr

/-- Inked at reset. -/
def Inked.reset : Inked where
  stream := 0
  first := 0
  last := 0
  ink := 0

/-- SCHED block: admission, budgets, regulators, arbiter (10). -/
structure Sched where
  /-- CAP_MW, 15,000 after a power cycle (R524 10). -/
  capMw : Nat
  /-- SCHED_DEV_PRED (R557 10). -/
  devPred : Nat
  /-- SCHED_HEAD_PRED (R557 10). -/
  headPred : Nat
  /-- SCHED_DRYER_PRED (R557 10). -/
  dryerPred : Nat
  /-- HEAD_MW (R526 10). -/
  headMw : Nat
  /-- DRYER_MW (R526 10). -/
  dryerMw : Nat
  /-- MAX_SPACING (R526 10). -/
  maxSpacing : Nat
  /-- port models and heat status (R525 10). -/
  ports : Tab PortModel
  /-- dryer zones (R525 10). -/
  zones : Tab ZoneModel
  /-- VMIN field (R558 10). -/
  vMin : Nat
  /-- VMAX field (R558 10). -/
  vMax : Nat
  /-- SLACK_LOW (R558 10). -/
  slackLow : Nat
  /-- SLACK_HIGH (R558 10). -/
  slackHigh : Nat
  /-- AVS target, mV (R557 10). -/
  target : Nat
  /-- V_floor, mV (R557 10). -/
  vFloor : Nat
  /-- last measured voltage, mV (R557 10). -/
  measured : Nat
  /-- last confirmed voltage, mV (R536 10). -/
  confirmed : Nat
  /-- AVS_FAIL (R557 10). -/
  avsFail : Bool
  /-- consecutive failed AVSBus transactions (R536 10). -/
  avsErrRun : Nat
  /-- AVSBus transactions started and not ended: 0 write target, 1 Voltage, 2 Current, 3 Status (R535 10). -/
  avsBusy : List Nat
  /-- least slack (R557 10). -/
  slack : Nat
  /-- monitor with the least slack (R557 10). -/
  slackMon : Nat
  /-- FLT_SLACK holds (R533 10). -/
  slackFault : Bool
  /-- voltage a held candidate needs (R534 10). -/
  needV : Nat
  /-- the target before V_floor was raised for it (R534 10). -/
  needFrom : Nat
  /-- IN_CH (R557 10). -/
  inCh : Nat
  /-- IN_EN (R557 10). -/
  inEn : Bool
  /-- IN_NOM (R557 10). -/
  inNom : Nat
  /-- IN_1..IN_7, per mille (R540 10). -/
  shedIn : List Nat
  /-- CM_1..CM_7, mV (R540 10). -/
  shedCm : List Int
  /-- shedding stage (R557 10). -/
  stage : Nat
  /-- an orderly stop is in progress (R542 10). -/
  stopping : Bool
  /-- STOP_DONE (R557 10). -/
  stopDone : Bool
  /-- THERM_SENSE_0..7 (R560 10). -/
  therm : List Int
  /-- THROTTLE_C (R560 10). -/
  throttleC : Nat
  /-- LIMIT_C (R560 10). -/
  limitC : Nat
  /-- open activities in the order of their starts (R557 10). -/
  acts : List Activity
  /-- the last 64 ended activities and their outcomes, newest first (R554 10). -/
  ended : List (Nat × Status)
  /-- lines with imprint data that have passed a reference row, oldest first (R528 10). -/
  inked : List Inked
  /-- next activity ID (R550 10). -/
  nextId : Nat
  deriving DecidableEq, Repr

/-- Sched at reset. -/
def Sched.reset : Sched where
  capMw := 15000
  devPred := 0
  headPred := 0
  dryerPred := 0
  headMw := 0xFFFFFFFF
  dryerMw := 0xFFFFFFFF
  maxSpacing := 4096
  ports := []
  zones := []
  vMin := 0
  vMax := 60
  slackLow := 8
  slackHigh := 48
  target := 800
  vFloor := 600
  measured := 800
  confirmed := 800
  avsFail := false
  avsErrRun := 0
  avsBusy := []
  slack := 255
  slackMon := 0
  slackFault := false
  needV := 0
  needFrom := 0
  inCh := 0
  inEn := false
  inNom := 0
  shedIn := [950,930,910,890,870,850,800]
  shedCm := [-10,-15,-20,-25,-30,-40,-60]
  stage := 0
  stopping := false
  stopDone := false
  therm := [0,0,0,0,0,0,0,0]
  throttleC := 95
  limitC := 103
  acts := []
  ended := []
  inked := []
  nextId := 1

/-- a time base TB_0 or TB_1 (11 R561, R599). -/
structure Tb where
  /-- value in 2^-40 × 2^-16 ns units of the 25 MHz count (see Time.adv) (R564 11). -/
  t : Int
  /-- rate y in force (R564 11). -/
  y : Int
  /-- frequency term yi (R564 11). -/
  yi : Int
  /-- STATE (R564 11). -/
  st : TbSt
  /-- CONVERGING (R599 11). -/
  conv : Bool
  /-- STEPPED (R599 11). -/
  stepped : Bool
  /-- SYNC_PORT (R599 11). -/
  syncPort : Nat
  /-- TB_OFFSET (last o, ns) (R598 11). -/
  offset : Int
  /-- offset a slew has still to remove, ns (R580 11). -/
  remain : Int
  /-- SLEW_PPM of the running slew (R580 11). -/
  slew : Nat
  /-- mean path delay, 1/256 ns (R598 11). -/
  mpd : Nat
  /-- TB_STEPS since power-on (R598 11). -/
  steps : Nat
  /-- TB_GM_ID (R598 11). -/
  gm : Nat
  /-- consecutive Syncs with |o| at or below LOCK_NS (R575 11). -/
  goodRun : Nat
  /-- ENABLE (R571 11). -/
  enable : Bool
  /-- P2P (R571 11). -/
  p2p : Bool
  /-- TRANSPORT (R571 11). -/
  transport : Nat
  /-- TWO_STEP (R571 11). -/
  twoStep : Bool
  /-- SLAVE_ONLY (R571 11). -/
  slaveOnly : Bool
  /-- DOMAIN, 0 for TB_0, 1 for TB_1 (R571 11). -/
  domain : Nat
  /-- PRIORITY1 (R571 11). -/
  prio1 : Nat
  /-- PRIORITY2 (R571 11). -/
  prio2 : Nat
  /-- CLOCK_CLASS (R571 11). -/
  clockClass : Nat
  /-- LOG_SYNC (R571 11). -/
  logSync : Int
  /-- LOG_ANNOUNCE (R571 11). -/
  logAnnounce : Int
  /-- LOG_DELAY (R571 11). -/
  logDelay : Int
  /-- ANNOUNCE_TIMEOUT (R571 11). -/
  annTimeout : Nat
  /-- KP (R571 11). -/
  kp : Nat
  /-- KI (R571 11). -/
  ki : Nat
  /-- LOCK_NS (R571 11). -/
  lockNs : Nat
  /-- STEP_NS (R571 11). -/
  stepNs : Nat
  /-- SLEW_PPM (R571 11). -/
  slewPpm : Nat
  /-- the selected master's announced data set (R577 11). -/
  master : Option (List Nat)
  /-- two-step Sync that waits for its Follow_Up: sequence, ingress t2, correction, port (R574 11). -/
  syncWait : Option (Nat × Int × Int × Nat)
  /-- sequence and egress stamp of the last Delay_Req (R574 11). -/
  delayReq : Option (Nat × Int)
  /-- last master-to-slave difference t2 - t1 - corr, 1/256 ns (R574 11). -/
  ms : Int
  /-- sequence number of sent messages (R577 11). -/
  seq : Nat
  deriving DecidableEq, Repr

/-- Tb at reset. -/
def Tb.reset : Tb where
  t := 0
  y := 0
  yi := 0
  st := .host
  conv := false
  stepped := false
  syncPort := 0
  offset := 0
  remain := 0
  slew := 0
  mpd := 0
  steps := 0
  gm := 0
  goodRun := 0
  enable := false
  p2p := false
  transport := 0
  twoStep := false
  slaveOnly := true
  domain := 0
  prio1 := 128
  prio2 := 128
  clockClass := 248
  logSync := -3
  logAnnounce := 0
  logDelay := -3
  annTimeout := 3
  kp := 179
  ki := 77
  lockNs := 100
  stepNs := 1000
  slewPpm := 100
  master := none
  syncWait := none
  delayReq := none
  ms := 0
  seq := 0

/-- one capture record (11 R593). -/
structure TinRec where
  /-- TB_0 in 2^-16 ns (R593 11). -/
  tb0 : Int
  /-- TB_1 (R593 11). -/
  tb1 : Int
  /-- TB_2 (R593 11). -/
  tb2 : Int
  /-- 1 = rising, 2 = falling (R601 11). -/
  edge : Nat
  deriving DecidableEq, Repr

/-- TinRec at reset. -/
def TinRec.reset : TinRec where
  tb0 := 0
  tb1 := 0
  tb2 := 0
  edge := 0

/-- one capture input (11 R592). -/
structure Tin where
  /-- EDGE, off after a power cycle (R601 11). -/
  edge : Nat
  /-- FILTER_NS (R601 11). -/
  filterNs : Nat
  /-- OVERFLOW (R601 11). -/
  overflow : Bool
  /-- records, oldest first (R594 11). -/
  queue : List TinRec
  /-- TB_2 (2^-16 ns) of the last recorded edge (R593 11). -/
  last : Option Nat
  deriving DecidableEq, Repr

/-- Tin at reset. -/
def Tin.reset : Tin where
  edge := 0
  filterNs := 0
  overflow := false
  queue := []
  last := none

/-- a timed-output configuration (11 R586). -/
structure ToutCfg where
  /-- MODE, OFF after a power cycle (R600 11). -/
  mode : Nat
  /-- BASE (R600 11). -/
  base : Nat
  /-- INVERT (R586 11). -/
  invert : Bool
  /-- WIDTH_NS (R586 11). -/
  width : Nat
  /-- START, 2^-16 ns (R586 11). -/
  start : Int
  /-- PERIOD, 2^-16 ns (R586 11). -/
  period : Nat
  /-- number of the next edge (R588 R590 11). -/
  k : Nat
  deriving DecidableEq, Repr

/-- ToutCfg at reset. -/
def ToutCfg.reset : ToutCfg where
  mode := 0
  base := 0
  invert := false
  width := 0
  start := 0
  period := 0
  k := 0

/-- one timed output (11 R586 to R591). -/
structure Tout where
  /-- configuration in force (R586 11). -/
  cfg : ToutCfg
  /-- replaced configuration and the TB_2 (ns) when its edges end (R589 11). -/
  old : Option (ToutCfg × Nat)
  /-- ACTIVE (R600 11). -/
  active : Bool
  /-- MISSED (R600 11). -/
  missed : Bool
  /-- TOUT_EDGES (R598 11). -/
  edges : Nat
  deriving DecidableEq, Repr

/-- Tout at reset. -/
def Tout.reset : Tout where
  cfg := ToutCfg.reset
  old := none
  active := false
  missed := false
  edges := 0

/-- one Ethernet port (11 R598). -/
structure EthPort where
  /-- PTP_DELAY_ASYM (R598 11). -/
  asym : Int
  /-- PTP_PEER_DELAY (R598 11). -/
  peer : Nat
  /-- PTP_RESIDENCE_MAX (R598 11). -/
  resMax : Nat
  /-- ETH_FLOMUND_DROPS (R598 11). -/
  drops : Nat
  /-- PTP_RX_ERRS (R598 11). -/
  rxErrs : Nat
  /-- the port has link (R576 11). -/
  link : Bool
  /-- sequence and egress stamp of the last Pdelay_Req (R569 11). -/
  pdelay : Option (Nat × Int)
  /-- two-step Pdelay_Resp awaited: sequence, ingress stamp, turnaround so far (R569 11). -/
  pdResp : Option (Nat × Int × Int)
  deriving DecidableEq, Repr

/-- EthPort at reset. -/
def EthPort.reset : EthPort where
  asym := 0
  peer := 0
  resMax := 0
  drops := 0
  rxErrs := 0
  link := false
  pdelay := none
  pdResp := none

/-- TIME block (11). -/
structure Time where
  /-- TB_2 in 2^-16 ns, 0 at power-on (R563 11). -/
  tb2 : Nat
  /-- TB_0 and TB_1 (R561 11). -/
  tb : Tab Tb
  /-- snapshots (SEC, NS, FRAC) (R598 11). -/
  snap : Tab (Nat × Nat × Nat)
  /-- capture inputs (R592 11). -/
  tin : Tab Tin
  /-- timed outputs (R586 11). -/
  tout : Tab Tout
  /-- ETH_0 and ETH_1 (R598 11). -/
  eth : Tab EthPort
  deriving DecidableEq, Repr

/-- Time at reset. -/
def Time.reset : Time where
  tb2 := 0
  tb := []
  snap := []
  tin := []
  tout := []
  eth := []

/-- motion limits (12 R606). -/
structure MotLim where
  /-- V_MAX (R606 12). -/
  vMax : Nat
  /-- A_MAX (R606 12). -/
  aMax : Nat
  /-- D_MAX (R606 12). -/
  dMax : Nat
  /-- J_MAX (R606 12). -/
  jMax : Nat
  deriving DecidableEq, Repr

/-- MotLim at reset. -/
def MotLim.reset : MotLim where
  vMax := 51200
  aMax := 512000
  dMax := 512000
  jMax := 5120000

/-- one stepper axis (12). -/
structure Axis where
  /-- CONFIGURED, every axis unconfigured after power-on (R605 12). -/
  configured : Bool
  /-- STEP_DIV (R605 12). -/
  stepDiv : Nat
  /-- DIR_INVERT (R605 12). -/
  dirInvert : Bool
  /-- EN_ACTIVE_HIGH (R605 12). -/
  enHigh : Bool
  /-- SAFE_ACTION, true = KEEP_GEAR (R605 12). -/
  safeGear : Bool
  /-- FALLBACK, true = CONTINUE (R605 12). -/
  fallback : Bool
  /-- PULSE (R605 12). -/
  pulse : Nat
  /-- DIR_SETUP (R605 12). -/
  dirSetup : Nat
  /-- EN_SETUP_MS (R605 12). -/
  enSetupMs : Nat
  /-- HOME_ACTIVE_HIGH (R605 12). -/
  homeHigh : Bool
  /-- LIMIT_ACTIVE_HIGH (R605 12). -/
  limHigh : Bool
  /-- LIMITS_EN (R605 12). -/
  limEn : Bool
  /-- NO_HOME (R605 12). -/
  noHome : Bool
  /-- limits for the next move (R606 12). -/
  lim : MotLim
  /-- limits with which the move in progress was planned (R613 12). -/
  plan : MotLim
  /-- SOFT_MIN (R606 12). -/
  softMin : Int
  /-- SOFT_MAX (R606 12). -/
  softMax : Int
  /-- STATE; AX_n_EN released after a power cycle (R641 12). -/
  st : AxisSt
  /-- what the motion is: none, move to target, velocity, planned stop (R610 12). -/
  mode : MoveMode
  /-- position commanded (R647 12). -/
  pos : Int
  /-- commanded velocity (R647 12). -/
  vel : Int
  /-- target of the move (R647 12). -/
  target : Int
  /-- velocity of a VELOCITY move (R610 12). -/
  vTarget : Int
  /-- kept target (RESUMABLE) (R648 12). -/
  kept : Option Int
  /-- velocity of a stopped VELOCITY move (R620 12). -/
  keptV : Option Int
  /-- POS_LOST, set at power-on (R648 12). -/
  posLost : Bool
  /-- HOMED (homed since power-on) (R648 12). -/
  homed : Bool
  /-- HOME_RESULT, 0 = no homing since reset (R624 12). -/
  homeResult : Nat
  /-- step of the homing sequence (R623 12). -/
  homeStep : Nat
  /-- BACKOFF distance still to travel after the edge (R623 12). -/
  homeBack : Option Nat
  /-- distance travelled in the present step (R624 12). -/
  homeRun : Nat
  /-- DIR (R622 12). -/
  homeDir : Bool
  /-- V_FAST (R622 12). -/
  vFast : Nat
  /-- V_SLOW (R622 12). -/
  vSlow : Nat
  /-- BACKOFF (R622 12). -/
  backoff : Nat
  /-- HOME_POS (R622 12). -/
  homePos : Int
  /-- MAX_SEARCH (R622 12). -/
  maxSearch : Nat
  /-- LIMIT_HIT (R648 12). -/
  limitHit : Bool
  /-- SOFT_HIT (R648 12). -/
  softHit : Bool
  /-- GEAR_LOST (R648 12). -/
  gearLost : Bool
  /-- FOLLOW_BACKLOG (R648 12). -/
  backlog : Bool
  /-- AX_n_EN asserted (R621 R641 12). -/
  en : Bool
  /-- EN_SETUP_MS runs (R621 12). -/
  enWait : Bool
  /-- AX_n_EN is released when the stop ends (R616 12). -/
  disableAfter : Bool
  /-- MOT_STOP packets that wait for rest (R619 12). -/
  stops : List PktRef
  /-- AX_n_HOME active (R646 12). -/
  home : Bool
  /-- AX_n_LIMP active (R646 12). -/
  limP : Bool
  /-- AX_n_LIMN active (R646 12). -/
  limN : Bool
  /-- INPUT (R647 12). -/
  folIn : Nat
  /-- INVERT (R647 12). -/
  folInv : Bool
  /-- MULT (R647 12). -/
  folMult : Nat
  /-- GAP_US (R625 12). -/
  folGap : Nat
  /-- pending microsteps: (positive, count, spacing in ns), the first emitted first (R626 R627 12). -/
  folPend : List (Bool × Nat × Nat)
  /-- TB_2 (ns) of the previous coarse step (R626 12). -/
  folLast : Option Nat
  /-- ratio in force, 32.32 (R647 12). -/
  ratio : Int
  /-- axis position at the lock, 2^-32 microsteps (R634 12). -/
  x0 : Int
  /-- S at the lock, 2^-16 sub-dots (R634 12). -/
  w0 : Int
  /-- scheduled or blending CHANGE: start P (2^-16 sub-dots), new ratio, BLEND (R648 12). -/
  chg : Option (Int × Int × Nat)
  /-- the blend has started (R636 12). -/
  blending : Bool
  /-- MOT_PULSES (R647 12). -/
  pulses : Nat
  deriving DecidableEq, Repr

/-- Axis at reset. -/
def Axis.reset : Axis where
  configured := false
  stepDiv := 0
  dirInvert := false
  enHigh := false
  safeGear := false
  fallback := false
  pulse := 20
  dirSetup := 10
  enSetupMs := 10
  homeHigh := false
  limHigh := false
  limEn := true
  noHome := false
  lim := MotLim.reset
  plan := MotLim.reset
  softMin := -549755813888
  softMax := 549755813887
  st := .disabled
  mode := .none
  pos := 0
  vel := 0
  target := 0
  vTarget := 0
  kept := none
  keptV := none
  posLost := true
  homed := false
  homeResult := 0
  homeStep := 0
  homeBack := none
  homeRun := 0
  homeDir := false
  vFast := 0
  vSlow := 0
  backoff := 0
  homePos := 0
  maxSearch := 0
  limitHit := false
  softHit := false
  gearLost := false
  backlog := false
  en := false
  enWait := false
  disableAfter := false
  stops := []
  home := false
  limP := false
  limN := false
  folIn := 0
  folInv := false
  folMult := 0
  folGap := 0
  folPend := []
  folLast := none
  ratio := 0
  x0 := 0
  w0 := 0
  chg := none
  blending := false
  pulses := 0

/-- one follow input (12 R646). -/
structure Fol where
  /-- FOL_COUNT (R646 12). -/
  count : Int
  /-- FOL_m_DIR level (R646 12). -/
  dir : Bool
  /-- TB_2 (ns) of the last coarse step (R626 12). -/
  last : Option Nat
  deriving DecidableEq, Repr

/-- Fol at reset. -/
def Fol.reset : Fol where
  count := 0
  dir := false
  last := none

/-- MOT block (12). -/
structure Mot where
  /-- axes (R647 12). -/
  axes : Tab Axis
  /-- follow inputs (R646 12). -/
  fols : Tab Fol
  deriving DecidableEq, Repr

/-- Mot at reset. -/
def Mot.reset : Mot where
  axes := []
  fols := []

/-- settings of a brushless channel (13 R654). -/
structure BlCfg where
  /-- KIND (R654 13). -/
  blower : Bool
  /-- SAFE_ACTION (R654 13). -/
  safeAction : Nat
  /-- DIR_INVERT (R654 13). -/
  dirInvert : Bool
  /-- POLE_PAIRS (R654 13). -/
  polePairs : Nat
  /-- F_PWM_KHZ (R654 13). -/
  fPwm : Nat
  /-- DEADTIME (R654 13). -/
  deadtime : Nat
  /-- R_MOHM (R654 13). -/
  rMohm : Nat
  /-- L_UH (R654 13). -/
  lUh : Nat
  /-- KE (R654 13). -/
  ke : Nat
  /-- CUR_BW_HZ (R654 13). -/
  curBw : Nat
  /-- I_MAX (R654 13). -/
  iMax : Nat
  /-- I_TRIP (R654 13). -/
  iTrip : Nat
  /-- MAX_RPM (R654 13). -/
  maxRpm : Nat
  /-- HANDOVER_RPM (R654 13). -/
  handover : Nat
  /-- BRAKE_LIMIT_RPM (R654 13). -/
  brakeLim : Nat
  /-- RESTART_RPM (R654 13). -/
  restart : Nat
  /-- ACCEL (R654 13). -/
  accel : Nat
  /-- DECEL (R654 13). -/
  decel : Nat
  /-- ALIGN_CURRENT (R654 13). -/
  alignCur : Nat
  /-- ALIGN_MS (R654 13). -/
  alignMs : Nat
  /-- KP_SPD (R654 13). -/
  kpSpd : Nat
  /-- KI_SPD (R654 13). -/
  kiSpd : Nat
  /-- V_CHOP_ON (R654 13). -/
  vOn : Nat
  /-- V_CHOP_OFF (R654 13). -/
  vOff : Nat
  /-- OV_LIMIT (R654 13). -/
  ovLim : Nat
  /-- UV_LIMIT (R654 13). -/
  uvLim : Nat
  /-- ISENSE_GAIN (R654 13). -/
  isGain : Nat
  /-- VSENSE_GAIN (R654 13). -/
  vsGain : Nat
  /-- CATCH_TRIES (R654 13). -/
  tries : Nat
  /-- SKIP_MAX (R654 13). -/
  skipMax : Nat
  /-- RETRY_MS (R654 13). -/
  retryMs : Nat
  deriving DecidableEq, Repr

/-- BlCfg at reset. -/
def BlCfg.reset : BlCfg where
  blower := false
  safeAction := 0
  dirInvert := false
  polePairs := 0
  fPwm := 0
  deadtime := 0
  rMohm := 0
  lUh := 0
  ke := 0
  curBw := 0
  iMax := 0
  iTrip := 0
  maxRpm := 0
  handover := 0
  brakeLim := 0
  restart := 0
  accel := 0
  decel := 0
  alignCur := 0
  alignMs := 0
  kpSpd := 0
  kiSpd := 0
  vOn := 0
  vOff := 0
  ovLim := 0
  uvLim := 0
  isGain := 0
  vsGain := 0
  tries := 0
  skipMax := 0
  retryMs := 0

/-- one brushless channel (13). -/
structure BlCh where
  /-- CONFIGURED, a power cycle leaves every channel unconfigured (R688 13). -/
  configured : Bool
  /-- settings (R654 13). -/
  cfg : BlCfg
  /-- STATE (R692 13). -/
  st : BlSt
  /-- START_RESULT (R692 13). -/
  startResult : Nat
  /-- LIMITED (R692 13). -/
  limited : Bool
  /-- CHOP_FAULT (R692 13). -/
  chopFault : Bool
  /-- REGEN (R692 13). -/
  regen : Bool
  /-- HOLDING (R692 13). -/
  holding : Bool
  /-- OVERVOLT (R692 13). -/
  overvolt : Bool
  /-- OVERCURRENT (R692 13). -/
  overcurrent : Bool
  /-- UNDERVOLT (R692 13). -/
  undervolt : Bool
  /-- SKIP_CAPPED (R692 13). -/
  skipCapped : Bool
  /-- BL_SPEED, observer speed, rpm (R691 13). -/
  speed : Int
  /-- BL_SET (R691 13). -/
  set : Int
  /-- ramped set-point, 2^-16 rpm (R657 13). -/
  ramped : Int
  /-- i_q, 10 mA (R691 13). -/
  iq : Int
  /-- iq_ref, 10 mA (R691 13). -/
  iqRef : Int
  /-- speed-loop integral, 2^-16 × 10 mA (R656 13). -/
  integ : Int
  /-- V_bus, 10 mV (R691 13). -/
  vbus : Nat
  /-- BL_SKIPS (R691 13). -/
  skips : Nat
  /-- consecutive predicted periods (R660 13). -/
  skipRun : Nat
  /-- BL_OVERVOLTS (R691 13). -/
  overvolts : Nat
  /-- time in RUNNING, µs × F_PWM (BL_RUN_S is its whole seconds) (R691 13). -/
  runUs : Nat
  /-- BL_STARTS (R691 13). -/
  starts : Nat
  /-- PWM outputs driven; off after a power cycle (R688 13). -/
  pwmOn : Bool
  /-- all three low-side outputs on (R663 R688 13). -/
  brake : Bool
  /-- BL_n_CHOP on; off after a power cycle (R688 13). -/
  chop : Bool
  /-- a chopper check runs (R669 13). -/
  chopCheck : Bool
  /-- the last brake request's check passed (R670 13). -/
  regenOk : Bool
  /-- measurements and tries of the present start (R665 13). -/
  triesDone : Nat
  /-- after braking, start from rest (R664 13). -/
  fromRest : Bool
  /-- the forced rotation runs (R664 13). -/
  aligned : Bool
  /-- why it coasts: 0 retry, 1 bus voltage, 2 until BL_START (R662 R672 13). -/
  coastWhy : Nat
  /-- TB_2 (ns) of recent overvoltages (R672 13). -/
  ovTimes : List Nat
  /-- periods the vector has stayed below its limit (R658 13). -/
  below : Nat
  /-- BL_STOP packets that wait (R667 13). -/
  stops : List PktRef
  /-- MODE of the stop in progress (R667 13). -/
  stopMode : Nat
  /-- PWM periods since RUNNING (R656 13). -/
  periods : Nat
  /-- running direction (R661 13). -/
  dir : Int
  /-- loop output stored for the next BL_START (R679 13). -/
  loopSet : Option Int
  deriving DecidableEq, Repr

/-- BlCh at reset. -/
def BlCh.reset : BlCh where
  configured := false
  cfg := BlCfg.reset
  st := .stopped
  startResult := 0
  limited := false
  chopFault := false
  regen := false
  holding := false
  overvolt := false
  overcurrent := false
  undervolt := false
  skipCapped := false
  speed := 0
  set := 0
  ramped := 0
  iq := 0
  iqRef := 0
  integ := 0
  vbus := 0
  skips := 0
  skipRun := 0
  overvolts := 0
  runUs := 0
  starts := 0
  pwmOn := false
  brake := false
  chop := false
  chopCheck := false
  regenOk := false
  triesDone := 0
  fromRest := false
  aligned := false
  coastWhy := 0
  ovTimes := []
  below := 0
  stops := []
  stopMode := 0
  periods := 0
  dir := 1
  loopSet := none

/-- settings of a control loop (13 R674). -/
structure LoopCfg where
  /-- IN_KIND (R674 13). -/
  inKind : Nat
  /-- IN_INDEX (R674 13). -/
  inIndex : Nat
  /-- OUT_KIND (R674 13). -/
  outKind : Nat
  /-- OUT_INDEX (R674 13). -/
  outIndex : Nat
  /-- PERIOD_US (R674 13). -/
  periodUs : Nat
  /-- IN_OFFSET (R674 13). -/
  inOffset : Int
  /-- IN_GAIN (R674 13). -/
  inGain : Int
  /-- KP (R674 13). -/
  kp : Int
  /-- KI (R674 13). -/
  ki : Int
  /-- KD (R674 13). -/
  kd : Int
  /-- DF (R674 13). -/
  df : Nat
  /-- FF_SRC (R674 13). -/
  ffSrc : Nat
  /-- SUPPLY_COMP (R674 13). -/
  supply : Nat
  /-- SAFE, true = ZERO (R674 13). -/
  safeZero : Bool
  /-- PLAUS_ACTION (R674 13). -/
  plausAct : Nat
  /-- VS_CH (R674 13). -/
  vsCh : Nat
  /-- KFF (R674 13). -/
  kff : Int
  /-- OUT_MIN (R674 13). -/
  outMin : Int
  /-- OUT_MAX (R674 13). -/
  outMax : Int
  /-- RAMP (R674 13). -/
  ramp : Int
  /-- V_NOM_RAW (R674 13). -/
  vNom : Nat
  /-- OUT_PWM_HZ (R674 13). -/
  pwmHz : Nat
  /-- PLANT_K (R674 13). -/
  plantK : Int
  /-- PLANT_TAU_MS (R674 13). -/
  plantTau : Nat
  /-- PLANT_Y0 (R674 13). -/
  plantY0 : Int
  /-- PLAUS_TOL (R674 13). -/
  plausTol : Int
  /-- PLAUS_MS (R674 13). -/
  plausMs : Nat
  /-- OUT_INIT (R674 13). -/
  outInit : Int
  deriving DecidableEq, Repr

/-- LoopCfg at reset. -/
def LoopCfg.reset : LoopCfg where
  inKind := 0
  inIndex := 0
  outKind := 0
  outIndex := 0
  periodUs := 0
  inOffset := 0
  inGain := 0
  kp := 0
  ki := 0
  kd := 0
  df := 0
  ffSrc := 0
  supply := 0
  safeZero := false
  plausAct := 0
  vsCh := 0
  kff := 0
  outMin := 0
  outMax := 0
  ramp := 0
  vNom := 0
  pwmHz := 0
  plantK := 0
  plantTau := 0
  plantY0 := 0
  plausTol := 0
  plausMs := 0
  outInit := 0

/-- one control loop (13). -/
structure Loop where
  /-- CONFIGURED, a power cycle leaves every loop unconfigured (R688 13). -/
  configured : Bool
  /-- settings (R674 13). -/
  cfg : LoopCfg
  /-- ENABLED (R693 13). -/
  enabled : Bool
  /-- SET (R693 13). -/
  set : Int
  /-- r restarts at y at the next update (R677 13). -/
  restart : Bool
  /-- y (R693 13). -/
  y : Int
  /-- y_prev (R676 13). -/
  yPrev : Int
  /-- r (R693 13). -/
  r : Int
  /-- i (R693 13). -/
  i : Int
  /-- dm (R676 13). -/
  dm : Int
  /-- previous u (R676 13). -/
  u : Int
  /-- out; DRY and pin outputs are off after a power cycle (R688 R693 13). -/
  out : Int
  /-- SAT_HI (R693 13). -/
  satHi : Bool
  /-- SAT_LO (R693 13). -/
  satLo : Bool
  /-- the plant model's y (R693 13). -/
  model : Int
  /-- IMPLAUSIBLE (R693 13). -/
  implausible : Bool
  /-- µs for which |y - model| has exceeded PLAUS_TOL (R683 13). -/
  badUs : Nat
  /-- consecutive updates with a raw input of 0 or 4,095 (R683 13). -/
  rawRun : Nat
  /-- out at the update that set IMPLAUSIBLE (R684 13). -/
  holdOut : Int
  /-- HEAT_FORCED (R693 13). -/
  heatForced : Bool
  /-- SAFE_ZERO (R693 13). -/
  safeOff : Bool
  /-- feed-forward delivered by the scheduler, 16.16 (R528 R529 13). -/
  ff : Int
  deriving DecidableEq, Repr

/-- Loop at reset. -/
def Loop.reset : Loop where
  configured := false
  cfg := LoopCfg.reset
  enabled := false
  set := 0
  restart := false
  y := 0
  yPrev := 0
  r := 0
  i := 0
  dm := 0
  u := 0
  out := 0
  satHi := false
  satLo := false
  model := 0
  implausible := false
  badUs := 0
  rawRun := 0
  holdOut := 0
  heatForced := false
  safeOff := false
  ff := 0

/-- BL and LOOP blocks (13). -/
structure Bl where
  /-- brushless channels (R691 13). -/
  chs : Tab BlCh
  /-- control loops (R693 13). -/
  loops : Tab Loop
  /-- DRY_CFG PWM_HZ, default 1,000 (R693 13). -/
  dryHz : Tab Nat
  deriving DecidableEq, Repr

/-- Bl at reset. -/
def Bl.reset : Bl where
  chs := []
  loops := []
  dryHz := []

/-- one activate-count entry (14 R710). -/
structure ActEntry where
  /-- row (R710 14). -/
  row : Nat
  /-- count (R710 14). -/
  count : Nat
  deriving DecidableEq, Repr

/-- ActEntry at reset. -/
def ActEntry.reset : ActEntry where
  row := 0
  count := 0

/-- a request that waits in a channel (14 R708). -/
structure DdrReq where
  /-- requesting port; 0 and 1 are the real-time ones (R708 14). -/
  port : Nat
  /-- DRAM bank (R708 14). -/
  bank : Nat
  /-- row (R708 14). -/
  row : Nat
  /-- a write burst (R708 14). -/
  write : Bool
  /-- a scrub read (R709 14). -/
  scrub : Bool
  deriving DecidableEq, Repr

/-- DdrReq at reset. -/
def DdrReq.reset : DdrReq where
  port := 0
  bank := 0
  row := 0
  write := false
  scrub := false

/-- one SDRAM channel (14 R738, R739). -/
structure DdrCh where
  /-- STATE (R739 14). -/
  st : DdrSt
  /-- real-time ports in panic (PANIC is any) (R739 14). -/
  panicPorts : Nat
  /-- REFRESH_2X (R739 14). -/
  refresh2x : Bool
  /-- TRACK_QUEUED (R739 14). -/
  trackQueued : Bool
  /-- TRAIN_FAIL (R739 14). -/
  trainFail : Bool
  /-- UE_SEEN (R739 14). -/
  ueSeen : Bool
  /-- DDRC_CE_COUNT (R738 14). -/
  ce : Nat
  /-- DDRC_UE_COUNT (R738 14). -/
  ue : Nat
  /-- DDRC_ERR_ADDR (R738 14). -/
  errAddr : Nat
  /-- REGION (R738 14). -/
  errRegion : Nat
  /-- UE (R738 14). -/
  errUe : Bool
  /-- DDRC_PANIC_EVENTS (R738 14). -/
  panics : Nat
  /-- DDRC_NEIGHBOUR_REFRESHES (R738 14). -/
  neighbours : Nat
  /-- refreshes postponed, by rank (R705 14). -/
  postponed : Tab Nat
  /-- activate tables by DRAM bank (R710 14). -/
  acts : Tab (List ActEntry)
  /-- waiting reads, oldest first (R708 14). -/
  reqs : List DdrReq
  /-- write buffer (R708 14). -/
  wbuf : List DdrReq
  /-- a write drain runs (R708 14). -/
  drain : Bool
  /-- DRAM bank last activated (R708 14). -/
  lastBank : Nat
  /-- open row by bank, plus one; 0 = none (R708 14). -/
  openRow : Tab Nat
  /-- consecutive row hits (R708 14). -/
  hits : Nat
  /-- MEM_RETRAIN or MEM_REINIT in progress (R735 14). -/
  retrainRef : Option PktRef
  /-- the training in progress is a FULL retrain (R704 14). -/
  fullRetrain : Bool
  /-- activity of the track in progress or queued (R703 14). -/
  trackAct : Nat
  deriving DecidableEq, Repr

/-- DdrCh at reset. -/
def DdrCh.reset : DdrCh where
  st := .unpopulated
  panicPorts := 0
  refresh2x := false
  trackQueued := false
  trainFail := false
  ueSeen := false
  ce := 0
  ue := 0
  errAddr := 0
  errRegion := 0
  errUe := false
  panics := 0
  neighbours := 0
  postponed := []
  acts := []
  reqs := []
  wbuf := []
  drain := false
  lastBank := 0
  openRow := []
  hits := 0
  retrainRef := none
  fullRetrain := false
  trackAct := 0

/-- a MEM_SCRUB range in progress (14 R735). -/
structure Scrub where
  /-- packet (R735 14). -/
  ref : PktRef
  /-- next address (R735 14). -/
  pos : Nat
  /-- end of the range (R735 14). -/
  stop : Nat
  /-- corrected words (R735 14). -/
  ce : Nat
  /-- uncorrectable words (R735 14). -/
  ue : Nat
  deriving DecidableEq, Repr

/-- Scrub at reset. -/
def Scrub.reset : Scrub where
  ref := (0,0)
  pos := 0
  stop := 0
  ce := 0
  ue := 0

/-- DDRC block (14). -/
structure Ddr where
  /-- CHANNELS (R737 14). -/
  channels : Nat
  /-- RANKS (R737 14). -/
  ranks : Nat
  /-- WIDTH (R737 14). -/
  width : Nat
  /-- DENSITY (R737 14). -/
  density : Nat
  /-- SPEED (R737 14). -/
  speed : Nat
  /-- DDRC_LONG_SIZE, 32 when the calibration record gives none (R699 14). -/
  longSize : Nat
  /-- PERIOD_H (R737 14). -/
  periodH : Nat
  /-- ENABLE (R737 14). -/
  scrubEn : Bool
  /-- THRESHOLD (R737 14). -/
  threshold : Nat
  /-- RADIUS (R737 14). -/
  radius : Nat
  /-- PANIC_LOW (R737 14). -/
  panicLow : Nat
  /-- PANIC_HIGH (R737 14). -/
  panicHigh : Nat
  /-- TRACK_MS (R737 14). -/
  trackMs : Nat
  /-- channels (R738 14). -/
  chs : Tab DdrCh
  /-- MEM_SCRUB ranges in progress (R735 14). -/
  scrubs : List Scrub
  deriving DecidableEq, Repr

/-- Ddr at reset. -/
def Ddr.reset : Ddr where
  channels := 1
  ranks := 1
  width := 0
  density := 0
  speed := 0
  longSize := 32
  periodH := 24
  scrubEn := true
  threshold := 2048
  radius := 0
  panicLow := 16
  panicHigh := 24
  trackMs := 100
  chs := []
  scrubs := []

/-- one on-chip bank (14 R740, R741). -/
structure Bank where
  /-- OWNER, HOME at power-on (R716 14). -/
  owner : Nat
  /-- POWER, ON at power-on (R716 14). -/
  power : Nat
  /-- BUSY (R741 14). -/
  busy : Bool
  /-- owner set at the end of the handover (R719 14). -/
  newOwner : Nat
  /-- power state set at the end of the handover (R719 14). -/
  newPower : Nat
  /-- REQ_OWNER as last written (R740 14). -/
  reqOwner : Nat
  /-- REQ_POWER as last written (R740 14). -/
  reqPower : Nat
  /-- REFUSED (R741 14). -/
  refused : Bool
  /-- SCREE_ACTIVE (R741 14). -/
  scree : Bool
  /-- CONTINUOUS (R733 14). -/
  screeCont : Bool
  /-- INTERVAL_US, default 100 (R730 14). -/
  screeUs : Nat
  /-- activity of the Scree (R546 14). -/
  screeAct : Nat
  /-- next region (R740 14). -/
  screePos : Nat
  /-- passes completed (R740 14). -/
  screePass : Nat
  /-- SRAMC_SCREE_FAILS (R740 14). -/
  screeFails : Nat
  /-- remapped regions, the latest first (SPARES_USED is their number) (R730 R741 14). -/
  remaps : List Nat
  /-- SPARES_OUT (R741 14). -/
  sparesOut : Bool
  /-- SRAMC_CE_COUNT (R740 14). -/
  ce : Nat
  /-- SRAMC_UE_COUNT (R740 14). -/
  ue : Nat
  /-- UE of SRAMC_ERR_ADDR (R740 14). -/
  errUe : Bool
  /-- word offset of the last error (R740 14). -/
  errOff : Nat
  /-- SRAMC_STALLS (R740 14). -/
  stalls : Nat
  /-- MEM_BANK_HANDOVER in progress (R735 14). -/
  handRef : Option PktRef
  /-- its activity (R546 14). -/
  handAct : Nat
  /-- DIAG_MEMTEST in progress (R843 14). -/
  memtest : Option PktRef
  deriving DecidableEq, Repr

/-- Bank at reset. -/
def Bank.reset : Bank where
  owner := 1
  power := 0
  busy := false
  newOwner := 1
  newPower := 0
  reqOwner := 1
  reqPower := 0
  refused := false
  scree := false
  screeCont := false
  screeUs := 100
  screeAct := 0
  screePos := 0
  screePass := 0
  screeFails := 0
  remaps := []
  sparesOut := false
  ce := 0
  ue := 0
  errUe := false
  errOff := 0
  stalls := 0
  handRef := none
  handAct := 0
  memtest := none

/-- one wear indicator (16 R832, R835). -/
structure WearInd where
  /-- latest value (R842 16). -/
  latest : Nat
  /-- daily samples, newest first, at most 64 (R833 16). -/
  samples : List Nat
  /-- LIMIT, the default limit of R832 (0 = none) (R832 16). -/
  limit : Nat
  /-- WINDOW (R842 16). -/
  window : Nat
  /-- WARN_H (R842 16). -/
  warnH : Nat
  /-- its WEAR_ALERT bit (R877 16). -/
  alert : Bool
  /-- UID of the head the history belongs to (R834 16). -/
  uid : Nat
  /-- the first sample a drift is measured against (R832 16). -/
  first : Option Nat
  deriving DecidableEq, Repr

/-- WearInd at reset. -/
def WearInd.reset : WearInd where
  latest := 0
  samples := []
  limit := 0
  window := 30
  warnH := 720
  alert := false
  uid := 0
  first := none

/-- WEAR block (16, 18 R877). -/
structure Wear where
  /-- indicators by ID (R832 16). -/
  inds : Tab WearInd
  /-- TB_2 (ns) of the last daily sample, from which WEAR_STATUS counts hours (R877 18). -/
  sampleNs : Nat
  /-- daily samples stored (R877 18). -/
  stored : Nat
  /-- HISTORY_VALID (R877 18). -/
  valid : Bool
  /-- the history in the calibration region of the NOR flash, with the samples stored (R833 16). -/
  saved : Option (Tab WearInd × Nat)
  deriving DecidableEq, Repr

/-- Wear at reset. -/
def Wear.reset : Wear where
  inds := []
  sampleNs := 0
  stored := 0
  valid := false
  saved := none

/-- a running DIAG_LOOPBACK (16 R843). -/
structure Loopback where
  /-- TARGET (R843 16). -/
  target : Nat
  /-- packet (R843 16). -/
  ref : PktRef
  deriving DecidableEq, Repr

/-- Loopback at reset. -/
def Loopback.reset : Loopback where
  target := 0
  ref := (0,0)

/-- a SYS_FW_WRITE in progress (15 R791). -/
structure FwWrite where
  /-- packet (R791 15). -/
  ref : PktRef
  /-- flash address (R791 15). -/
  addr : Nat
  /-- the region is erased first (R791 15). -/
  erase : Bool
  /-- region length (R791 15). -/
  len : Nat
  /-- bytes to program (R791 15). -/
  data : List Nat
  deriving DecidableEq, Repr

/-- FwWrite at reset. -/
def FwWrite.reset : FwWrite where
  ref := (0,0)
  addr := 0
  erase := false
  len := 0
  data := []

/-- diagnostics and flash programming in progress. -/
structure Diag where
  /-- running loopbacks (R843 16). -/
  loops : List Loopback
  /-- SYS_FW_WRITE in progress (R791 15). -/
  fw : Option FwWrite
  deriving DecidableEq, Repr

/-- Diag at reset. -/
def Diag.reset : Diag where
  loops := []
  fw := none

/-- What the device sends to the outside world. The trace is the model's own; each constructor names what a rule of
the spec makes the device send. -/
inductive Out where
  /-- a completion written to its completion queue, the mailbox or a CPL datagram (R97, R107) -/
  | cpl (c : Cpl)
  /-- a report record written to the report queue of a stream or sent in an RPT datagram (R62, R163) -/
  | report (stream : Nat) (r : Report)
  /-- an MSI-X message (R166) -/
  | msix (vector : Nat)
  /-- bytes written to host memory -/
  | hostWrite (addr : Nat) (bytes : List Nat)
  /-- bytes read by the device from host memory, as a request it issued -/
  | hostRead (addr len : Nat)
  /-- a Flomund datagram: TYPE, ring, and the payload's numbers (R148) -/
  | datagram (type ring : Nat) (payload : List Nat)
  /-- a TX frame on a head port: TYPE, TSEQ and its fields as numbers (R451) -/
  | frame (port type tseq : Nat) (fields : List Nat)
  /-- an ARM ordered set (R467) -/
  | arm (port line : Nat)
  /-- a VOID ordered set (R471) -/
  | void (port line dlo dhi : Nat)
  /-- training ordered sets on the TX lanes: 1 = TS1, 2 = TS2, 0 = IDLE (R479) -/
  | train (port set : Nat)
  /-- an FSYNC edge of a port at a TB_2 time in 2^-16 ns, with its stream line (R429) -/
  | fsync (port time line : Nat)
  /-- an I2C transaction with a head's memory: register, bytes written, bytes to read (R495) -/
  | i2c (port reg : Nat) (wr : List Nat) (rd : Nat)
  /-- an AVSBus transaction: 0 = write and commit the target in mV, 1 = Voltage, 2 = Current, 3 = Status (R535) -/
  | avs (kind value : Nat)
  /-- a PTP message of a base's instance: messageType, sequence, values (R565) -/
  | ptp (base type seq : Nat) (values : List Int)
  /-- a frame or PTP message relayed to the other Ethernet port, with the correction added in 2^-16 ns (R569, R570) -/
  | relay (port : Nat) (correction : Int) (bytes : List Nat)
  /-- a ball's level (signal tables) -/
  | pin (p : Pin) (index : Nat) (high : Bool)
  /-- a capture record moved to the host capture queue (R286) -/
  | capture (stream : Nat) (bytes : List Nat)
  /-- a response on the management SPI (R169) -/
  | mspi (bytes : List Nat)
  /-- the value a register read returns: its path, 0 = BAR0, 1 = MSPI, 2 = command, BAR0 offset and value (R13) -/
  | regRead (path addr value : Nat)
  /-- a flash operation: 0 = erase, 1 = program, at an address and length (R785) -/
  | flash (op addr len : Nat)
  deriving DecidableEq, Repr

/-- every register, buffer, counter, mode and pin of the device but its byte-addressed memories. -/
structure Dev where
  /-- SYS block (R871 18). -/
  sys : Sys
  /-- PWR block (R800 15). -/
  pwr : Pwr
  /-- CLK block (R802 15). -/
  clk : Clk
  /-- FLT block (R845 16). -/
  flt : Flt
  /-- RING block (R98 03). -/
  rings : Rings
  /-- Cairn (R68 02). -/
  imp : Imp
  /-- STAGE objects and DMA (R173 04). -/
  ing : Ingest
  /-- CODEC block (R283 05). -/
  codec : Codec
  /-- SCR block (R335 06). -/
  scr : Scr
  /-- NOZ block (R386 07). -/
  noz : Noz
  /-- FIRE block (R437 08). -/
  fire : Fire
  /-- HLINK block (R505 09). -/
  hl : Hl
  /-- SCHED and THERM blocks (R557 10). -/
  sched : Sched
  /-- TIME block (R598 11). -/
  time : Time
  /-- MOT block (R646 12). -/
  mot : Mot
  /-- BL and LOOP blocks (R691 13). -/
  bl : Bl
  /-- DDRC block (R737 14). -/
  ddr : Ddr
  /-- on-chip banks SRAM_0 to SRAM_11 (R740 14). -/
  banks : Tab Bank
  /-- WEAR block (R877 18). -/
  wear : Wear
  /-- tests and flash programming in progress (R843 16). -/
  diag : Diag
  /-- trace of what the device sent to the outside, newest first (R97 03). -/
  out : List Out
  /-- number of free values taken so far (R109 03). -/
  free : Nat
  deriving DecidableEq, Repr

/-- Dev at reset. -/
def Dev.reset : Dev where
  sys := Sys.reset
  pwr := Pwr.reset
  clk := Clk.reset
  flt := Flt.reset
  rings := Rings.reset
  imp := Imp.reset
  ing := Ingest.reset
  codec := Codec.reset
  scr := Scr.reset
  noz := Noz.reset
  fire := Fire.reset
  hl := Hl.reset
  sched := Sched.reset
  time := Time.reset
  mot := Mot.reset
  bl := Bl.reset
  ddr := Ddr.reset
  banks := []
  wear := Wear.reset
  diag := Diag.reset
  out := []
  free := 0

/-- A byte-addressed memory: (address, byte) pairs in canonical form, addresses strictly rising, and no pair equal to what
an unlisted address reads as. -/
abbrev Memory := List Host.Cell

/-- What an unlisted byte of on-chip SRAM reads as: banks are cleared to zero at power-on (R716). -/
def sramDefault : BitVec 8 := 0

/-- What an unlisted byte of the NOR flash reads as: an erased byte, all ones (R71 for records; DESIGN CHOICE, log
entry 4, for a flash nothing has programmed). -/
def flashDefault : BitVec 8 := 0xFF

/-- Canonical form of a memory whose unlisted bytes read as d. -/
def Memory.wf (d : BitVec 8) : Memory → Bool
  | [] => true
  | [(_, b)] => b != d
  | (a, b) :: (a', b') :: rest => b != d && decide (a < a') && Memory.wf d ((a', b') :: rest)

/-- The byte-addressed memories: the on-chip banks (bank n's byte x at 2 MiB × n + x) and the NOR flash. -/
structure Mems where
  /-- on-chip banks SRAM_0 to SRAM_11, 24 MiB (R716) -/
  sram : Memory
  /-- the QSPI NOR flash by flash address (R785) -/
  flash : Memory
  deriving DecidableEq, Repr

/-- The machine. -/
structure State where
  /-- the commands that wait, first in, first out -/
  pending : List Instr
  /-- the device -/
  dev : Dev
  /-- its byte-addressed memories -/
  mem : Mems
  deriving DecidableEq, Repr

/-- Why a command stops without an effect in the spec. -/
inductive Fault where
  /-- An access to a byte beyond the last byte of the on-chip banks (R716: twelve banks of 2 MiB). Raised by no meaning:
  every window of the spec ends inside them. Safe. -/
  | noSuchByte (addr : Nat)
  deriving DecidableEq, Repr

/-- Why a command is refused. -/
inductive Refusal where
  /-- The model gives the command no meaning yet. Raised by the dispatch arms alone. Safe. -/
  | notModelled (mnemonic : String)
  deriving DecidableEq, Repr

/-- The machine right after power-on: VDD_AON good, PD_0 running, the other domains in RESET, nothing booted (R780, R794);
no command waits. -/
def State.reset : State where
  pending := []
  dev := Dev.reset
  mem := { sram := [], flash := [] }

end Sys2Proof.Machine
end

