-- ==== Sys2Proof/Word.lean ====
section
/-! DEFINITION. The word types of the register interface and the plainest arithmetic on numbers of a fixed width. -/

namespace Sys2Proof

/-- A register: 32 bits on a 32-bit boundary (R11). -/
abbrev Word := BitVec 32

/-- A byte. -/
abbrev Byte := BitVec 8

/-- The lowest w bits of a number. -/
def low (w n : Nat) : Nat := n % 2 ^ w

end Sys2Proof
end

