-- ==== Sys2Proof/Machine/Ops.lean ====
section
/-! DEFINITION. The named operations every meaning uses: sparse tables, memories, fields of words, the accessors of the
device's replicated units, the wrappers that gate a command by power and domain, and the trace. -/

namespace Sys2Proof.Machine

/-! ## Sparse tables -/

/-- Element n of a table; def0 where the table lists none. -/
def Tab.get {α : Type} (def0 : α) : Tab α → Nat → α
  | [], _ => def0
  | (i, x) :: t, n => if i = n then x else Tab.get def0 t n

/-- The table with element n set to x, in rising order of index. -/
def Tab.set {α : Type} (n : Nat) (x : α) : Tab α → Tab α
  | [] => [(n, x)]
  | (i, y) :: t => if n < i then (n, x) :: (i, y) :: t else if n = i then (n, x) :: t else (i, y) :: Tab.set n x t

/-- The table without element n. -/
def Tab.erase {α : Type} (n : Nat) (t : Tab α) : Tab α := t.filter (fun p => p.1 != n)

/-! ## Byte-addressed memories -/

/-- The byte at an address; def0 where the memory lists none. -/
def Memory.read (def0 : BitVec 8) : Memory → Nat → BitVec 8
  | [], _ => def0
  | (i, x) :: t, a => if i = a then x else Memory.read def0 t a

/-- The memory with one byte written, in canonical form: the default value is not listed. -/
def Memory.write (def0 : BitVec 8) (a : Nat) (b : BitVec 8) : Memory → Memory
  | [] => if b = def0 then [] else [(a, b)]
  | (i, x) :: t =>
    if a < i then (if b = def0 then (i, x) :: t else (a, b) :: (i, x) :: t)
    else if a = i then (if b = def0 then t else (a, b) :: t)
    else (i, x) :: Memory.write def0 a b t

/-- The memory with a list of bytes written at rising addresses from a. -/
def Memory.writeList (def0 : BitVec 8) (a : Nat) : List (BitVec 8) → Memory → Memory
  | [], m => m
  | b :: bs, m => Memory.writeList def0 (a + 1) bs (Memory.write def0 a b m)

/-- The n bytes from address a. -/
def Memory.readList (def0 : BitVec 8) (m : Memory) (a n : Nat) : List (BitVec 8) :=
  (List.range n).map (fun i => Memory.read def0 m (a + i))

/-- The memory with every byte of [a, a + n) at its default value. -/
def Memory.clear (a n : Nat) (m : Memory) : Memory := m.filter (fun c => !(decide (a ≤ c.1) && decide (c.1 < a + n)))

/-! ## Fields of numbers and byte strings -/

/-- A little-endian byte string as a number (R5). -/
def leNat : List Nat → Nat
  | [] => 0
  | b :: t => b % 256 + 256 * leNat t

/-- The n lowest bytes of a number, lowest first (R5). -/
def leBytes : Nat → Nat → List Nat
  | 0, _ => []
  | n + 1, x => x % 256 :: leBytes n (x / 256)

/-- Bits [lo + w - 1 : lo] of a number. -/
def bits (x lo w : Nat) : Nat := x / 2 ^ lo % 2 ^ w

/-- A w-bit two's complement number as an integer. -/
def sInt (w x : Nat) : Int := if x % 2 ^ w < 2 ^ (w - 1) then (x % 2 ^ w : Nat) else (x % 2 ^ w : Nat) - (2 ^ w : Nat)

/-- An integer as its w-bit two's complement pattern. -/
def twos (w : Nat) (x : Int) : Nat := (x % (2 ^ w : Nat)).toNat

/-- One bit as a number. -/
def b2n (b : Bool) : Nat := if b then 1 else 0

/-- Is a later than b, counting modulo 2^w (R19)? -/
def later (w a b : Nat) : Bool :=
  let d := (a % 2 ^ w + 2 ^ w - b % 2 ^ w) % 2 ^ w
  decide (1 ≤ d) && decide (d ≤ 2 ^ (w - 1) - 1)

/-- a + 1 on a counter of w bits that saturates. -/
def satInc (w a : Nat) : Nat := if a + 1 < 2 ^ w then a + 1 else 2 ^ w - 1

/-- An integer held between two bounds. -/
def clampI (x lo hi : Int) : Int := if x < lo then lo else if hi < x then hi else x

/-- The quotient num / den rounded as the part rounds (Config.roundUp): exact where den divides num, else one of the two
neighbours (log entry 7). -/
def roundOpen (tag : Nat) (num den : Int) : Int :=
  if num % den = 0 then num / den
  else if Config.roundUp tag num den then num / den + 1 else num / den

/-- num / den rounded to the nearest integer, half away from zero (chapter 13, control loops; R515). -/
def roundHalfAway (num den : Int) : Int :=
  if 0 ≤ num then (2 * num + den) / (2 * den) else - ((2 * (-num) + den) / (2 * den))

/-- A field of a packet's payload: w bits from bit lo of the byte at offset byte (R5, R103). -/
def Packet.fld (p : Packet) (byte lo w : Nat) : Nat := bits (leNat p.payload) (8 * byte + lo) w

/-- A signed field of a packet's payload. -/
def Packet.sfld (p : Packet) (byte lo w : Nat) : Int := sInt w (p.fld byte lo w)

/-- A one-bit field of a packet's payload. -/
def Packet.flag (p : Packet) (byte lo : Nat) : Bool := p.fld byte lo 1 = 1

/-- Are all reserved payload fields, given as (byte, lowest bit, width), zero (R7)? -/
def Packet.resvOk (p : Packet) (l : List (Nat × Nat × Nat)) : Bool := l.all (fun f => p.fld f.1 f.2.1 f.2.2 = 0)

/-- The group of a packet's opcode (R103). -/
def Packet.group (p : Packet) : Nat := p.op / 256

/-- A packet's name. -/
def Packet.ref (p : Packet) : PktRef := (p.ring, p.seq)

/-- The first condition that holds gives its status; the checks of a command in the order its chapter lists them. -/
def firstFail : List (Bool × Status) → Option Status
  | [] => none
  | (c, st) :: t => if c then some st else firstFail t

/-- The status code of a completion (R109). -/
def Status.code : Status → Nat
  | .done => 0 | .doneEmpty => 1 | .accepted => 2 | .queued => 3 | .duplicate => 4 | .alreadyAccepted => 5
  | .alreadyPrinted => 6 | .malformed => 0x40 | .badOpcode => 0x41 | .badTarget => 0x42 | .badLength => 0x43
  | .badField => 0x44 | .badTrigger => 0x45 | .wrongDevice => 0x46 | .stale => 0x47 | .badSeq => 0x48 | .busy => 0x60
  | .tooLate => 0x61 | .unknownId => 0x62 | .notFinal => 0x63 | .late => 0x64 | .timeout => 0x65 | .aborted => 0x66
  | .barrierMismatch => 0x67 | .noResource => 0x68 | .notInSaddle => 0x69 | .refused => 0x6A | .badId => 0x80
  | .badStream => 0x81 | .badPolicy => 0x82 | .badStart => 0x83 | .badSource => 0x84 | .idConflict => 0x85
  | .cairnFull => 0x86 | .badHorizon => 0x87 | .checksum => 0xA0 | .expansion => 0xA1 | .notSmaller => 0xA2
  | .badBitstream => 0xA3 | .signature => 0xA4 | .compareMismatch => 0xA5 | .authFailed => 0xA6 | .fetchError => 0xC0
  | .writeError => 0xC1 | .eccUncorrectable => 0xC2 | .linkDown => 0xC3 | .safeState => 0xE0 | .unitReset => 0xE1
  | .powerShed => 0xE2 | .internal => 0xE3

/-! ## Defaults that differ by index -/

/-- A fault source after power-on: the reaction of R807's table; QUIET_MS 100, TIMER_US 10,000 (R836). -/
def Src.resetOf (n : Nat) : Src :=
  { Src.reset with
    reaction := if n = 12 || n = 13 then .reset
      else if n = 9 || n = 94 || n = 204 || n = 205 || n = 242 || n = 243 || n = 246 then .safe else .log }

/-- A rail after power-on: the boot rails 0 to 4 hold the fixed settings of R743; the others are unconfigured. Boot rail
voltages in mV at the ball, QUAL in 0.1 ms. -/
def Rail.resetOf (n : Nat) : Rail :=
  let boot (uv ov off : Nat) : Rail :=
    { Rail.reset with
      configured := true, order := n, failDevice := true, uv := uv, ov := ov, off := off, qual := 10, riseMs := 10,
      fallMs := 10, prereq := if n = 0 then 0 else 2 ^ (n - 1) }
  match n with
  | 0 => boot 550 950 100
  | 1 => boot 680 830 100
  | 2 => boot 840 960 100
  | 3 => boot 1040 1170 150
  | 4 => boot 1550 1750 250
  | _ => Rail.reset

/-- A PLL after power-on: dividers that give the outputs of R768 (log entry 3). OUT_DIV_k sits in [8k+5:8k] (R802):
SYSPLL 5, 10, 8, 20 and DDRPLL 2, 8. -/
def Pll.resetOf (n : Nat) : Pll :=
  let mk (fb out : Nat) : Pll := { Pll.reset with fbDiv := fb, aFb := fb, outDiv := out, aOut := out }
  match n with
  | 0 => mk 200 (5 + 10 * 2 ^ 8 + 8 * 2 ^ 16 + 20 * 2 ^ 24)
  | 1 => mk 192 (2 + 8 * 2 ^ 8)
  | _ => Pll.reset

/-- A time base after power-on: DOMAIN 0 for TB_0 and 1 for TB_1 (R571). -/
def Tb.resetOf (n : Nat) : Tb := { Tb.reset with domain := n }

/-- A wear indicator: the default limit of R832. -/
def WearInd.resetOf (n : Nat) : WearInd :=
  { WearInd.reset with
    limit := if n = 0x10 || n = 0x11 || n = 0x12 then 1000 else if n = 0x13 then 30000
      else if 0x28 ≤ n && n ≤ 0x2E then 1000000 else if 0x30 ≤ n && n ≤ 0x3F then 250
      else if n = 0x40 then 100000 else 0 }

/-! ## The device's replicated units -/

/-- Element n of flt.srcs. -/
def Dev.src (d : Dev) (n : Nat) : Src := Tab.get (Src.resetOf n) d.flt.srcs n

/-- The device with element n of flt.srcs changed by f. -/
def Dev.modSrc (n : Nat) (f : Src → Src) (d : Dev) : Dev :=
  { d with flt := { d.flt with srcs := Tab.set n (f (d.src n)) d.flt.srcs } }

/-- Element n of pwr.rails. -/
def Dev.rail (d : Dev) (n : Nat) : Rail := Tab.get (Rail.resetOf n) d.pwr.rails n

/-- The device with element n of pwr.rails changed by f. -/
def Dev.modRail (n : Nat) (f : Rail → Rail) (d : Dev) : Dev :=
  { d with pwr := { d.pwr with rails := Tab.set n (f (d.rail n)) d.pwr.rails } }

/-- Element n of pwr.domains. -/
def Dev.dom (d : Dev) (n : Nat) : Dom := Tab.get Dom.reset d.pwr.domains n

/-- The device with element n of pwr.domains changed by f. -/
def Dev.modDom (n : Nat) (f : Dom → Dom) (d : Dev) : Dev :=
  { d with pwr := { d.pwr with domains := Tab.set n (f (d.dom n)) d.pwr.domains } }

/-- Element n of pwr.srst. -/
def Dev.srst (d : Dev) (n : Nat) : Srst := Tab.get Srst.reset d.pwr.srst n

/-- The device with element n of pwr.srst changed by f. -/
def Dev.modSrst (n : Nat) (f : Srst → Srst) (d : Dev) : Dev :=
  { d with pwr := { d.pwr with srst := Tab.set n (f (d.srst n)) d.pwr.srst } }

/-- Element n of clk.plls. -/
def Dev.pll (d : Dev) (n : Nat) : Pll := Tab.get (Pll.resetOf n) d.clk.plls n

/-- The device with element n of clk.plls changed by f. -/
def Dev.modPll (n : Nat) (f : Pll → Pll) (d : Dev) : Dev :=
  { d with clk := { d.clk with plls := Tab.set n (f (d.pll n)) d.clk.plls } }

/-- Element n of rings.rings. -/
def Dev.ring (d : Dev) (n : Nat) : Ring := Tab.get Ring.reset d.rings.rings n

/-- The device with element n of rings.rings changed by f. -/
def Dev.modRing (n : Nat) (f : Ring → Ring) (d : Dev) : Dev :=
  { d with rings := { d.rings with rings := Tab.set n (f (d.ring n)) d.rings.rings } }

/-- Element n of rings.rptq. -/
def Dev.rptq (d : Dev) (n : Nat) : RptQ := Tab.get RptQ.reset d.rings.rptq n

/-- The device with element n of rings.rptq changed by f. -/
def Dev.modRptq (n : Nat) (f : RptQ → RptQ) (d : Dev) : Dev :=
  { d with rings := { d.rings with rptq := Tab.set n (f (d.rptq n)) d.rings.rptq } }

/-- Element n of imp.entries. -/
def Dev.entry (d : Dev) (n : Nat) : Entry := Tab.get Entry.reset d.imp.entries n

/-- The device with element n of imp.entries changed by f. -/
def Dev.modEntry (n : Nat) (f : Entry → Entry) (d : Dev) : Dev :=
  { d with imp := { d.imp with entries := Tab.set n (f (d.entry n)) d.imp.entries } }

/-- Element n of imp.streams. -/
def Dev.ist (d : Dev) (n : Nat) : ImpStream := Tab.get ImpStream.reset d.imp.streams n

/-- The device with element n of imp.streams changed by f. -/
def Dev.modIst (n : Nat) (f : ImpStream → ImpStream) (d : Dev) : Dev :=
  { d with imp := { d.imp with streams := Tab.set n (f (d.ist n)) d.imp.streams } }

/-- Element n of ing.objs. -/
def Dev.obj (d : Dev) (n : Nat) : Obj := Tab.get Obj.reset d.ing.objs n

/-- The device with element n of ing.objs changed by f. -/
def Dev.modObj (n : Nat) (f : Obj → Obj) (d : Dev) : Dev :=
  { d with ing := { d.ing with objs := Tab.set n (f (d.obj n)) d.ing.objs } }

/-- Element n of ing.chans. -/
def Dev.chan (d : Dev) (n : Nat) : Dma := Tab.get Dma.reset d.ing.chans n

/-- The device with element n of ing.chans changed by f. -/
def Dev.modChan (n : Nat) (f : Dma → Dma) (d : Dev) : Dev :=
  { d with ing := { d.ing with chans := Tab.set n (f (d.chan n)) d.ing.chans } }

/-- Element n of codec.capq. -/
def Dev.capq (d : Dev) (n : Nat) : CapQ := Tab.get CapQ.reset d.codec.capq n

/-- The device with element n of codec.capq changed by f. -/
def Dev.modCapq (n : Nat) (f : CapQ → CapQ) (d : Dev) : Dev :=
  { d with codec := { d.codec with capq := Tab.set n (f (d.capq n)) d.codec.capq } }

/-- Element n of codec.capBlocks. -/
def Dev.capBlock (d : Dev) (n : Nat) : CapBlock := Tab.get CapBlock.reset d.codec.capBlocks n

/-- The device with element n of codec.capBlocks changed by f. -/
def Dev.modCapBlock (n : Nat) (f : CapBlock → CapBlock) (d : Dev) : Dev :=
  { d with codec := { d.codec with capBlocks := Tab.set n (f (d.capBlock n)) d.codec.capBlocks } }

/-- Element n of scr.streams. -/
def Dev.sst (d : Dev) (n : Nat) : ScrStream := Tab.get ScrStream.reset d.scr.streams n

/-- The device with element n of scr.streams changed by f. -/
def Dev.modSst (n : Nat) (f : ScrStream → ScrStream) (d : Dev) : Dev :=
  { d with scr := { d.scr with streams := Tab.set n (f (d.sst n)) d.scr.streams } }

/-- Element n of scr.dropMaps. -/
def Dev.dropMap (d : Dev) (n : Nat) : DropMap := Tab.get DropMap.reset d.scr.dropMaps n

/-- The device with element n of scr.dropMaps changed by f. -/
def Dev.modDropMap (n : Nat) (f : DropMap → DropMap) (d : Dev) : Dev :=
  { d with scr := { d.scr with dropMaps := Tab.set n (f (d.dropMap n)) d.scr.dropMaps } }

/-- Element n of scr.thresh. -/
def Dev.thresh (d : Dev) (n : Nat) : Thresh := Tab.get Thresh.reset d.scr.thresh n

/-- The device with element n of scr.thresh changed by f. -/
def Dev.modThresh (n : Nat) (f : Thresh → Thresh) (d : Dev) : Dev :=
  { d with scr := { d.scr with thresh := Tab.set n (f (d.thresh n)) d.scr.thresh } }

/-- Element n of scr.diff. -/
def Dev.diffSet (d : Dev) (n : Nat) : Diff := Tab.get Diff.reset d.scr.diff n

/-- The device with element n of scr.diff changed by f. -/
def Dev.modDiffSet (n : Nat) (f : Diff → Diff) (d : Dev) : Dev :=
  { d with scr := { d.scr with diff := Tab.set n (f (d.diffSet n)) d.scr.diff } }

/-- Element n of noz.streams. -/
def Dev.nst (d : Dev) (n : Nat) : NozStream := Tab.get NozStream.reset d.noz.streams n

/-- The device with element n of noz.streams changed by f. -/
def Dev.modNst (n : Nat) (f : NozStream → NozStream) (d : Dev) : Dev :=
  { d with noz := { d.noz with streams := Tab.set n (f (d.nst n)) d.noz.streams } }

/-- Element n of noz.ports. -/
def Dev.nport (d : Dev) (n : Nat) : NozPort := Tab.get NozPort.reset d.noz.ports n

/-- The device with element n of noz.ports changed by f. -/
def Dev.modNport (n : Nat) (f : NozPort → NozPort) (d : Dev) : Dev :=
  { d with noz := { d.noz with ports := Tab.set n (f (d.nport n)) d.noz.ports } }

/-- Element n of fire.encs. -/
def Dev.enc (d : Dev) (n : Nat) : Enc := Tab.get Enc.reset d.fire.encs n

/-- The device with element n of fire.encs changed by f. -/
def Dev.modEnc (n : Nat) (f : Enc → Enc) (d : Dev) : Dev :=
  { d with fire := { d.fire with encs := Tab.set n (f (d.enc n)) d.fire.encs } }

/-- Element n of fire.streams. -/
def Dev.fst (d : Dev) (n : Nat) : FireStream := Tab.get FireStream.reset d.fire.streams n

/-- The device with element n of fire.streams changed by f. -/
def Dev.modFst (n : Nat) (f : FireStream → FireStream) (d : Dev) : Dev :=
  { d with fire := { d.fire with streams := Tab.set n (f (d.fst n)) d.fire.streams } }

/-- Element n of fire.ports. -/
def Dev.fport (d : Dev) (n : Nat) : FirePort := Tab.get FirePort.reset d.fire.ports n

/-- The device with element n of fire.ports changed by f. -/
def Dev.modFport (n : Nat) (f : FirePort → FirePort) (d : Dev) : Dev :=
  { d with fire := { d.fire with ports := Tab.set n (f (d.fport n)) d.fire.ports } }

/-- Element n of hl.ports. -/
def Dev.hp (d : Dev) (n : Nat) : HlPort := Tab.get HlPort.reset d.hl.ports n

/-- The device with element n of hl.ports changed by f. -/
def Dev.modHp (n : Nat) (f : HlPort → HlPort) (d : Dev) : Dev :=
  { d with hl := { d.hl with ports := Tab.set n (f (d.hp n)) d.hl.ports } }

/-- Element n of sched.ports. -/
def Dev.pmodel (d : Dev) (n : Nat) : PortModel := Tab.get PortModel.reset d.sched.ports n

/-- The device with element n of sched.ports changed by f. -/
def Dev.modPmodel (n : Nat) (f : PortModel → PortModel) (d : Dev) : Dev :=
  { d with sched := { d.sched with ports := Tab.set n (f (d.pmodel n)) d.sched.ports } }

/-- Element n of sched.zones. -/
def Dev.zone (d : Dev) (n : Nat) : ZoneModel := Tab.get ZoneModel.reset d.sched.zones n

/-- The device with element n of sched.zones changed by f. -/
def Dev.modZone (n : Nat) (f : ZoneModel → ZoneModel) (d : Dev) : Dev :=
  { d with sched := { d.sched with zones := Tab.set n (f (d.zone n)) d.sched.zones } }

/-- Element n of time.tb. -/
def Dev.tb (d : Dev) (n : Nat) : Tb := Tab.get (Tb.resetOf n) d.time.tb n

/-- The device with element n of time.tb changed by f. -/
def Dev.modTb (n : Nat) (f : Tb → Tb) (d : Dev) : Dev :=
  { d with time := { d.time with tb := Tab.set n (f (d.tb n)) d.time.tb } }

/-- Element n of time.tin. -/
def Dev.tin (d : Dev) (n : Nat) : Tin := Tab.get Tin.reset d.time.tin n

/-- The device with element n of time.tin changed by f. -/
def Dev.modTin (n : Nat) (f : Tin → Tin) (d : Dev) : Dev :=
  { d with time := { d.time with tin := Tab.set n (f (d.tin n)) d.time.tin } }

/-- Element n of time.tout. -/
def Dev.tout (d : Dev) (n : Nat) : Tout := Tab.get Tout.reset d.time.tout n

/-- The device with element n of time.tout changed by f. -/
def Dev.modTout (n : Nat) (f : Tout → Tout) (d : Dev) : Dev :=
  { d with time := { d.time with tout := Tab.set n (f (d.tout n)) d.time.tout } }

/-- Element n of time.eth. -/
def Dev.eth (d : Dev) (n : Nat) : EthPort := Tab.get EthPort.reset d.time.eth n

/-- The device with element n of time.eth changed by f. -/
def Dev.modEth (n : Nat) (f : EthPort → EthPort) (d : Dev) : Dev :=
  { d with time := { d.time with eth := Tab.set n (f (d.eth n)) d.time.eth } }

/-- Element n of mot.axes. -/
def Dev.axis (d : Dev) (n : Nat) : Axis := Tab.get Axis.reset d.mot.axes n

/-- The device with element n of mot.axes changed by f. -/
def Dev.modAxis (n : Nat) (f : Axis → Axis) (d : Dev) : Dev :=
  { d with mot := { d.mot with axes := Tab.set n (f (d.axis n)) d.mot.axes } }

/-- Element n of mot.fols. -/
def Dev.fol (d : Dev) (n : Nat) : Fol := Tab.get Fol.reset d.mot.fols n

/-- The device with element n of mot.fols changed by f. -/
def Dev.modFol (n : Nat) (f : Fol → Fol) (d : Dev) : Dev :=
  { d with mot := { d.mot with fols := Tab.set n (f (d.fol n)) d.mot.fols } }

/-- Element n of bl.chs. -/
def Dev.bch (d : Dev) (n : Nat) : BlCh := Tab.get BlCh.reset d.bl.chs n

/-- The device with element n of bl.chs changed by f. -/
def Dev.modBch (n : Nat) (f : BlCh → BlCh) (d : Dev) : Dev :=
  { d with bl := { d.bl with chs := Tab.set n (f (d.bch n)) d.bl.chs } }

/-- Element n of bl.loops. -/
def Dev.lp (d : Dev) (n : Nat) : Loop := Tab.get Loop.reset d.bl.loops n

/-- The device with element n of bl.loops changed by f. -/
def Dev.modLp (n : Nat) (f : Loop → Loop) (d : Dev) : Dev :=
  { d with bl := { d.bl with loops := Tab.set n (f (d.lp n)) d.bl.loops } }

/-- Element n of ddr.chs. -/
def Dev.dch (d : Dev) (n : Nat) : DdrCh := Tab.get DdrCh.reset d.ddr.chs n

/-- The device with element n of ddr.chs changed by f. -/
def Dev.modDch (n : Nat) (f : DdrCh → DdrCh) (d : Dev) : Dev :=
  { d with ddr := { d.ddr with chs := Tab.set n (f (d.dch n)) d.ddr.chs } }

/-- Element n of wear.inds. -/
def Dev.wearInd (d : Dev) (n : Nat) : WearInd := Tab.get (WearInd.resetOf n) d.wear.inds n

/-- The device with element n of wear.inds changed by f. -/
def Dev.modWearInd (n : Nat) (f : WearInd → WearInd) (d : Dev) : Dev :=
  { d with wear := { d.wear with inds := Tab.set n (f (d.wearInd n)) d.wear.inds } }

/-- On-chip bank n. -/
def Dev.bank (d : Dev) (n : Nat) : Bank := Tab.get Bank.reset d.banks n

/-- The device with on-chip bank n changed by f. -/
def Dev.modBank (n : Nat) (f : Bank → Bank) (d : Dev) : Dev :=
  { d with banks := Tab.set n (f (d.bank n)) d.banks }

/-! ## Power, domains and the outcome of a command -/

/-- Is power domain k running: the device powered and the domain ON (R747, R806)? -/
def Dev.on (d : Dev) (k : Nat) : Bool := d.sys.powered && decide (d.dom k = .on)

/-- The state with its device changed. -/
def State.onDev (f : Dev → Dev) (s : State) : State := { s with dev := f s.dev }

/-! ## The trace and the time -/

/-- The device sends o. -/
def Dev.send (o : Out) (d : Dev) : Dev := { d with out := o :: d.out }

/-- MSI-X vector v: the message and its bit of SYS_IRQ_PENDING (R166, R167). -/
def Dev.msix (v : Nat) (d : Dev) : Dev :=
  { d with sys := { d.sys with irqPending := d.sys.irqPending ||| 2 ^ v } }.send (.msix v)

/-- A ball's level. -/
def Dev.pin (p : Pin) (i : Nat) (high : Bool) (d : Dev) : Dev := d.send (.pin p i high)

/-- The next free value, and the device with it taken (log entry 5). -/
def Dev.takeFree (d : Dev) : Nat × Dev := (Config.freeValue d.free, { d with free := d.free + 1 })

/-- TB_2 in whole ns (R563). -/
def Dev.ns (d : Dev) : Nat := d.time.tb2 / 2 ^ 16

/-- Source n's pair turns to raised with a detail code: posted to the collector, which acts at the end of the command
(log entry 19). -/
def Dev.raise (n detail : Nat) (d : Dev) : Dev :=
  { d with flt := { d.flt with todo := d.flt.todo ++ [(true, n, detail)] } }

/-- Source n's pair turns to not raised: posted to the collector. -/
def Dev.lower (n : Nat) (d : Dev) : Dev := { d with flt := { d.flt with todo := d.flt.todo ++ [(false, n, 0)] } }

/-- Fold a function over 0 .. n-1. -/
def forN (n : Nat) (f : Nat → Dev → Dev) (d : Dev) : Dev := (List.range n).foldl (fun d i => f i d) d

/-- Fold a function over a list. -/
def forL {α : Type} (l : List α) (f : α → Dev → Dev) (d : Dev) : Dev := l.foldl (fun d x => f x d) d

/-- One device change when a condition holds. -/
def Dev.when (c : Bool) (f : Dev → Dev) (d : Dev) : Dev := if c then f d else d

end Sys2Proof.Machine
end

