-- ==== Sys2Proof/Machine/Catalogue.lean ====
section
/-! DEFINITION. The opcode catalogue: for each opcode of R114 its TARGET range, whether it may carry a trigger (R116), the
payload sizes its layout allows (step 8 of R110) and whether Saddle mode serves it (R172). -/

namespace Sys2Proof.Machine

/-- What steps 5 to 8 of R110 need of an opcode. -/
structure OpInfo where
  /-- TARGET in the opcode's range -/
  target : Nat → Bool
  /-- may it carry a trigger (R116)? -/
  trigger : Bool
  /-- payload sizes of its layout -/
  size : Nat → Bool
  /-- served in Saddle mode (R172) -/
  saddle : Bool

/-- TARGET from 0 to n. -/
def upTo (n : Nat) : Nat → Bool := fun t => decide (t ≤ n)

/-- Exactly n bytes. -/
def exactly (n : Nat) : Nat → Bool := fun k => k = n

/-- Is n a used indicator ID (R832)? -/
def wearIdOk (n : Nat) : Bool :=
  decide (n ≤ 0x13) || (decide (0x18 ≤ n) && decide (n ≤ 0x2E)) || (decide (0x30 ≤ n) && decide (n ≤ 0x40))

/-- The catalogue row of an opcode; none for an opcode that is not defined. -/
def opInfo (op : Nat) : Option OpInfo :=
  let row (t : Nat → Bool) (trig : Bool) (sz : Nat → Bool) (sad : Bool := false) : Option OpInfo :=
    some { target := t, trigger := trig, size := sz, saddle := sad }
  match op with
  -- SYS (R118 to R121, R791, R792)
  | 0x0000 => row (upTo 0) false (exactly 0) true
  | 0x0001 => row (upTo 0) false (exactly 40)
  | 0x0002 => row (upTo 0) false (exactly 0) true
  | 0x0003 => row (upTo 0) false (exactly 16)
  | 0x0004 => row (upTo 0) false (exactly 8)
  | 0x0005 => row (upTo 0) false (exactly 0)
  | 0x0006 => row (upTo 0) false (exactly 0) true
  | 0x0007 => row (upTo 0) false (fun k => decide (16 ≤ k)) true
  | 0x0008 => row (upTo 0) false (exactly 4) true
  -- REG (R125)
  | 0x0100 => row (upTo 0) true (exactly 8) true
  | 0x0101 => row (upTo 0) true (fun k => decide (8 ≤ k)) true
  | 0x0102 => row (upTo 0) true (exactly 12)
  | 0x0103 => row (upTo 0) false (exactly 16)
  | 0x0104 => row (upTo 0) true (fun k => decide (8 ≤ k))
  | 0x0105 => row (upTo 0) true (exactly 16)
  -- IMP (R885, R128, R130, R38)
  | 0x0200 => row (upTo 0) false (fun k => decide (40 ≤ k) && decide (k ≤ 168) && k % 8 = 0)
  | 0x0201 => row (upTo 0) false (exactly 8)
  | 0x0202 => row (upTo 0) false (exactly 8)
  | 0x0203 => row (upTo 0) false (exactly 8)
  | 0x0204 => row (upTo 3) false (exactly 16)
  | 0x0205 => row (upTo 3) false (exactly 0)
  | 0x02FF => row (upTo 3) false (exactly 0)
  -- STAGE
  | 0x0300 => row (upTo 0) false (exactly 16)
  | 0x0301 => row (upTo 0) false (fun k => decide (16 ≤ k))
  | 0x0302 => row (upTo 0) false (exactly 16)
  | 0x0303 => row (upTo 0) false (exactly 8)
  | 0x0304 => row (upTo 27) false (exactly 48)
  | 0x0305 => row (upTo 27) false (exactly 0)
  | 0x0306 => row (upTo 3) false (exactly 8)
  | 0x03FF => row (upTo 0) false (exactly 0)
  -- SCR
  | 0x0400 => row (upTo 3) true (fun k => decide (16 ≤ k))
  | 0x0401 => row (upTo 3) true (fun k => decide (16 ≤ k))
  | 0x0402 => row (upTo 15) true (fun k => decide (16 ≤ k))
  | 0x0403 => row (upTo 15) true (exactly 28)
  | 0x0404 => row (upTo 15) true (exactly 8)
  | 0x04FF => row (upTo 3) false (exactly 0)
  -- NOZ
  | 0x0500 => row (upTo 3) true (fun k => decide (16 ≤ k))
  | 0x0501 => row (upTo 3) true (fun k => decide (16 ≤ k))
  | 0x0502 => row (upTo 3) true (exactly 16)
  | 0x0503 => row (upTo 3) true (exactly 8)
  | 0x0504 => row (upTo 3) true (fun k => decide (16 ≤ k))
  | 0x0505 => row (upTo 15) true (exactly 16)
  | 0x0506 => row (upTo 15) true (fun k => decide (24 ≤ k))
  | 0x05FF => row (upTo 3) false (exactly 0)
  -- FIRE (R397, R407, R418, R422, R423, R412)
  | 0x0600 => row (upTo 1) true (exactly 16)
  | 0x0601 => row (upTo 1) true (exactly 8)
  | 0x0602 => row (upTo 0) true (exactly 24)
  | 0x0603 => row (upTo 3) true (exactly 24)
  | 0x0604 => row (upTo 3) true (exactly 24)
  | 0x06FF => row (upTo 0) false (exactly 0)
  -- HEAD (R478, R498, R489, R492, R501, R500, R502)
  | 0x0700 => row (upTo 15) true (exactly 8)
  | 0x0701 => row (upTo 15) true (exactly 24)
  | 0x0702 => row (upTo 15) true (fun k => decide (16 ≤ k))
  | 0x0703 => row (upTo 15) true (exactly 16)
  | 0x0704 => row (upTo 15) true (exactly 4)
  | 0x0705 => row (upTo 15) true (exactly 0)
  | 0x07FF => row (upTo 15) false (exactly 0)
  -- TIME (R571, R582, R583, R586, R592, R584, R585; R563 for TARGET 2)
  | 0x0800 => row (upTo 1) true (exactly 24)
  | 0x0801 => row (upTo 1) true (exactly 16)
  | 0x0802 => row (upTo 1) true (exactly 16)
  | 0x0803 => row (upTo 15) true (exactly 32)
  | 0x0804 => row (upTo 7) true (exactly 4)
  | 0x0805 => row (upTo 2) true (exactly 0)
  | 0x08FF => row (upTo 1) false (exactly 0)
  -- MOT (R605, R610, R619, R622, R625, R631, R606, R642)
  | 0x0900 => row (upTo 7) true (exactly 16)
  | 0x0901 => row (upTo 7) true (exactly 16)
  | 0x0902 => row (upTo 7) true (exactly 4)
  | 0x0903 => row (upTo 7) true (exactly 32)
  | 0x0904 => row (upTo 7) true (exactly 8)
  | 0x0905 => row (upTo 7) true (exactly 40)
  | 0x0906 => row (upTo 7) true (exactly 40)
  | 0x09FF => row (upTo 7) false (exactly 0)
  -- BL (R654, R661, R666, R667, R689)
  | 0x0A00 => row (upTo 3) true (exactly 64)
  | 0x0A01 => row (upTo 3) true (exactly 8)
  | 0x0A02 => row (upTo 3) true (exactly 8)
  | 0x0A03 => row (upTo 3) true (exactly 4)
  | 0x0AFF => row (upTo 3) false (exactly 0)
  -- LOOP (R674, R677, R678, R682)
  | 0x0B00 => row (upTo 31) true (exactly 76)
  | 0x0B01 => row (upTo 31) true (exactly 8)
  | 0x0B02 => row (upTo 31) true (exactly 4)
  | 0x0B03 => row (upTo 31) true (exactly 0)
  | 0x0BFF => row (upTo 31) false (exactly 0)
  -- PWR (R749, R754, R755, R524, R525, R747, R115)
  | 0x0C00 => row (upTo 15) true (exactly 24)
  | 0x0C01 => row (upTo 0) true (exactly 4)
  | 0x0C02 => row (upTo 0) true (exactly 4)
  | 0x0C03 => row (upTo 0) true (exactly 4)
  | 0x0C04 => row (upTo 15) true (fun k => k = 16 || k = 32 || k = 40)
  | 0x0C05 => row (fun t => t = 2 || t = 3 || t = 8 || t = 9 || t = 10) true (exactly 4)
  | 0x0CFF => row (upTo 0) false (exactly 0)
  -- MEM (R733)
  | 0x0D00 => row (upTo 11) false (exactly 4)
  | 0x0D01 => row (upTo 1) false (exactly 4)
  | 0x0D02 => row (upTo 0) false (exactly 24)
  | 0x0D03 => row (upTo 11) false (exactly 8)
  | 0x0D04 => row (fun t => decide (t ≤ 1) || (decide (16 ≤ t) && decide (t ≤ 27))) false (exactly 4)
  | 0x0DFF => row (upTo 1) false (exactly 0)
  -- FLT (R836, R838 to R841): a reserved source number is BAD_TARGET, an own check of R837, R838 and R840
  | 0x0E00 => row (upTo 255) false (exactly 8)
  | 0x0E01 => row (upTo 255) false (exactly 0) true
  | 0x0E02 => row (upTo 255) false (exactly 4)
  | 0x0E03 => row (upTo 255) false (exactly 4)
  | 0x0EFF => row (upTo 0) false (exactly 0)
  -- MAINT (R549, R553, R554)
  | 0x0F00 => row (upTo 0) false (exactly 8)
  | 0x0F01 => row (upTo 0) false (exactly 8)
  | 0x0F02 => row (upTo 0) false (exactly 8)
  | 0x0FFF => row (upTo 0) false (exactly 0)
  -- WEAR (R842, R832)
  | 0x1000 => row wearIdOk false (exactly 0) true
  | 0x1001 => row wearIdOk false (exactly 16)
  | 0x10FF => row wearIdOk false (exactly 0)
  -- DIAG (R843; the sizes of LOOPBACK and TRACE are DEDUCED, log entry 13)
  | 0x1100 => row (upTo 0) false (fun k => decide (k ≤ 224)) true
  | 0x1101 => row (upTo 17) false (exactly 4) true
  | 0x1102 => row (upTo 0) false (exactly 4) true
  | 0x1103 => row (upTo 11) false (exactly 0) true
  | 0x11FF => row (upTo 0) false (exactly 0) true
  | _ => none

end Sys2Proof.Machine
end

