-- ==== Sys2Proof/Machine/Rings.lean ====
section
/-! DEFINITION. Flomund rings: parsing a packet's header, the checks of R110 in their order, starting packets, completions,
the deduplication windows, parked packets and the rule by which an opcode's row executes a started packet. -/

namespace Sys2Proof.Machine

/-! ## Packet headers -/

/-- Does the header break its form (R104)? The slot's first 32 bytes, and whether it came over Ethernet or the mailbox. -/
def headerBad (source : Nat) (slot : List Nat) : Bool :=
  let h := leNat (slot.take 32)
  let indirect := bits h 18 1 = 1
  let kind := bits h 19 2
  let src := bits h 21 2
  let value := bits h 192 64
  let addr := bits h 128 64
  bits h 88 4 ≠ 1 || bits h 76 4 ≠ 0 || bits h 92 4 ≠ 0 || bits h 121 7 ≠ 0 || 224 < bits h 80 8 ||
  16777216 < bits h 96 25 || (!indirect && (bits h 96 25 ≠ 0 || addr ≠ 0)) ||
  (indirect && (bits h 80 8 ≠ 0 || addr % 8 ≠ 0 || (source = 1 && addr ≠ 0) || source = 2)) ||
  kind = 3 || (kind = 0 && (src ≠ 0 || value ≠ 0)) || (kind = 1 && src = 3) || (kind = 2 && value / 2 ^ 48 ≠ 0)

/-- The packet a slot of 256 bytes, or a CMD datagram's payload, holds (R103). -/
def parsePacket (ring source : Nat) (slot : List Nat) : Packet :=
  let h := leNat (slot.take 32)
  { Packet.reset with
    ring := ring, seq := bits h 32 32, op := bits h 0 16, target := bits h 24 8, fence := bits h 16 1 = 1,
    irq := bits h 17 1 = 1, trigKind := bits h 19 2, trigSrc := bits h 21 2, trigValue := bits h 192 64,
    lateOk := bits h 23 1 = 1, dest := bits h 64 12, indirect := bits h 18 1 = 1, indirectLen := bits h 96 25,
    payloadAddr := bits h 128 64, payload := (slot.drop 32).take (bits h 80 8), bad := headerBad source slot }

/-! ## Windows -/

/-- Number of slots of a ring (R92). -/
def Ring.slots (r : Ring) : Nat := 2 ^ r.log2Slots

/-- Distance of a SEQ below the top of the window, modulo 2^32. -/
def Ring.depth (r : Ring) (seq : Nat) : Nat := (r.seqTop + 2 ^ 32 - seq % 2 ^ 32) % 2 ^ 32

/-- The window status of a SEQ that no packet in progress carries (R76, R77, R112). -/
def Ring.windowStatus (r : Ring) (seq : Nat) : Option Status :=
  if !r.seqValid then none
  else if later 32 seq r.seqTop then (if 65535 < (seq + 2 ^ 32 - r.seqTop) % 2 ^ 32 then some .badSeq else none)
  else if r.depth seq ≤ 65535 then (if r.window.contains seq then some .duplicate else none)
  else some .stale

/-- A SEQ has been executed: its bit is set and the top moves up to it when it is later (R75, R111). -/
def Ring.markExecuted (seq : Nat) (r : Ring) : Ring :=
  if !r.seqValid then { r with seqValid := true, seqTop := seq, window := [seq] }
  else if later 32 seq r.seqTop then
    let r' := { r with seqTop := seq }
    { r' with
      window := seq :: r.window.filter (fun q => decide (r'.depth q ≤ 65535)),
      windowOf := r.windowOf.filter (fun q => decide (r'.depth q.1 ≤ 65535)) }
  else { r with window := seq :: r.window }

/-! ## Completions -/

/-- The packet with a ring and SEQ that is in progress, waiting duplicates left out. -/
def Dev.packet? (d : Dev) (ref : PktRef) : Option Packet :=
  d.rings.inflight.find? (fun p => p.ring = ref.1 && p.seq = ref.2 && !(p.phase = Phase.dupWait))

/-- The packet in progress is replaced by what f makes of it. -/
def Dev.modPacket (ref : PktRef) (f : Packet → Packet) (d : Dev) : Dev :=
  { d with rings := { d.rings with
      inflight := d.rings.inflight.map (fun p =>
        if p.ring = ref.1 && p.seq = ref.2 && !(p.phase = Phase.dupWait) then f p else p) } }

/-- The bytes of a completion (R107). -/
def Cpl.bytes (c : Cpl) : List Nat :=
  leBytes 4 c.seq ++ [c.status.code, b2n c.phase + 2 * b2n c.triggered + 4 * b2n c.late] ++ leBytes 2 c.aux ++
  leBytes 8 c.result

/-- Message moderation after a completion of ring n (R102). -/
def Dev.ringIrq (n : Nat) (force : Bool) (d : Dev) : Dev :=
  let r := d.ring n
  let pend := r.irqPendingCpl + 1
  let count := if r.irqCount = 0 then 256 else r.irqCount
  if force || r.holdoff = 0 || count ≤ pend then
    (d.modRing n (fun r => { r with irqPendingCpl := 0 })).msix r.irqVector
  else d.modRing n (fun r => { r with irqPendingCpl := pend })

/-- A CPL datagram with a completion leaves on an Ethernet ring and is kept until acknowledged; while the peer is lost it
is kept without being sent (R157 to R159). -/
def Dev.sendEthCpl (n : Nat) (c : Cpl) (d : Dev) : Dev :=
  let r := d.ring n
  let o : EthOut := { EthOut.reset with
    tseq := r.tseqNext, item := c.seq, bytes := c.bytes, rtoMs := d.rings.rtoMs, sends := if r.peerLost then 0 else 1 }
  let d := d.modRing n (fun r => { r with tseqNext := (r.tseqNext + 1) % 2 ^ 32, unacked := r.unacked ++ [o] })
  d.when (!r.peerLost) (Dev.send (.datagram 4 n (o.tseq :: c.bytes)))

/-- The staging slot of a packet, and the data that arrived for it, are freed (R189, R191). -/
def Dev.dropBulk (ref : PktRef) (d : Dev) : Dev :=
  { d with rings := { d.rings with bulks := d.rings.bulks.filter (fun b => !(b.ring = ref.1 && b.seq = ref.2)) } }

/-- A completion is written: into the completion queue, the mailbox or a CPL datagram (R96, R97, R107, R161, R162). -/
def Dev.writeCpl (p : Packet) (st : Status) (result aux : Nat) (d : Dev) : Dev :=
  let r := d.ring p.ring
  let c : Cpl := { ring := p.ring, seq := p.seq, status := st,
                   phase := r.source = 0 && (r.cqTail / r.slots) % 2 = 0,
                   triggered := p.triggered, late := p.late, aux := aux, result := result }
  let d := d.modRing p.ring (fun r => { r with cqTail := (r.cqTail + 1) % 2 ^ 32 })
  let d := d.dropBulk p.ref
  if r.source = 1 then
    if p.dest = 4095 then
      if p.op = 0x0002 then { d with rings := { d.rings with infoReplies := d.rings.infoReplies ++ [c] } }
      else if 0x40 ≤ st.code && st ≠ .duplicate then d.sendEthCpl p.ring c
      else d
    else d.sendEthCpl p.ring c
  else
    let d := d.send (.cpl c)
    let d := if r.source = 2 then
        let i := 4 * (r.cqTail % 16)
        let w (k : Nat) : Nat := leNat ((c.bytes.drop (4 * k)).take 4)
        { d with sys := { d.sys with mbox := { d.sys.mbox with
            cpls := Tab.set (i + 3) (w 3) (Tab.set (i + 2) (w 2) (Tab.set (i + 1) (w 1)
              (Tab.set i (w 0) d.sys.mbox.cpls))) } } }
      else d
    d.ringIrq p.ring p.irq

/-- RESULT and AUX of a DUPLICATE completion: for IMP_SUBMIT those of R129 for the entry the first packet created. -/
def Dev.dupFields (p : Packet) (d : Dev) : Nat × Nat :=
  if p.op = 0x0200 then
    match (d.ring p.ring).windowOf.find? (fun q => q.1 = p.seq) with
    | some (_, i + 1) =>
      let e := d.entry i
      if e.st = .released then (0, 0) else (i + e.acceptNum * 2 ^ 20, e.attempt)
    | _ => (0, 0)
  else (0, 0)

/-- A packet that never entered the window completes with a window status; no bit is set (R111). -/
def Dev.completeWindow (p : Packet) (st : Status) (d : Dev) : Dev :=
  let f := if st = .duplicate then d.dupFields p else (0, 0)
  d.writeCpl p st f.1 f.2

/-- Completion entries in use on a ring, those of its parked packets and packets in progress counted (R95). -/
def Dev.cqUsed (d : Dev) (n : Nat) : Nat :=
  let r := d.ring n
  (r.cqTail + 2 ^ 32 - r.cqHead) % 2 ^ 32 + (d.rings.inflight.filter (fun p => p.ring = n)).length

/-- May a packet of ring n start now: a completion entry is free (R95), no barrier stops the ring (R122), and every
earlier packet has completed when it carries FENCE (R133)? -/
def Dev.startable (n : Nat) (p : Packet) (d : Dev) : Bool :=
  ((d.ring n).source = 1 || decide (d.cqUsed n < (d.ring n).slots)) &&
  !(d.rings.inflight.any (fun q => q.ring = n && q.op = 0x0001)) &&
  (!p.fence || !(d.rings.inflight.any (fun q => q.ring = n)))

/-- Flags of RING_STATUS for a packet that cannot start (R100). -/
def Dev.stallFlags (n : Nat) (p : Packet) (d : Dev) : Dev :=
  d.modRing n (fun r => { r with
    cqFull := r.source ≠ 1 && !decide (d.cqUsed n < r.slots),
    fenceWait := p.fence && d.rings.inflight.any (fun q => q.ring = n) })

/-- The byte of an arriving payload at an offset, the latest data first (R155). -/
def Bulk.get (b : Bulk) (i : Nat) : Option Nat := (b.cells.find? (fun c => c.1 = i)).map (·.2)

/-- The indirect payload of a packet of an Ethernet ring, once all its bytes have arrived (R155). -/
def Dev.bulkData (d : Dev) (ref : PktRef) (len : Nat) : Option (List Nat) :=
  if len = 0 then some []
  else match d.rings.bulks.find? (fun b => b.ring = ref.1 && b.seq = ref.2) with
    | none => none
    | some b => (List.range len).mapM b.get

/-- A packet starts: the checks of steps 1 to 8 of R110, in order; a packet that fails one completes with its status, one
that passes is in progress, waiting for its indirect payload where it has one (R131, R110). The parked, barred and
duplicate cases follow R76 and R136. -/
def Dev.startPacket (n : Nat) (p : Packet) (d : Dev) : Dev :=
  let r := d.ring n
  let fail (st : Status) (d : Dev) : Dev := (d.writeCpl p st 0 0).modRing n (Ring.markExecuted p.seq)
  let add (p : Packet) (ph : Phase) (d : Dev) : Dev :=
    { d with rings := { d.rings with inflight := d.rings.inflight ++ [{ p with phase := ph }] } }
  if d.rings.inflight.any (fun q => q.ring = n && q.seq = p.seq) then add p .dupWait d
  else match r.windowStatus p.seq with
  | some st => d.completeWindow p st
  | none =>
    if p.bad then fail .malformed d
    else if r.source ≠ 1 && !(p.dest = 4095 || (d.sys.addrValid && p.dest = d.sys.addr)) then fail .wrongDevice d
    else match opInfo p.op with
    | none => fail .badOpcode d
    | some info =>
      let size := if p.indirect then p.indirectLen else p.payload.length
      if (d.sys.stage = .saddle || d.sys.stage = .noImage) && !info.saddle then fail .notInSaddle d
      else if !info.target p.target then fail .badTarget d
      else if p.trigKind ≠ 0 && !info.trigger then fail .badTrigger d
      else if !info.size size then fail .badLength d
      else if p.indirect then
        match (if r.source = 1 then d.bulkData (n, p.seq) p.indirectLen else none) with
        | some b => add { p with payload := b } .started d
        | none => (add p .payload d).when (r.source = 0) (Dev.send (.hostRead p.payloadAddr p.indirectLen))
      else add p .started d

/-- Packets of ring n that wait to start are started in order as far as they may be (R131); fuel bounds the loop by the
number that wait. -/
def Dev.drain (n : Nat) : Nat → Dev → Dev
  | 0, d => d
  | fuel + 1, d =>
    let r := d.ring n
    match r.stalled with
    | some p =>
      if d.startable n p then
        Dev.drain n fuel ((d.modRing n (fun r => { r with stalled := none, cqFull := false, fenceWait := false })).startPacket
          n p)
      else d.stallFlags n p
    | none =>
      match r.toStart with
      | [] => d
      | p :: rest => Dev.drain n fuel (d.modRing n (fun r => { r with toStart := rest, stalled := some p }))

/-- A ring being disabled has no packet left: ACTIVE clears (R141). -/
def Dev.settleRing (n : Nat) (d : Dev) : Dev :=
  if (d.ring n).disabling && !(d.rings.inflight.any (fun p => p.ring = n)) then
    d.modRing n (fun r => { r with disabling := false, active := false })
  else d

/-- Waiting duplicates of a packet complete with DUPLICATE (R76). -/
def Dev.endDuplicates (ref : PktRef) (d : Dev) : Dev :=
  let dups := d.rings.inflight.filter (fun p => p.ring = ref.1 && p.seq = ref.2 && p.phase = .dupWait)
  let d := { d with rings := { d.rings with
      inflight := d.rings.inflight.filter (fun p => !(p.ring = ref.1 && p.seq = ref.2 && p.phase = .dupWait)) } }
  forL dups (fun p d => d.completeWindow p .duplicate) d

/-- The packet in progress completes: it leaves the packets in progress, its completion is written, its SEQ counts as
executed, its waiting duplicates complete, and its ring goes on (R97, R111). Nothing happens where no such packet is in
progress. -/
def Dev.complete (ref : PktRef) (st : Status) (result aux : Nat) (d : Dev) : Dev :=
  match d.packet? ref with
  | none => d
  | some p =>
    let d := { d with rings := { d.rings with
        inflight := d.rings.inflight.filter (fun (q : Packet) =>
          !(q.ring = ref.1 && q.seq = ref.2 && !(q.phase = Phase.dupWait))) } }
    let d := (d.writeCpl p st result aux).modRing ref.1 (Ring.markExecuted p.seq)
    let d := d.endDuplicates ref
    let d := if (d.ring ref.1).enable then Dev.drain ref.1 (2 * (d.ring ref.1).toStart.length + 2) d else d
    d.settleRing ref.1

/-- An optional packet completes. -/
def Dev.complete? (ref : Option PktRef) (st : Status) (result aux : Nat) (d : Dev) : Dev :=
  match ref with
  | none => d
  | some q => d.complete q st result aux

/-- Packets complete one after the other. -/
def Dev.completeAll (refs : List PktRef) (st : Status) (d : Dev) : Dev :=
  forL refs (fun q d => d.complete q st 0 0) d

/-! ## Executing a started packet -/

/-- Does the packet hold back later commands of its group and TARGET (R132, R135)? Parked, waiting-duplicate and barrier
packets do not, nor a STAGE_DMA_START whose transfer a channel holds, which R206 and R216 let other commands of the channel meet
(log entry 30). -/
def Packet.holds (p : Packet) : Bool :=
  p.phase = .started || (p.phase = .executing && !(p.op = 0x0304)) || p.phase = .polling || p.phase = .payload

/-- The packets in progress before the first one with this name. -/
def before (ref : PktRef) : List Packet → List Packet
  | [] => []
  | (p : Packet) :: t => if p.ring = ref.1 && p.seq = ref.2 && !(p.phase = Phase.dupWait) then [] else p :: before ref t

/-- The started packet that the opcode's row executes: it is in progress with this opcode, has its payload, and no earlier
command of its group and TARGET is in progress on any ring (R135, with its exceptions for SYS_BARRIER and HEAD_RESET). -/
def Dev.runnable (op : Nat) (ref : PktRef) (d : Dev) : Option Packet :=
  match d.packet? ref with
  | none => none
  | some p =>
    if p.op = op && p.phase = Phase.started &&
      (op = 0x0704 || op = 0x0001 ||
        !((before ref d.rings.inflight).any (fun q =>
          q.holds && q.op / 256 = op / 256 && q.target = p.target && q.op ≠ 0x0001)))
    then some p else none

/-- Parked packets (R136): 1,024 entries. -/
def Dev.parked (d : Dev) : Nat := (d.rings.inflight.filter (fun p => p.phase = .parked)).length

/-- TB_k in ns, as a TIME trigger compares it (R9, R103). -/
def Dev.baseNs (k : Nat) (d : Dev) : Int := if k = 2 then d.ns else (d.tb k).t / 2 ^ 56

/-- The reference-row position of a stream's last line boundary, sub-dots modulo 2^48 (R421). -/
def Dev.presentWp (st : Nat) (d : Dev) : Nat := twos 48 (64 * ((d.fst st).nextLine - 1))

/-- Has the trigger of a packet already passed (R137 to R139)? -/
def Dev.trigPassed (p : Packet) (d : Dev) : Bool :=
  if p.trigKind = 1 then decide ((p.trigValue : Int) ≤ d.baseNs p.trigSrc % 2 ^ 64)
  else !(later 48 p.trigValue (d.presentWp p.trigSrc))

/-- The row of an opcode executes the packet (ring, SEQ) that has started: with no trigger, or once its trigger has fired,
its checks are made and then its effect takes place (R110 step 10, R889); a triggered packet that passes its checks is
parked, or meets R139 when its trigger has passed, or stalls its ring when the trigger table is full (R136). Where no such
packet may execute, nothing happens. -/
def runOp (op : Nat) (chk : Packet → Dev → Option Status) (run : Packet → State → State) (r seq : Nat) (s : State) : State :=
  match s.dev.runnable op (r, seq) with
  | none => s
  | some p =>
    if p.trigKind = 0 || p.triggered then
      match chk p s.dev with
      | some st => s.onDev (Dev.complete (r, seq) st 0 0)
      | none => run p s
    else
      match (chk p s.dev).filter (fun st => decide (0x40 ≤ st.code)) with
      | some st => s.onDev (Dev.complete (r, seq) st 0 0)
      | none =>
        if s.dev.trigPassed p then
          if p.lateOk then
            let p' := { p with late := true, triggered := true }
            let s := s.onDev (Dev.modPacket (r, seq) (fun _ => p'))
            match chk p' s.dev with
            | some st => s.onDev (Dev.complete (r, seq) st 0 0)
            | none => run p' s
          else s.onDev (Dev.complete (r, seq) .late 0 0)
        else if 1024 ≤ s.dev.parked then s.onDev (Dev.modRing r (fun x => { x with trigFull := true }))
        else s.onDev (fun d => (d.modPacket (r, seq) (fun p => { p with phase := .parked })).modRing r
          (fun x => { x with trigFull := false }))

/-- The packet is in progress and completes at a later event. -/
def Dev.executing (p : Packet) (d : Dev) : Dev := d.modPacket p.ref (fun q => { q with phase := .executing })

/-- An opcode's effect on the device alone. -/
def onPkt (f : Packet → Dev → Dev) (p : Packet) (s : State) : State := s.onDev (f p)

/-- Commands run while the device is operational, or in Saddle mode through the mailbox (R172). -/
def Dev.commandsRun (d : Dev) : Bool :=
  d.sys.powered && (d.sys.stage = .operational || d.sys.stage = .saddle || d.sys.stage = .noImage)

end Sys2Proof.Machine
end

