-- ==== Sys2Proof/Machine/SafeActions.lean ====
section
/-! DEFINITION. What motion axes, brushless channels and control loops do on their own or at the safe state, a warm reset
and shedding: stops, coasting, and a loop's output reaching its unit (spec chapters 12 and 13). -/

namespace Sys2Proof.Machine

/-! ## Axes -/

/-- LOST of FIRE_STATUS (R399, R402, R411). -/
def Fire.lost (f : Fire) : Bool := f.lostNoPrimary || f.lostSource || f.lostSat

/-- Is the axis engaged or engaging (R630)? -/
def Axis.engaged (a : Axis) : Bool := a.st = .engaging || a.st = .geared

/-- Is the axis at rest? -/
def Axis.atRest (a : Axis) : Bool := a.st = .disabled || a.st = .idle

/-- Is the axis in normal service (chapter 12, Stops): its position valid and no homing running on it? -/
def Axis.normalService (a : Axis) : Bool := !a.posLost && !(a.st = .homing)

/-- The state of an axis at rest. -/
def Axis.restSt (a : Axis) : AxisSt := if a.en then .idle else .disabled

/-- Magnitude of an integer. -/
def mag (x : Int) : Int := if x < 0 then -x else x

/-- MOT_STOP packets of an axis complete with the remaining distance (R619). -/
def Dev.endStops (n : Nat) (d : Dev) : Dev :=
  let a := d.axis n
  let rem := match a.kept with | some t => twos 40 (t - a.pos) | none => 0
  forL a.stops (fun q d => d.complete q .done rem 0) (d.modAxis n (fun a => { a with stops := [] }))

/-- The axis comes to rest: AX_n_EN is released where a DISABLE stop asked for it (R616, R621). -/
def Dev.axisRest (n : Nat) (d : Dev) : Dev :=
  let dis := (d.axis n).disableAfter
  let d := d.modAxis n (fun a => { a with
    vel := 0, mode := .none, en := a.en && !dis, disableAfter := false, posLost := a.posLost || dis,
    kept := if dis then none else a.kept, keptV := if dis then none else a.keptV,
    st := if a.en && !dis then .idle else .disabled })
  let d := d.when dis (Dev.pin .axEn n (!(d.axis n).enHigh))
  d.endStops n

/-- An immediate stop (R616, R617): no further pulse, the position marked lost, nothing kept. A homing run ends with the
result given. -/
def Dev.stopNow (n result : Nat) (d : Dev) : Dev :=
  (d.modAxis n (fun a => { a with
    posLost := true, homed := false, kept := none, keptV := none, folPend := [], chg := none, blending := false,
    homeResult := if a.st = .homing then result else a.homeResult })).axisRest n

/-- A planned stop at D_MAX and J_MAX; the remaining target is kept where keep says so (R616). -/
def Dev.stopPlanned (n : Nat) (keep : Bool) (d : Dev) : Dev :=
  let d := d.modAxis n (fun a => { a with
    kept := if keep && a.mode = .toTarget then some a.target else if keep && a.mode = .stop then a.kept else none,
    keptV := if keep && a.mode = .velocity then some a.vTarget else if keep && a.mode = .stop then a.keptV else none,
    st := .stopping, mode := .stop, folPend := [], chg := none, blending := false })
  if (d.axis n).vel = 0 then d.axisRest n else d

/-- A stop as MOT_STOP MODE SERVICE makes it (R616). -/
def Dev.stopService (n : Nat) (d : Dev) : Dev :=
  let a := d.axis n
  if a.atRest then d
  else if a.normalService then d.stopPlanned n (!a.engaged && !(a.st = .following))
  else d.stopNow n 3

/-- At entry to the safe state an axis with SAFE_ACTION HOLD stops as MODE SERVICE does; an engaged axis with KEEP_GEAR
goes on (R639). -/
def Dev.axisSafe (n : Nat) (d : Dev) : Dev := if (d.axis n).safeGear then d else d.stopService n

/-- At the start of a warm reset every moving axis stops immediately and gearing and following end (R641). -/
def Dev.axisWarm (n : Nat) (d : Dev) : Dev := if (d.axis n).atRest then d else d.stopNow n 3

/-- At shedding stage 5 a moving axis that is neither geared nor following makes a resumable stop (R540, R640). -/
def Dev.axisShed (n : Nat) (d : Dev) : Dev :=
  let a := d.axis n
  if a.st = .moving then d.stopPlanned n true
  else if a.st = .homing then d.stopNow n 3 else d

/-! ## Channel states -/

/-- Every PWM output of the channel off. -/
def Dev.blOff (n : Nat) (d : Dev) : Dev :=
  (d.modBch n (fun c => { c with pwmOn := false, brake := false, iqRef := 0, regen := false, holding := false })).pin .blPwm n false

/-- Waiting BL_STOP packets complete (R667). -/
def Dev.blEndStops (n : Nat) (d : Dev) : Dev :=
  let q := (d.bch n).stops
  (d.modBch n (fun c => { c with stops := [] })).completeAll q .done

/-- The channel ends in STOPPED with its outputs off. -/
def Dev.blStopped (n : Nat) (d : Dev) : Dev :=
  ((d.blOff n).modBch n (fun c => { c with st := .stopped, chop := false, chopCheck := false })).blEndStops n

/-- The outputs go off and the channel coasts: 0 until RETRY_MS, 1 until the bus has settled after an overvoltage, 3 after
an undervoltage, 2 until BL_START. -/
def Dev.blCoast (n why : Nat) (d : Dev) : Dev :=
  (d.blOff n).modBch n (fun c => { c with st := .coasting, coastWhy := why })

/-- The start sequence begins with a measurement (R662). -/
def Dev.blMeasure (n : Nat) (d : Dev) : Dev :=
  (d.blOff n).modBch n (fun c => { c with st := .measuring, startResult := 6, aligned := false })

/-- A measurement or try passed without RUNNING: the motor coasts for RETRY_MS, or the start has failed (R664, R665). -/
def Dev.blRetry (n : Nat) (d : Dev) : Dev :=
  let c := d.bch n
  let d := d.modBch n (fun c => { c with triesDone := c.triesDone + 1 })
  if c.cfg.tries ≤ c.triesDone + 1 then ((d.modBch n (fun c => { c with startResult := 4 })).blStopped n).raise (164 + n) 0
  else d.blCoast n 0

/-- The start from rest begins with the alignment current (R664). -/
def Dev.blFromRest (n : Nat) (d : Dev) : Dev :=
  (d.modBch n (fun c => { c with st := .starting, aligned := false, pwmOn := true, brake := false })).pin .blPwm n true

/-- The channel brakes with its low-side outputs (R663). -/
def Dev.blBrake (n : Nat) (d : Dev) : Dev :=
  (d.modBch n (fun c => { c with st := .braking, brake := true, fromRest := true })).pin .blBrake n true

/-- Entry to RUNNING with a START_RESULT and a ramped set-point (R662, R664, R665). -/
def Dev.blRun (n result : Nat) (speed : Int) (d : Dev) : Dev :=
  (d.modBch n (fun c => { c with
    st := .running, startResult := result, ramped := speed * 2 ^ 16, starts := (c.starts + 1) % 2 ^ 32, pwmOn := true,
    brake := false, integ := 0, periods := 0, limited := false, skipRun := 0, fromRest := false })).pin .blPwm n true

/-- Is a loop with OUT_KIND 3 enabled on channel n (R679)? -/
def Dev.loopDriven (d : Dev) (n : Nat) : Bool :=
  (List.range 32).any (fun l => let x := d.lp l
    x.enabled && x.cfg.outKind = 3 && x.cfg.outIndex = n)

/-- What the channel does at entry to the safe state (R685): COAST turns the outputs off, HOLD keeps it running. -/
def Dev.blSafe (n : Nat) (d : Dev) : Dev :=
  let c := d.bch n
  let coast := c.cfg.safeAction = 2 || (c.cfg.safeAction = 0 && c.cfg.blower)
  if coast && !(c.st = .stopped) then d.blCoast n 2 else d

/-- Shedding stage 5 or deeper: a RUNNING channel holds its ramped set-point (R687). -/
def Dev.blShed (n : Nat) (d : Dev) : Dev :=
  d.modBch n (fun c => { c with holding := c.st = .running && decide (5 ≤ d.sched.stage) })

/-! ## Loops -/

/-- A set-point a loop delivers, in the running direction and held between HANDOVER_RPM and MAX_RPM (R679). -/
def BlCh.loopRpm (c : BlCh) (dir out : Int) : Int :=
  let m := roundHalfAway out (2 ^ 16)
  dir * clampI (if m < 0 then -m else m) c.cfg.handover c.cfg.maxRpm

/-- A loop's output reaches its unit: a DRY zone or pin as duty in per cent, a channel's set-point, or another loop's SET
(R675, R679). -/
def Dev.deliver (l : Nat) (d : Dev) : Dev :=
  let x := d.lp l
  let duty := clampI x.out 0 (100 * 2 ^ 16)
  match x.cfg.outKind with
  | 1 => (d.modZone x.cfg.outIndex (fun z => { z with duty := duty.toNat })).pin .dry x.cfg.outIndex (decide (0 < duty))
  | 2 => d.pin .gpioPwm x.cfg.outIndex (decide (0 < duty))
  | 3 => d.modBch x.cfg.outIndex (fun c =>
      if c.st = .starting || c.st = .running then { c with set := c.loopRpm c.dir x.out, loopSet := none }
      else { c with loopSet := some x.out })
  | 4 => d.modLp x.cfg.outIndex (fun t => { t with set := x.out })
  | _ => d

/-- What a loop does at entry to the safe state (R685): its SAFE bit, and 0 for a DRY zone whatever SAFE holds. -/
def Dev.loopSafe (l : Nat) (d : Dev) : Dev :=
  let x := d.lp l
  if x.configured && (x.cfg.safeZero || x.cfg.outKind = 1) then
    (d.modLp l (fun x => { x with safeOff := true, out := 0 })).deliver l
  else d

/-- R530 forces a port's heater loop to 0, or releases it: then i is 0 and r restarts at y (R681). -/
def Dev.forceHeat (l : Nat) (force : Bool) (d : Dev) : Dev :=
  if 32 ≤ l then d
  else if force then (d.modLp l (fun x => { x with heatForced := true, out := 0 })).deliver l
  else d.modLp l (fun x => if x.heatForced then { x with heatForced := false, i := 0, restart := true } else x)

end Sys2Proof.Machine
end

