-- ==== Sys2Proof/Machine/Lines.lean ====
section
/-! DEFINITION. From image lines to nozzles (spec chapter 7): columns, ports and stitch zones, nozzle statuses, takeover,
blending, placements, scheduled changes, and the drop level each nozzle fires on a stream line. -/

namespace Sys2Proof.Machine

/-! ## Columns and ports -/

/-- The stream's screening width W (R340). -/
def NozStream.width (n : NozStream) : Nat := match n.ports.getLast? with | some p => p.col + p.nozzles | none => 0

/-- Nozzles of the stream. -/
def NozStream.count (n : NozStream) : Nat := (n.ports.map (·.nozzles)).sum

/-- Port q of the list. -/
def NozStream.port (n : NozStream) (q : Nat) : PortEntry := n.ports.getD q PortEntry.reset

/-- Stream nozzle index of nozzle 0 of port q (R339). -/
def NozStream.base (n : NozStream) (q : Nat) : Nat := ((n.ports.take q).map (·.nozzles)).sum

/-- Width of stitch zone q (R341). -/
def NozStream.stitch (n : NozStream) (q : Nat) : Nat :=
  if q + 1 < n.ports.length then (n.port q).col + (n.port q).nozzles - (n.port (q + 1)).col else 0

/-- Stitch columns of the zones before zone q. -/
def NozStream.stitchBase (n : NozStream) (q : Nat) : Nat := ((List.range q).map n.stitch).sum

/-- End E_q of the columns of port q (R342). -/
def NozStream.ownEnd (n : NozStream) (q : Nat) : Nat := (n.port q).col + (n.port q).nozzles

/-- Columns port q owns (R342). -/
def NozStream.owned (n : NozStream) (q : Nat) : Nat := n.ownEnd q - (if q = 0 then 0 else n.ownEnd (q - 1))

/-- Index in the list of the port that owns column c. -/
def NozStream.ownerOf (n : NozStream) (c : Nat) : Nat :=
  ((List.range n.ports.length).find? (fun q => decide (c < n.ownEnd q))).getD 0

/-- Does a port mask name the port at index q? -/
def NozStream.inMask (n : NozStream) (mask q : Nat) : Bool := mask.testBit (n.port q).port

/-- Source width of a port mask (R229, R342). -/
def NozStream.sourceWidth (n : NozStream) (mask : Nat) : Nat :=
  (((List.range n.ports.length).filter (n.inMask mask)).map n.owned).sum

/-- Does port q cover column c? -/
def NozStream.covers (n : NozStream) (c q : Nat) : Bool :=
  decide ((n.port q).col ≤ c) && decide (c < n.ownEnd q)

/-- Ports that cover column c, in stream order. -/
def NozStream.coverOf (n : NozStream) (c : Nat) : List Nat := (List.range n.ports.length).filter (n.covers c)

/-- The stream a port belongs to. -/
def Dev.streamOf (d : Dev) (p : Nat) : Option Nat :=
  (List.range 4).find? (fun s => (d.nst s).configured && (d.nst s).ports.any (fun e => e.port = p))

/-- Index of a port in its stream's list. -/
def NozStream.indexOf (n : NozStream) (p : Nat) : Nat := (n.ports.findIdx? (fun e => e.port = p)).getD 0

/-- Drop levels N of a port: those its head declares, 8 with none trained (R317). -/
def Dev.levelsOf (d : Dev) (p : Nat) : Nat := if (d.hp p).levels = 0 then 8 else (d.hp p).levels

/-- The nozzles a LINE frame carries (R454). -/
def Dev.carried (d : Dev) (s q : Nat) : Nat :=
  let e := (d.nst s).port q
  let n := (d.hp e.port).nozzles
  if n = 0 then e.nozzles else min e.nozzles n

/-! ## Statuses -/

/-- Is nozzle index i of the stream a marker nozzle (R38)? -/
def Dev.isMarker (d : Dev) (s i : Nat) : Bool :=
  let x := d.ist s
  !(x.markLevel = 0) && decide (x.markFirst ≤ i) && decide (i < x.markFirst + x.markCount)

/-- Own status of nozzle k of port q under a map: DISABLED beyond the declared count (R347, R349). -/
def Dev.rawStatus (d : Dev) (s : Nat) (map : Tab Nat) (q k : Nat) : Nat :=
  if k < d.carried s q then Tab.get 0 map ((d.nst s).base q + k) else 3

/-- Status of nozzle k of port q for imprint data: marker nozzles count as DISABLED (R351). -/
def Dev.nozStatus (d : Dev) (s : Nat) (map : Tab Nat) (q k : Nat) : Nat :=
  if d.isMarker s ((d.nst s).base q + k) then 3 else d.rawStatus s map q k

/-- Is a status GOOD or WEAK? -/
def isLive (st : Nat) : Bool := st = 0 || st = 1

/-- Status of column c (R350). -/
def Dev.colStatus (d : Dev) (s : Nat) (map : Tab Nat) (c : Nat) : Nat :=
  let n := d.nst s
  ((n.coverOf c).map (fun q => d.nozStatus s map q (c - (n.port q).col))).foldl min 3

/-- Status of screening position x under shift sh (R362, R358): DISABLED outside the width. -/
def Dev.posStatus (d : Dev) (s : Nat) (map : Tab Nat) (sh : Int) (x : Nat) : Nat :=
  let c : Int := x + sh
  if 0 ≤ c ∧ c < (d.nst s).width then d.colStatus s map c.toNat else 3

/-- rev8 of R358. -/
def rev8 (x : Nat) : Nat := ((List.range 8).map (fun i => bits x i 1 * 2 ^ (7 - i))).sum

/-- Blend weight of zone q at zone index z; the default of R364 where none is loaded. -/
def NozStream.weight (n : NozStream) (w : Option (List Nat)) (q z : Nat) : Nat :=
  match w with
  | some l => l.getD (n.stitchBase q + z) 0
  | none => 256 * (2 * z + 1) / (2 * n.stitch q)

/-- The port that fires column c on attempt line l (R353, R363). -/
def Dev.firingPort (d : Dev) (s : Nat) (map : Tab Nat) (w : Option (List Nat)) (c l : Nat) : Option Nat :=
  let n := d.nst s
  match n.coverOf c with
  | [] => none
  | [q] => some q
  | q :: r :: _ =>
    let a := isLive (d.nozStatus s map q (c - (n.port q).col))
    let b := isLive (d.nozStatus s map r (c - (n.port r).col))
    if a && !b then some q else if b && !a then some r
    else
      let z := c - (n.port r).col
      some (if rev8 ((l + 37 * z) % 256) < n.weight w q z then r else q)

/-! ## Takeover of dead columns -/

/-- The amounts added to each position by R358. -/
def takeoverAdds (live : Nat → Bool) (dead : Nat → Bool) (table lev : List Nat) (w l : Nat) : List (Nat × Nat) :=
  let both := table.getD 8 0 = 1
  let share := table.getD 9 128
  (List.range w).flatMap (fun x =>
    let v := lev.getD x 0
    if dead x && decide (0 < v) then
      let a := table.getD v 0
      let leftOk := decide (0 < x) && live (x - 1)
      let rightOk := decide (x + 1 < w) && live (x + 1)
      if both then (if leftOk then [(x - 1, a)] else []) ++ (if rightOk then [(x + 1, a)] else [])
      else
        let left0 := decide (rev8 ((l + 37 * x) % 256) < share)
        let left1 := left0 && leftOk
        let left := if !left1 && !rightOk then leftOk else left1
        if left then [(x - 1, a)] else if rightOk then [(x + 1, a)] else []
    else [])

/-- The levels of a PASS line after takeover (R358). -/
def Dev.takeover (d : Dev) (s : Nat) (map : Tab Nat) (sh : Int) (w : Option (List Nat)) (table lev : List Nat) (l : Nat) :
    List Nat :=
  let st := d.posStatus s map sh
  let adds := takeoverAdds (fun x => isLive (st x)) (fun x => st x = 2) table lev lev.length l
  (List.range lev.length).map (fun x =>
    if isLive (st x) then
      let top := match d.firingPort s map w (x + sh).toNat l with
        | some q => d.levelsOf ((d.nst s).port q).port - 1
        | none => 7
      min (lev.getD x 0 + ((adds.filter (fun a => a.1 = x)).map (·.2)).sum) top
    else 0)

/-! ## Placements -/

/-- Whole-line delay of nozzle k under a placement (R366). -/
def delayOf (y : Nat) (z : Tab Nat) (k : Nat) : Nat := y / 64 + Tab.get 0 z k / 64

/-- The image line nozzle k fires on stream line n: the changes of placement, newest first, hold from their boundary on
(R366, R380). -/
def imageLine (k : Nat) (n : Int) : List (Int × Nat × Tab Nat) → Nat → Option Int
  | [], cur => some (n - cur)
  | (u, y, z) :: t, cur =>
    let old := delayOf y z k
    if n - old < u then imageLine k n t old else if u ≤ n - cur then some (n - cur) else none

/-- Image line of nozzle k of port p on stream line n. -/
def Dev.image (d : Dev) (p k : Nat) (n : Int) : Option Int :=
  let x := d.nport p
  imageLine k n x.oldPlace (delayOf x.y x.z k)

/-- A value of a stream for image line u, the replaced values newest first (R379). -/
def atLine {α : Type} (u : Int) : List (Int × α) → α → α
  | [], cur => cur
  | (b, old) :: t, cur => if u < b then atLine u t old else cur

/-- M_p of R369: the largest short delay among a port's nozzles. -/
def Dev.shortLines (d : Dev) (p : Nat) : Nat :=
  ((d.nport p).z.map (fun c => c.2 / 64)).foldl max 0

/-- Largest whole-line delay of a port. -/
def Dev.maxDelay (d : Dev) (p : Nat) : Nat := (d.nport p).y / 64 + d.shortLines p

/-- L_p of R369. -/
def lineBytes (nozzles : Nat) : Nat := (3 * nozzles + 511) / 512 * 64

/-- Bytes of the short and long stores that a port with these figures uses (R369, R370). -/
def storeUse (nozzles y short : Nat) : Nat × Nat := ((short + 1) * lineBytes nozzles, (y / 64 + 16) * lineBytes nozzles)

/-- Bytes of both stores in use by every configured port but those of a stream left out and a port whose placement is
replaced. -/
def Dev.storesUsed (d : Dev) (skip : Option Nat) (change : Option (Nat × Nat × Nat)) : Nat × Nat :=
  let one (e : PortEntry) : Nat × Nat :=
    match change with
    | some (p, y, m) => if e.port = p then storeUse e.nozzles y m else storeUse e.nozzles (d.nport e.port).y (d.shortLines e.port)
    | none => storeUse e.nozzles (d.nport e.port).y (d.shortLines e.port)
  let all := ((List.range 4).filter (fun s => (d.nst s).configured && !(some s = skip))).flatMap (fun s => (d.nst s).ports.map one)
  ((all.map (·.1)).sum, (all.map (·.2)).sum)

/-- Size of the short delay store in bytes (R369). -/
def Dev.shortSize (d : Dev) : Nat := if d.noz.shortExtra then 6 * 2 ^ 20 else 4 * 2 ^ 20

/-- Size of the long delay store in bytes: DDRC_LONG_SIZE in units of 64 MiB (R370, R699). -/
def Dev.longSize (d : Dev) : Nat := d.ddr.longSize * 2 ^ 26

/-! ## Scheduled changes -/

/-- A field of a change's payload. -/
def Change.fld (c : Change) (byte lo w : Nat) : Nat := bits (leNat c.payload) (8 * byte + lo) w

/-- A signed field of a change's payload. -/
def Change.sfld (c : Change) (byte lo w : Nat) : Int := sInt w (c.fld byte lo w)

/-- Blend weights in a NOZ_SET_STITCH payload (R365). -/
def weightsOf (payload : List Nat) : List Nat :=
  let b := payload.drop 16
  (List.range (b.length / 2)).map (fun i => (b.getD (2 * i) 0 + 256 * b.getD (2 * i + 1) 0) % 512)

/-- Nozzle placements with a list of entries written from index first. -/
def placeEntries (z : Tab Nat) (first : Nat) (l : List Nat) : Tab Nat :=
  (l.zipIdx first).foldl (fun t e => if e.1 = 0 then Tab.erase e.2 t else Tab.set e.2 e.1 t) z

/-- Old values whose lines can no longer be fired are dropped. -/
def pruneOld {α : Type} (n : Int) (l : List (Int × α)) : List (Int × α) := l.filter (fun x => decide (n ≤ x.1 + 66000))

/-- A stream's shift and weights change at line u (R379, R362). -/
def Dev.setStitch (s : Nat) (u : Int) (sh : Option Int) (w : Option (List Nat)) (d : Dev) : Dev :=
  d.modNst s (fun n => { n with
    oldShift := (u, n.shift, n.weights.getD ((List.range (n.ports.length - 1)).flatMap (fun q =>
      (List.range (n.stitch q)).map (fun z => n.weight none q z)))) :: n.oldShift,
    shift := sh.getD n.shift, shiftScreen := sh.getD n.shiftScreen,
    weights := match w with | some l => some l | none => n.weights })

/-- A port's placement changes at line u; changes of one line take effect together (R380, R381). -/
def Dev.setPlace (p : Nat) (u : Int) (y : Nat) (z : Tab Nat) (d : Dev) : Dev :=
  d.modNport p (fun x => { x with
    oldPlace := if x.oldPlace.head?.any (fun o => o.1 = u) then x.oldPlace else (u, x.y, x.z) :: x.oldPlace, y := y, z := z })

/-- The lines a datum change leaves unfired: the stream's first line that fires under the new datum (R424). -/
def Dev.setDatum (s : Nat) (u new : Int) (d : Dev) : Dev :=
  d.modFst s (fun f =>
    let delta := new / 64 - f.datum / 64
    { f with datum := new, blank := if delta < 0 then u - delta else f.blank })

/-- One scheduled change takes effect at line u of stream s (R376, R379, R380, R422, R423, R492). -/
def Dev.applyChange (s : Nat) (u : Int) (c : Change) (d : Dev) : Dev :=
  match c.op with
  | 0x0502 => d.modNst s (fun n => { n with
      oldStatus := (u, n.status) :: n.oldStatus, status := n.statusPend.getD n.status, statusPend := none })
  | 0x0504 => d.setStitch s u (if c.fld 0 2 1 = 1 then some (c.sfld 2 0 16) else none)
      (if c.fld 0 3 1 = 1 then some (weightsOf c.payload) else none)
  | 0x0505 => d.setPlace c.target u (c.fld 4 0 22) (d.nport c.target).z
  | 0x0506 => (d.setPlace c.target u (d.nport c.target).y (placeEntries (d.nport c.target).z (c.fld 8 0 16) c.table)).modHp
      c.target (fun h => { h with changeover := some u })
  | 0x0603 =>
    let d := if c.fld 0 2 1 = 1 then d.setDatum s u (c.sfld 8 0 40) else d
    if c.fld 0 3 1 = 1 then d.modFst s (fun f => { f with lead := c.fld 4 0 20 }) else d
  | 0x0604 =>
    let d := if c.fld 0 2 1 = 1 then d.setDatum s u (c.sfld 8 0 40) else d
    if c.fld 0 3 1 = 1 then d.setStitch s u (some (c.sfld 2 0 16)) none else d
  | 0x0703 => d.modHp c.target (fun h => { h with slot := c.fld 0 2 3 })
  | _ => d

/-- Is a change due at line n? -/
def Change.due (n : Int) (c : Change) : Bool := match c.boundary with | some u => decide (u ≤ n) | none => false

/-- Every change of stream s whose boundary lies at or before line n has taken effect (R381). -/
def Dev.applyDue (s : Nat) (n : Int) (d : Dev) : Dev :=
  let due := (d.nst s).changes.filter (Change.due n)
  let d := forL due (fun c d => d.applyChange s (c.boundary.getD n) c) d
  d.modNst s (fun x => { x with changes := x.changes.filter (fun c => !c.due n) })

/-! ## What a nozzle fires -/

/-- Is the imprint committed or firing? -/
def Entry.onWeb (e : Entry) : Bool := e.st = .committed || e.st = .firing

/-- The stream of an entry. -/
def Entry.stream (e : Entry) : Nat := e.desc.stream

/-- Does the entry's attempt carry image line u? -/
def Entry.has (e : Entry) (u : Int) : Bool :=
  match e.firstLine with
  | some f => e.onWeb && decide (f ≤ u) && decide (u < f + e.desc.length)
  | none => false

/-- The attempt that image line u of a stream belongs to, as a Cairn index. -/
def Dev.attemptAt (d : Dev) (s : Nat) (u : Int) : Option Nat := (d.ist s).queue.find? (fun i => (d.entry i).has u)

/-- The attempt whose data nozzle k of port q carries on stream line n. -/
def Dev.attemptOn (d : Dev) (s q k : Nat) (n : Int) : Option Nat :=
  match d.image ((d.nst s).port q).port k n with
  | some u =>
    let x : Int := ((d.nst s).port q).col + k - atLine u ((d.nst s).oldShift.map (fun o => (o.1, o.2.1))) (d.nst s).shift
    if 0 ≤ x ∧ x < (d.nst s).width then d.attemptAt s u else none
  | none => none

/-- The level nozzle k of port q fires for imprint data on stream line n (R352, R353, R358, R361, R363, R366, R368). -/
def Dev.dataLevel (d : Dev) (s q k : Nat) (n : Int) : Nat :=
  let ns := d.nst s
  match d.image (ns.port q).port k n, d.attemptOn s q k n with
  | some u, some i =>
    let e := d.entry i
    let l := (u - e.firstLine.getD 0).toNat
    let map := atLine u ns.oldStatus ns.status
    let sh := atLine u (ns.oldShift.map (fun o => (o.1, o.2.1))) ns.shift
    let w := atLine u (ns.oldShift.map (fun o => (o.1, some o.2.2))) ns.weights
    let c := (ns.port q).col + k
    let row := e.lines.getD l []
    let row := if e.desc.mode = 0 then d.takeover s map sh w e.takeover row l else row
    if d.firingPort s map w c l = some q && isLive (d.nozStatus s map q k) && isLive (d.nozStatus s ns.status q k) then
      row.getD (c - sh).toNat 0
    else 0
  | _, _ => 0

/-- The level a marker nozzle fires for a spoil mark on stream line n (R60, R351). -/
def Dev.markLevelOn (d : Dev) (s q k : Nat) (n : Int) : Nat :=
  let x := d.ist s
  match x.markStart with
  | some m =>
    if d.isMarker s ((d.nst s).base q + k) && decide (m ≤ n) && decide (n < m + x.markLines) &&
      isLive (d.rawStatus s (d.nst s).status q k) then min x.markLevel (d.levelsOf ((d.nst s).port q).port - 1) else 0
  | none => 0

/-- The levels a LINE frame of port q carries for stream line n, with the changes due by then in effect. -/
def Dev.lineLevels (d : Dev) (s q : Nat) (n : Int) : List Nat :=
  let d := d.applyDue s n
  (List.range (d.carried s q)).map (fun k => max (d.dataLevel s q k n) (d.markLevelOn s q k n))

/-- Does stream line n carry imprint data on any port of the stream? -/
def Dev.hasData (d : Dev) (s : Nat) (n : Int) : Bool :=
  let d := d.applyDue s n
  (List.range (d.nst s).ports.length).any (fun q => (List.range (d.carried s q)).any (fun k => (d.attemptOn s q k n).isSome))

/-- The attempts with data on stream line n. -/
def Dev.attemptsOn (d : Dev) (s : Nat) (n : Int) : List Nat :=
  let d' := d.applyDue s n
  (d.ist s).queue.filter (fun i =>
    (List.range (d'.nst s).ports.length).any (fun q =>
      (List.range (d'.carried s q)).any (fun k => d'.attemptOn s q k n = some i)))

/-- Last stream line on which a port fires data of an attempt. -/
def Dev.lastLineOn (d : Dev) (p : Nat) (e : Entry) : Int := e.firstLine.getD 0 + e.desc.length - 1 + d.maxDelay p

end Sys2Proof.Machine
end

