-- ==== Sys2Proof/Machine/LineSend.lean ====
section
/-! DEFINITION. Sending on a head port (spec chapter 9): TX frames, waveform scale, LINE frames and VOID sets. -/

namespace Sys2Proof.Machine

/-- A new TX frame takes the next TSEQ, leaves on the port and is kept until acknowledged (R463). -/
def Dev.sendFrame (p type : Nat) (line : Int) (key : Nat) (fields : List Nat) (d : Dev) : Dev :=
  let t := (d.hp p).tseq
  (d.modHp p (fun h => { h with
    tseq := (t + 1) % 2 ^ 16,
    unacked := h.unacked ++ [{ tseq := t, type := type, line := line, key := key, sent := 1, fields := fields }] })).send
    (.frame p type t fields)

/-- A CTRL frame (R457): OP and its arguments. -/
def Dev.sendCtrl (p op : Nat) (args : List Nat) (d : Dev) : Dev := d.sendFrame p 4 0 op (op :: args)

/-- SUBDOT_PERIOD: the predicted sub-dot period, 16.16 ns (R431, R453); at speed 0 no period is defined and the field is
free (log entry 5). -/
def Dev.subdot (d : Dev) : Nat × Dev :=
  let v := (d.enc d.fire.src).v
  if v = 0 then (d.takeFree.1 % 2 ^ 32, d.takeFree.2) else ((roundOpen 20 (2 ^ 40) v).toNat % 2 ^ 32, d)

/-- SCALE of a LINE frame about to be built (R493): with no HV measured in the last 64 µs, or a mean of 0, the quotient is
free and the clamp holds. FLT_HL_ALERT is raised when the scale enters the clamp. -/
def Dev.newScale (p : Nat) (d : Dev) : Dev :=
  let h := d.hp p
  if !h.hvFf then d.modHp p (fun h => { h with scale := 32768, hvRange := false })
  else
    let win := h.hvWin.filter (fun w => decide (d.ns ≤ w.1 + 64000))
    let sum := (win.map (·.2)).sum
    let (raw, d) := if sum = 0 then (((d.takeFree.1 : Int)), d.takeFree.2)
      else (roundOpen 21 (32768 * h.hvRef * win.length) sum, d)
    let sc := clampI raw 28672 36864
    let out := !(sc = raw)
    let d := d.modHp p (fun h => { h with
      scale := sc.toNat, hvRange := out, hMean := if win.isEmpty then h.hMean else (roundOpen 22 sum win.length).toNat })
    d.when (out && !h.hvRange) (fun d => d.raise (64 + p) 0)

/-- The banks the nozzles of port q use on line n: none while no changeover runs on it, else one flag per nozzle, true for
the new bank (R487). -/
def Dev.newBanks (d : Dev) (s q : Nat) (n : Int) : Option (List Bool) :=
  let d := d.applyDue s n
  let p := ((d.nst s).port q).port
  match (d.hp p).changeover with
  | none => none
  | some u => some ((List.range (d.carried s q)).map (fun k =>
      match d.image p k n with | some x => decide (u ≤ x) | none => false))

/-- W of R461 for a port. -/
def HlPort.window (h : HlPort) : Nat := min h.sendAhead (h.bufLines - 2)

/-- The LINE frame of stream line n goes to port q of stream s; a later frame for the line replaces an earlier one (R453,
R461, R466, R473). -/
def Dev.sendLine (s q : Nat) (n : Int) (d : Dev) : Dev :=
  let p := ((d.nst s).port q).port
  let lev := d.lineLevels s q n
  let zero := lev.all (· = 0)
  let banks := d.newBanks s q n
  let d := d.newScale p
  let sub := d.subdot
  let per := sub.1
  let d := sub.2
  let h := d.hp p
  let slot := ((d.applyDue s n).hp p).slot
  let mixed := match banks with | some l => l.any id && l.any (!·) | none => false
  let bank := match banks with | some l => if l.all id then 1 - h.bank else h.bank | none => h.bank
  let bitmap := match banks with | some l => if mixed then l.map (fun b => if b then 1 - h.bank else h.bank) else [] | none => []
  let t := h.tseq
  let d := d.sendFrame p 1 n 0
    ([twos 16 n, slot, bank, b2n mixed, b2n zero, per, h.scale, lev.length] ++ (if zero then [] else lev) ++ bitmap)
  d.modHp p (fun h => { h with
    sentLines := (h.sentLines.filter (fun l => !(l.line = n))) ++
      [{ LineTx.reset with line := n, levels := lev, tseq := t }] })

/-- Delay classes of port q's nozzles that carry data of the attempts on line n, as a range (R471, R472). -/
def Dev.classesOf (d : Dev) (s q : Nat) (n : Int) (i : Nat) : List Nat :=
  let d' := d.applyDue s n
  ((List.range (d'.carried s q)).filter (fun k => d'.attemptOn s q k n = some i)).map (fun k =>
    Tab.get 0 (d'.nport ((d'.nst s).port q).port).z k / 64)

/-- For every line from m on that port q has been sent and that is not armed, one VOID set for each of the attempts with data
on it (R471). -/
def Dev.voidPort (s q : Nat) (m : Int) (attempts : List Nat) (d : Dev) : Dev :=
  let p := ((d.nst s).port q).port
  let lines := (d.hp p).sentLines.filter (fun l => decide (m ≤ l.line) && !l.armed && !l.fsync)
  let base := d
  forL lines (fun l d =>
    forL attempts (fun i d =>
      let cl := base.classesOf s q l.line i
      let d' := base.applyDue s l.line
      match cl.min? , cl.max? with
      | some lo, some hi =>
        ((d.send (.void p (twos 16 l.line) lo hi)).modHp p (fun h => { h with
          voidSent := (h.voidSent + 1) % 256,
          sentLines := h.sentLines.map (fun x => if x.line = l.line then
            { x with levels := x.levels.zipIdx.map (fun e =>
                if base.attemptOn s q e.2 l.line = some i || d'.attemptOn s q e.2 l.line = some i then 0 else e.1) }
            else x) }))
      | _, _ => d) d) d

/-- Every port of a stream, as indices of its list. -/
def Dev.portIdx (d : Dev) (s : Nat) : List Nat := List.range (d.nst s).ports.length

/-- Does port q carry a marker nozzle? -/
def Dev.hasMarker (d : Dev) (s q : Nat) : Bool :=
  (List.range ((d.nst s).port q).nozzles).any (fun k => d.isMarker s ((d.nst s).base q + k))

/-- Can every port that carries a marker nozzle fire: the port UP and lines of the stream being armed (R60, R430)? -/
def Dev.markReady (d : Dev) (s : Nat) : Bool :=
  !d.flt.held && !d.sched.stopping && !d.fire.lost && !d.fire.belowMin && !(d.fst s).rateHigh &&
  (d.enc d.fire.src).deficit = 0 &&
  (d.portIdx s).all (fun q => !d.hasMarker s q || (d.hp ((d.nst s).port q).port).st = .up)

/-- A waiting spoil mark starts at the first line not yet armed once the ports that carry it can fire; the reports of its
spoils that are still to be written name it, and lines already sent that gain its drops are sent again (R60, R62, R473). -/
def Dev.placeMark (s : Nat) (d : Dev) : Dev :=
  if !(d.ist s).markWait || !d.markReady s then d
  else
    let m := (d.fst s).nextArm
    let idx := (d.ist s).markReports
    let mark (r : Report) : Report :=
      if r.event = 2 && r.stream = s && idx.contains r.index && !r.marked then
        { r with marked := true, wpMark := twos 48 (64 * m) }
      else r
    let d := d.modIst s (fun x => { x with markWait := false, markStart := some m, markReports := [] })
    let d := { d with imp := { d.imp with
        jobs := d.imp.jobs.map (fun (j : CkptJob) => { j with reports := j.reports.map mark }) } }
    let d := d.modRptq s (fun q => { q with held := q.held.map mark })
    forL (d.portIdx s) (fun q d =>
      let p := ((d.nst s).port q).port
      let gain := (d.hp p).sentLines.filter (fun l => decide (m ≤ l.line) && !l.armed && !l.fsync &&
        !(d.lineLevels s q l.line = l.levels))
      if (d.hp p).st = .up then forL gain (fun l d => d.sendLine s q l.line) d else d) d

end Sys2Proof.Machine
end

