-- ==== Sys2Proof/Machine/Capture.lean ====
section
/-! DEFINITION. Fired-dot capture (spec chapter 5): the open block of each captured port, records and the capture store. The
captured lines are those armed, with the levels last sent (log entry 24). -/

namespace Sys2Proof.Machine

/-- Bytes of the capture store (R277). -/
def captureStore : Nat := 64 * 2 ^ 20

/-- Lines of the segment that a captured line of an attempt or mark of n lines lies in (R230). -/
def CapBlock.segmentLines (b : CapBlock) (n : Nat) : Nat := min 4096 (n - 4096 * b.segment)

/-- The most bytes a record of n lines of a width may take: each block of 256 lines RAW, padded to 64 bytes (R231, R234, R274,
R276). -/
def recordBound (lines width : Nat) : Nat :=
  let block (k : Nat) : Nat := 16 + (3 * width * k + 63) / 64 * 8
  let full := lines / 256 * block 256 + (if lines % 256 = 0 then 0 else block (lines % 256))
  (32 + full + 63) / 64 * 64

/-- RECORD_BYTES: the compressor's choice among equivalent codes is not specified (R273), so the number of 64-byte units is
free between 1 and that of RAW blocks (log entry 5). -/
def Dev.recordBytes (lines width : Nat) (d : Dev) : Nat × Dev :=
  (64 * (1 + d.takeFree.1 % (recordBound lines width / 64)), d.takeFree.2)

/-- A capture record is discarded and counted (R278, R280, R714). -/
def Dev.captureLost (s : Nat) (d : Dev) : Dev := d.modCapq s (fun q => { q with lost := satInc 32 q.lost })

/-- The open block of port p of stream s closes and its record goes to the capture store, or is discarded where it does not
fit (R275 to R278); while shedding stage 2 defers compression it is held as it is (R279). -/
def Dev.closeCapture (s p : Nat) (flushed : Bool) (d : Dev) : Dev :=
  if !d.codec.capOpen.testBit p then d
  else
    let b := d.capBlock p
    let length := if b.mark then (d.ist s).markLines else (d.entry b.index).desc.length
    let width := ((b.lines.map (·.length)).foldl max 1)
    let sz := d.recordBytes b.lines.length width
    let bytes := sz.1
    let d := sz.2
    let r : CapRec := { CapRec.reset with
      stream := s, port := p, block := b, flushed := flushed, bytes := bytes, raw := decide (2 ≤ d.sched.stage),
      isPartial := decide (b.lineOffset + b.lines.length < b.segmentLines length) }
    let d := (d.modCapBlock p (fun _ => CapBlock.reset))
    let d := { d with codec := { d.codec with capOpen := d.codec.capOpen ^^^ 2 ^ p } }
    if (d.codec.store.map (·.bytes)).sum + bytes ≤ captureStore then
      { d with codec := { d.codec with store := d.codec.store ++ [r] } }
    else d.captureLost s

/-- Every open block of stream s closes; with a port set, only those outside it. -/
def Dev.closeCaptures (s : Nat) (keep : Nat) (flushed : Bool) (d : Dev) : Dev :=
  forL (d.nst s).ports (fun e d => if keep.testBit e.port then d else d.closeCapture s e.port flushed) d

/-- A STAGE_CAPTURE with FLUSH completes once no flushed record of its stream waits (R271). -/
def Dev.flushEnd (s : Nat) (any : Bool) (d : Dev) : Dev :=
  let q := d.capq s
  if q.flushDue || q.flush.isNone || d.codec.store.any (fun (r : CapRec) => r.stream = s && r.flushed) then d
  else (d.modCapq s (fun q => { q with flush := none })).complete? q.flush (if any then .done else .doneEmpty) 0 0

/-- Is a capture block of the stream open? -/
def Dev.captureAny (d : Dev) (s : Nat) : Bool := (d.nst s).ports.any (fun e => d.codec.capOpen.testBit e.port)

/-- A new PORT_MASK or ENABLE and a flush take effect at a line boundary of stream s (R266, R270, R271). -/
def Dev.captureBoundary (s : Nat) (d : Dev) : Dev :=
  let q := d.capq s
  let any := d.captureAny s
  let d := if q.flushDue then
      ((d.closeCaptures s 0 true).modCapq s (fun q => { q with flushDue := false })).flushEnd s any else d
  match q.newPorts with
  | none => d
  | some m => (d.closeCaptures s m false).modCapq s (fun q => { q with ports := m, newPorts := none })

/-- The block the captured line of port q on stream line n belongs to, with the number of its lines: that of the attempt, or
of the spoil mark, at the port's own position (R276). -/
def Dev.captureOf (d : Dev) (s q : Nat) (n : Int) : Option (CapBlock × Nat) :=
  let p := ((d.nst s).port q).port
  let u : Int := n - (d.nport p).y / 64
  let at_ (b : CapBlock) (l : Nat) : CapBlock := { b with segment := l / 4096, lineOffset := l % 4096, wpFirst := twos 48 (64 * n) }
  match d.attemptAt s u with
  | some i =>
    let e := d.entry i
    some (at_ { CapBlock.reset with index := i, id := e.desc.id, acceptNum := e.acceptNum, attempt := e.attempt }
      (u - e.firstLine.getD 0).toNat, e.desc.length)
  | none =>
    let x := d.ist s
    match x.markStart with
    | some m =>
      if m ≤ n ∧ n < m + x.markLines then
        let e := d.entry x.markEntry
        some (at_ { CapBlock.reset with
          mark := true, index := x.markEntry, id := e.desc.id, acceptNum := e.acceptNum, attempt := x.markAttempt }
          (n - m).toNat, x.markLines)
      else none
    | none => none

/-- The levels port q was sent for stream line n join its open block; a line of another attempt, segment or mark, or of the
segment's end, closes the block (R275, R276). -/
def Dev.captureLine (s q : Nat) (n : Int) (levels : List Nat) (d : Dev) : Dev :=
  let p := ((d.nst s).port q).port
  if !(d.capq s).ports.testBit p || !(d.dom 4 = .on) then d
  else match d.captureOf s q n with
  | none => d.closeCapture s p false
  | some (b, length) =>
    let o := d.capBlock p
    let same := d.codec.capOpen.testBit p && o.index = b.index && o.attempt = b.attempt && o.segment = b.segment &&
      o.mark = b.mark && o.lineOffset + o.lines.length = b.lineOffset
    let d := if same then d else d.closeCapture s p false
    let d := if same then d.modCapBlock p (fun o => { o with lines := o.lines ++ [levels] })
      else { d with codec := { d.codec with capOpen := d.codec.capOpen ||| 2 ^ p } }.modCapBlock p (fun _ =>
        { b with lines := [levels] })
    let o := d.capBlock p
    if o.segmentLines length ≤ o.lineOffset + o.lines.length then d.closeCapture s p false else d

/-- The 32-byte header of a capture record (R276); NOT_SMALLER follows the compressor's choice and is free. -/
def CapRec.header (r : CapRec) (notSmaller : Bool) : List Nat :=
  let b := r.block
  let width := (b.lines.map (·.length)).foldl max 1
  leBytes 8 b.id ++ leBytes 4 b.acceptNum ++ [b.segment % 256, r.port + 16 * b.attempt] ++
  leBytes 2 (b.lineOffset + 2 ^ 12 * b2n r.isPartial + 2 ^ 13 * b2n r.flushed + 2 ^ 14 * b2n notSmaller + 2 ^ 15 * b2n b.mark) ++
  leBytes 8 b.wpFirst ++ leBytes 4 r.bytes ++ leBytes 2 width ++ [(b.lines.length + 255) / 256, 0]

end Sys2Proof.Machine
end

