-- ==== Sys2Proof/Machine/Spoils.lean ====
section
/-! DEFINITION. Reports, checkpoint records, spoils, re-queueing and cancellation of imprints (spec chapter 2). -/

namespace Sys2Proof.Machine

/-! ## Reports -/

/-- A web position that is unknown (R62). -/
def unknownWp : Nat := 2 ^ 48 - 1

/-- Reference-row position of a stream line, modulo 2^48 (R420). -/
def wpOf (n : Int) : Nat := twos 48 (64 * n)

/-- A report record's 48 bytes (R62). -/
def Report.bytes (r : Report) : List Nat :=
  leBytes 8 r.id ++ leBytes 4 r.acceptNum ++
  leBytes 4 (r.index + r.attempt * 2 ^ 20 + r.event * 2 ^ 24 + r.stream * 2 ^ 28 + b2n r.marked * 2 ^ 30) ++
  leBytes 8 (r.wpFirst + r.reason * 2 ^ 48) ++ leBytes 8 r.wpLast ++ leBytes 8 r.wpMark ++ leBytes 8 r.device

/-- Can a report queue take a record: it is enabled with a size of R163 and, in host memory, has a free entry (R142,
R164)? -/
def RptQ.space (q : RptQ) : Bool :=
  q.enable && decide (6 ≤ q.log2) && decide (q.log2 ≤ 16) &&
  (q.ethernet || decide ((q.tail + 2 ^ 32 - q.head) % 2 ^ 32 < 2 ^ q.log2))

/-- One record is written to stream s's queue or leaves in an RPT datagram (R163, R157). -/
def Dev.writeReport (s : Nat) (r : Report) (d : Dev) : Dev :=
  let q := d.rptq s
  let d := (d.modRptq s (fun q => { q with tail := (q.tail + 1) % 2 ^ 32 })).send (.report s r)
  if q.ethernet then
    let ring := d.ring q.ring
    let o : EthOut := { EthOut.reset with
      tseq := ring.tseqNext, rpt := true, item := r.acceptNum, bytes := r.bytes, rtoMs := d.rings.rtoMs, sends := if ring.peerLost then 0 else 1 }
    let d := d.modRing q.ring (fun x => { x with tseqNext := (x.tseqNext + 1) % 2 ^ 32, unacked := x.unacked ++ [o] })
    d.when (!ring.peerLost) (Dev.send (.datagram 5 q.ring (o.tseq :: r.bytes)))
  else
    (d.send (.hostWrite (q.baseLo + q.baseHi * 2 ^ 32 + 48 * (q.tail % 2 ^ q.log2)) r.bytes)).msix (2 + s)

/-- Held records of stream s are written, oldest first, as far as the queue takes them (R164, R142); fuel bounds the loop. -/
def Dev.flushReports (s : Nat) : Nat → Dev → Dev
  | 0, d => d
  | fuel + 1, d =>
    match (d.rptq s).held with
    | [] => d
    | r :: rest =>
      if (d.rptq s).space then
        Dev.flushReports s fuel ((d.modRptq s (fun q => { q with held := rest })).writeReport s r)
      else d

/-- A report record is ready for stream s's queue (R65). -/
def Dev.report (s : Nat) (r : Report) (d : Dev) : Dev :=
  let d := d.modRptq s (fun q => { q with held := q.held ++ [r] })
  d.flushReports s ((d.rptq s).held.length)

/-- PRINTED and CANCELLED reports that no imprint of lower ACCEPT_NUM holds back are written (R66). -/
def Dev.releaseFinals (s : Nat) : Nat → Dev → Dev
  | 0, d => d
  | fuel + 1, d =>
    let x := d.ist s
    match x.awaiting with
    | [] => forL x.finals (fun f d => d.report s f.2) (d.modIst s (fun x => { x with finals := [] }))
    | (a, _) :: rest =>
      match x.finals.find? (fun f => f.1 = a) with
      | none => d
      | some f =>
        Dev.releaseFinals s fuel
          ((d.modIst s (fun x => { x with awaiting := rest, finals := x.finals.filter (fun f => !(f.1 = a)) })).report s f.2)

/-- A final report of stream s becomes ready (R66). -/
def Dev.finalReport (s : Nat) (r : Report) (d : Dev) : Dev :=
  let d := d.modIst s (fun x => { x with finals := x.finals ++ [(r.acceptNum, r)] })
  d.releaseFinals s ((d.ist s).awaiting.length + 1)

/-- The reports of a checkpoint job are due: PRINTED and CANCELLED under R66, the others at once (R65, R67, R84). -/
def Dev.dueReport (r : Report) (d : Dev) : Dev :=
  if r.event = 1 || r.event = 3 then d.finalReport r.stream r else d.report r.stream r

/-- A report of an entry's present attempt. -/
def Dev.mkReport (d : Dev) (i event reason : Nat) : Report :=
  let e := d.entry i
  { Report.reset with
    id := e.desc.id, acceptNum := e.acceptNum, index := i, attempt := e.attempt, event := event, stream := e.stream,
    reason := reason, wpFirst := unknownWp, wpLast := unknownWp, device := if d.sys.addrValid then d.sys.addr else 4095 }

/-- First stream line an AT_WP start names (R421). -/
def startLine (wp : Nat) : Nat := (wp + 63) / 64

/-- Does the present attempt start at the descriptor's START_WP (R34, R58)? -/
def Entry.atWp (e : Entry) : Bool := e.desc.startMode = 0 && !e.reprint

/-- The report of an imprint cancelled before any line of its attempt was fired: WP_FIRST is the planned start of an AT_WP
attempt, else unknown. -/
def Dev.cancelReport (d : Dev) (i reason : Nat) : Report :=
  let e := d.entry i
  { d.mkReport i 3 reason with wpFirst := if e.atWp then wpOf (startLine e.desc.startWp) else unknownWp }

/-! ## Checkpoint records -/

/-- A record waits to be programmed, with the reports that follow it (R65, R67). -/
def Dev.checkpoint (i event attempt : Nat) (reports : List Report) (d : Dev) : Dev :=
  let e := d.entry i
  let rec' : CkptRec := { CkptRec.reset with
    id := e.desc.id, acceptNum := e.acceptNum, stream := e.stream, event := event, attempt := attempt }
  { d with imp := { d.imp with jobs := d.imp.jobs ++ [{ record := rec', reports := reports, index := some i }] } }

/-! ## Cancellation -/

/-- An imprint leaves its stream's queue. -/
def Dev.unqueue (s i : Nat) (d : Dev) : Dev := d.modIst s (fun x => { x with queue := x.queue.filter (fun j => !(j = i)) })

/-- The screening engine gives up an attempt (R288). -/
def Dev.unscreen (s i : Nat) (d : Dev) : Dev := d.modSst s (fun x => if x.cur = some i then { x with cur := none } else x)

/-- A report follows those of the checkpoint record that waits for an entry (R82, R83). -/
def Dev.afterRecord (i : Nat) (r : Report) (d : Dev) : Dev :=
  let mine (j : CkptJob) : Bool := j.index = some i && j.record.acceptNum = r.acceptNum && j.record.id = r.id
  { d with imp := { d.imp with
      jobs := d.imp.jobs.map (fun j => if mine j then { j with reports := j.reports ++ [r] } else j) } }

/-- An uncommitted imprint becomes CANCELLED and its report is due (R45, R48, R51), after the reports of R82 where their
record still waits (R83). -/
def Dev.cancel (i reason : Nat) (d : Dev) : Dev :=
  let e := d.entry i
  let s := e.stream
  let r := d.cancelReport i reason
  let d := d.modEntry i (fun e => { e with
    st := .cancelled, staged := false, lines := [], held := false, unresolved := false })
  let d := (d.unqueue s i).unscreen s i
  if e.unresolved then d.afterRecord i r else d.finalReport s r

/-! ## Spoils -/

/-- The entry as its next attempt: ACCEPTED, to be screened afresh and to start as NEXT_AVAILABLE (R45, R55, R58, R300). -/
def Entry.next (reason : Nat) (e : Entry) : Entry :=
  { e with
    attempt := e.attempt + 1, st := if e.desc.maxAttempts ≤ e.attempt + 1 then .cancelled else .accepted, reprint := true,
    cause := reason, firstLine := none, staged := false, lines := [], carry := [], lastFired := none,
    held := false, heldAt := none, shedFallback := false, marked := false }

/-- One imprint is spoiled: its SPOILED report and, when its attempts are exhausted, its CANCELLED report wait for its
checkpoint record (R54, R55, R61, R62, R65). -/
def Dev.spoilEntry (i reason : Nat) (mark : Option Int) (d : Dev) : Dev :=
  let e := d.entry i
  let s := e.stream
  let spoiled : Report := { d.mkReport i 2 reason with
    wpFirst := match e.firstLine with | some f => wpOf f | none => unknownWp,
    wpLast := match e.lastFired with | some n => wpOf n | none => unknownWp,
    marked := mark.isSome, wpMark := match mark with | some m => wpOf m | none => 0 }
  let cancelled : Report := { d.mkReport i 3 0x21 with attempt := e.attempt + 1 }
  let out := e.desc.maxAttempts ≤ e.attempt + 1
  let d := d.checkpoint i 2 e.attempt (if out then [spoiled, cancelled] else [spoiled])
  let d := (d.modEntry i (Entry.next reason)).modIst s (fun x => { x with spoils := satInc 16 x.spoils })
  ((d.when out (Dev.unqueue s i)).unscreen s i)

/-- Does a spoil of the imprint fire a spoil mark on its stream (R42, R60)? -/
def Dev.wantsMark (d : Dev) (i : Nat) : Bool :=
  let e := d.entry i
  let x := d.ist e.stream
  !(x.markLevel = 0) && (e.desc.spoilMark || x.shortHorizon)

/-- The imprints of one stream are spoiled from its first line not yet armed, each with its reason, in queue order: VOID sets
for lines sent and not armed, the end of their capture blocks, the spoil mark, the reports (R373, R471, R275, R60). No mark where no line can be armed after
the spoil, under the safe state and an orderly stop (R542, R817, log entry 20). -/
def Dev.spoilSet (s : Nat) (picks : List (Nat × Nat)) (d : Dev) : Dev :=
  if picks.isEmpty then d
  else
    let m := (d.fst s).nextArm
    let idx := picks.map (·.1)
    let marked := picks.filter (fun p => d.wantsMark p.1 && !(p.2 = 0x01) && !(p.2 = 0x0C))
    let d := forL (d.portIdx s) (fun q d => d.voidPort s q m idx) d
    let d := forL (d.nst s).ports (fun e d => if idx.contains (d.capBlock e.port).index && !(d.capBlock e.port).mark then
      d.closeCapture s e.port false else d) d
    let attempt := (marked.head?.map (fun p => (d.entry p.1).attempt)).getD 0
    let d := forL picks (fun p d => d.spoilEntry p.1 p.2 none) d
    match marked with
    | [] => d
    | f :: _ => (d.modIst s (fun x => { x with
        markWait := true, markReports := x.markReports ++ marked.map (·.1),
        markEntry := if x.markWait then x.markEntry else f.1, markAttempt := if x.markWait then x.markAttempt else attempt
        })).placeMark s

/-- A RELAXED stream moves a spoiled imprint behind its last committed successor (R57). -/
def Dev.requeueRelaxed (s i : Nat) (d : Dev) : Dev :=
  d.modIst s (fun x =>
    let rest := x.queue.filter (fun j => !(j = i))
    let last := (rest.zipIdx.filter (fun e => (d.entry e.1).onWeb)).map (·.2)
    match last.getLast? with
    | some k => { x with queue := rest.take (k + 1) ++ [i] ++ rest.drop (k + 1) }
    | none => { x with queue := i :: rest })

/-- Imprints of stream s behind imprint i in stream order. -/
def Dev.behind (d : Dev) (s i : Nat) : List Nat := ((d.ist s).queue.dropWhile (fun j => !(j = i))).drop 1

/-- An imprint is spoiled with its stream's policy: STRICT spoils its COMMITTED and FIRING successors with STRICT_CASCADE and
keeps the order, RELAXED lets them fire and re-queues it behind them (R56, R57). -/
def Dev.spoil (i reason : Nat) (d : Dev) : Dev :=
  let e := d.entry i
  let s := e.stream
  if !e.onWeb then d
  else if (d.ist s).policy then
    let d := d.spoilSet s [(i, reason)]
    if (d.entry i).st = .cancelled then d else d.requeueRelaxed s i
  else d.spoilSet s ((i, reason) :: ((d.behind s i).filter (fun j => (d.entry j).onWeb)).map (fun j => (j, 0x05)))

/-- Imprints of a stream are spoiled one after the other under its policy. -/
def Dev.spoilList (l : List Nat) (reason : Nat) (d : Dev) : Dev := forL l (fun i d => d.spoil i reason) d

/-- COMMITTED and FIRING imprints of a stream, in stream order. -/
def Dev.onWeb (d : Dev) (s : Nat) : List Nat := (d.ist s).queue.filter (fun i => (d.entry i).onWeb)

/-- FIRING imprints of a stream. -/
def Dev.firing (d : Dev) (s : Nat) : List Nat := (d.ist s).queue.filter (fun i => (d.entry i).st = .firing)

/-- Several imprints of one stream are spoiled by one event, each for the same reason: STRICT spoils their other successors
with STRICT_CASCADE, RELAXED re-queues them in their order behind the last committed successor (R56, R57). -/
def Dev.spoilMany (s : Nat) (idx : List Nat) (reason : Nat) (d : Dev) : Dev :=
  let idx := (d.onWeb s).filter idx.contains
  match idx with
  | [] => d
  | i :: _ =>
    if (d.ist s).policy then
      let d := d.spoilSet s (idx.map (fun i => (i, reason)))
      forL idx.reverse (fun i d => if (d.entry i).st = .cancelled then d else d.requeueRelaxed s i) d
    else
      d.spoilSet s ((i :: (d.behind s i).filter (fun j => (d.entry j).onWeb)).map (fun j =>
        (j, if idx.contains j then reason else 0x05)))

/-- Every COMMITTED and FIRING imprint of a stream is spoiled for one reason; the order is kept under both policies (R79,
R819, R542). -/
def Dev.spoilAll (s reason : Nat) (d : Dev) : Dev := d.spoilSet s ((d.onWeb s).map (fun i => (i, reason)))

/-- Every COMMITTED and FIRING imprint of the device is spoiled. -/
def Dev.spoilEvery (reason : Nat) (d : Dev) : Dev := forN 4 (fun s d => d.spoilAll s reason) d

/-- Does any stream hold a COMMITTED or FIRING imprint? -/
def Dev.anyOnWeb (d : Dev) : Bool := (List.range 4).any (fun s => !(d.onWeb s).isEmpty)

/-- The stream of a port spoils its COMMITTED and FIRING imprints (R501, R502). -/
def Dev.spoilPort (p reason : Nat) (d : Dev) : Dev := match d.streamOf p with | some s => d.spoilAll s reason | none => d

end Sys2Proof.Machine
end

