-- ==== Sys2Proof/Machine/PowerSeq.lean ====
section
/-! DEFINITION. The rail sequencer and the system reset outputs (spec chapter 15): power-up and shutdown steps, failures,
waiting requests and what ends a sequence. -/

namespace Sys2Proof.Machine

/-- Every rail number. -/
def railList : List Nat := List.range 16

/-- Rails of a mask. -/
def railsOf (mask : Nat) : List Nat := railList.filter (fun n => mask.testBit n)

/-- A mask of the rails in a list. -/
def maskOf (l : List Nat) : Nat := (railList.map (fun n => if l.contains n then 2 ^ n else 0)).sum

/-- Rails of a list in ascending (ORDER, rail number) (R751). -/
def Dev.inOrder (d : Dev) (l : List Nat) : List Nat :=
  (List.range 16).flatMap (fun o => l.filter (fun n => (d.rail n).order = o))

/-- Every rail that depends on a rail of the list, at any depth (R750). -/
def Dev.dependants (d : Dev) : Nat → List Nat → List Nat
  | 0, l => l
  | fuel + 1, l =>
    Dev.dependants d fuel (l ++ railList.filter (fun n =>
      !l.contains n && (d.rail n).configured && l.any (fun m => (d.rail n).prereq.testBit m)))

/-- SRST_k while a rail of its RAIL_MASK is not UP (R765). -/
def Dev.updSrst (d : Dev) : Dev :=
  forN 4 (fun k d =>
    let x := d.srst k
    if (railsOf x.railMask).any (fun n => !((d.rail n).st = .up)) && !x.asserted then
      (d.modSrst k (fun x => { x with asserted := true })).pin .srst k true
    else d) d

/-- PEN_n of a rail. -/
def Dev.penOut (n : Nat) (on : Bool) (d : Dev) : Dev :=
  (d.modRail n (fun r => { r with en := on })).pin .pen n (on = (decide (n < 5) || (d.rail n).enActiveHigh))

/-- PEN_n is asserted: the rail's step of a power-up begins (R752). -/
def Dev.railStep (n : Nat) (d : Dev) : Dev :=
  let d := (d.penOut n true).modRail n (fun r => { r with st := if r.good then .qualifying else .rising })
  { d with pwr := { d.pwr with
      seqRail := n, enabledOrder := n :: d.pwr.enabledOrder.filter (fun m => !(m = n)) } }

/-- A rail's failure as recorded: CAUSE and FAIL_SEEN (R801). -/
def Dev.railCause (n cause : Nat) (d : Dev) : Dev := d.modRail n (fun r => { r with cause := cause, failSeen := true })

/-- PEN_n is released: a shutdown step begins (R753). -/
def Dev.railFall (n : Nat) (d : Dev) : Dev :=
  let d := ((d.penOut n false).modRail n (fun r => { r with st := .falling, warning := false })).updSrst
  { d with pwr := { d.pwr with seqRail := n, enabledOrder := d.pwr.enabledOrder.filter (fun m => !(m = n)) } }

/-- RESULT of a power-up (R754). -/
def Dev.onResult (d : Dev) (mask : Nat) : Nat :=
  maskOf ((railsOf mask).filter (fun n => (d.rail n).st = .up)) +
  2 ^ 16 * maskOf ((railsOf mask).filter (fun n => (d.rail n).st = .failed))

/-- Every domain except PD_0 is held in reset, and the device is not operational until it boots. -/
def Dev.holdDomains (d : Dev) : Dev :=
  let d := forN 11 (fun k d => d.modDom (k + 1) (fun _ => .reset)) d
  { d with sys := { d.sys with stage := .rom, pcieUp := false } }

/-- Stage 7 (R544, R545, R763). -/
def Dev.enterStage7 (d : Dev) : Dev := { d.holdDomains with sched := { d.sched with stage := 7 } }

/-- The sequence in progress has no further step: its packet completes and the sequencer is idle (R754, R755, R757, R763,
R782). -/
def Dev.seqDone (d : Dev) : Dev :=
  let p := d.pwr
  let d := { d with pwr := { d.pwr with
      seqKind := .idle, seqTodo := [], seqRef := none, seqMask := 0, seqAbort := false } }
  match p.seqKind with
  | .powerUp =>
    let failed := (railsOf p.seqMask).any (fun n => (d.rail n).st = .failed)
    d.complete? p.seqRef (if p.seqAbort then .aborted else if failed then .timeout else .done) (d.onResult p.seqMask) 0
  | .shutdown => d.complete? p.seqRef .done p.seqMask 0
  | .timedShutdown =>
    if d.pwr.cycling then { d.holdDomains with pwr := { d.pwr with offHold := true } } else d.enterStage7
  | .boot =>
    if (List.range 5).all (fun n => (d.rail n).st = .up) then
      { d with sys := { d.sys with stage := if d.sys.stage = .rails then .clocks else d.sys.stage } }
    else { d with pwr := { d.pwr with bootRetry := true } }
  | _ => d

/-- The next rails of the sequence that need no time are passed over and the next step begins: in a power-up a rail whose
prerequisite is not UP records PREREQ_FAILED (R759; STATE FAILED, log entry 21). Fuel bounds the loop. -/
def Dev.seqNext : Nat → Dev → Dev
  | 0, d => d.seqDone
  | fuel + 1, d =>
    match d.pwr.seqTodo with
    | [] => d.seqDone
    | n :: rest =>
      let d := { d with pwr := { d.pwr with seqTodo := rest } }
      if d.pwr.seqKind = .powerUp || d.pwr.seqKind = .boot then
        if (railsOf (d.rail n).prereq).all (fun m => (d.rail m).st = .up) then d.railStep n
        else Dev.seqNext fuel ((d.railCause n 6).modRail n (fun r => { r with st := .failed }))
      else if (d.rail n).en then d.railFall n
      else Dev.seqNext fuel d

/-- A request begins (R754, R755, R756). -/
def Dev.seqBegin (q : SeqReq) (d : Dev) : Dev :=
  let up := q.kind = .powerUp || q.kind = .boot
  let todo := if up then d.inOrder ((railsOf q.mask).filter (fun n => !((d.rail n).st = .up)))
    else d.pwr.enabledOrder.filter (fun n => q.mask.testBit n)
  let d := { d with pwr := { d.pwr with
      seqKind := q.kind, seqTodo := todo, seqMask := if up then q.mask else maskOf todo, seqRef := q.ref,
      seqAbort := false } }
  let d := if up then forL todo (fun n d => d.modRail n (fun r => { r with st := .wait, chatter := 0 })) d else d
  d.seqNext 17

/-- While the sequencer is idle and a request waits, the first one begins (R756); fuel bounds the loop. -/
def Dev.seqPump : Nat → Dev → Dev
  | 0, d => d
  | fuel + 1, d =>
    if d.pwr.seqKind = .idle && !d.pwr.offHold then
      match d.pwr.seqWaiting with
      | [] => d
      | q :: rest => Dev.seqPump fuel ({ d with pwr := { d.pwr with seqWaiting := rest } }.seqBegin q)
    else d

/-- The step in progress has ended and the sequence goes on (R751, R753). -/
def Dev.seqGo (d : Dev) : Dev := (d.seqNext 17).seqPump 40

/-- A request reaches the sequencer. A shutdown that finds a power-up running lets it finish its step, abandons the rest and
runs next; otherwise requests run in order of arrival (R756, R757, R758). The safe rail shutdown and the timed shutdown run
ahead of every waiting request (R818, R763). -/
def Dev.seqRequest (q : SeqReq) (d : Dev) : Dev :=
  let isUp := q.kind = .powerUp || q.kind = .boot
  let ahead := !isUp && (d.pwr.seqKind = .powerUp || q.kind = .safeShutdown || q.kind = .timedShutdown)
  let d := { d with pwr := { d.pwr with
      seqWaiting := if ahead then q :: d.pwr.seqWaiting else d.pwr.seqWaiting ++ [q] } }
  let d := if !isUp && d.pwr.seqKind = .powerUp then
      let left := d.pwr.seqTodo
      let d := forL left (fun n d => d.modRail n (fun r => { r with st := .off })) d
      { d with pwr := { d.pwr with seqTodo := [], seqAbort := true } }
    else d
  d.seqPump 40

/-- A rail fails to come up: PEN_n is released, the rail is FAILED, FLT_RAIL_FAIL is raised and the power-up goes on (R759);
a boot rail's failure takes the boot rails down (R745). -/
def Dev.railFails (n cause : Nat) (d : Dev) : Dev :=
  let d := (((d.penOut n false).railCause n cause).modRail n (fun r => { r with
    st := .failed, fails := satInc 32 r.fails })).raise (209 + n) 0
  let d := { d with pwr := { d.pwr with enabledOrder := d.pwr.enabledOrder.filter (fun m => !(m = n)) } }
  if d.pwr.seqKind = .boot then
    let on := d.pwr.enabledOrder.filter (fun m => decide (m < 5))
    let d := { d with pwr := { d.pwr with seqKind := .idle, seqTodo := [], bootRetry := true } }
    if on.isEmpty then d else d.seqRequest { kind := .shutdown, mask := maskOf on, ref := none }
  else d.seqGo

/-- The timed shutdown begins: every enabled rail from 5 to 15, then SUPV_4 to SUPV_0 (R763); the order in which rails were
enabled gives it. -/
def Dev.timedShutdown (d : Dev) : Dev :=
  if d.pwr.seqKind = .timedShutdown || d.pwr.seqWaiting.any (fun q => q.kind = .timedShutdown) then d
  else
    let d := { d with pwr := { d.pwr with
        enabledOrder := d.pwr.enabledOrder.filter (fun n => decide (5 ≤ n)) ++ [4, 3, 2, 1, 0].filter (fun n => (d.rail n).en) } }
    d.seqRequest { kind := .timedShutdown, mask := 0xFFFF, ref := none }

end Sys2Proof.Machine
end

