-- ==== Sys2Proof/Machine/WarmReset.lean ====
section
/-! DEFINITION. A warm reset (spec chapters 2, 3, 9 to 15): what each block keeps and what its WARM fields return to. The
device then starts again in FW_INIT and is operational at BOOT_OPERATIONAL. -/

namespace Sys2Proof.Machine

/-- One entry of the fault log, newest first, at most 256 (R816). -/
def Dev.logEvent (source kind : Nat) (d : Dev) : Dev :=
  let e : LogEntry := { timeUs := d.ns / 1000 % 2 ^ 48, source := source, kind := kind }
  { d with flt := { d.flt with log := (e :: d.flt.log).take 256 } }

/-- The rings after a warm reset: every register at its reset value, packets in progress discarded without completions;
windows, SEQ_VALID and report records not yet written are kept (R141, R142, R156). -/
def Dev.warmRings (d : Dev) : Dev :=
  let keep (r : Ring) : Ring := { Ring.reset with
    seqValid := r.seqValid, seqTop := r.seqTop, window := r.window, windowOf := r.windowOf }
  { d with rings := { Rings.reset with
      rings := d.rings.rings.map (fun c => (c.1, keep c.2)), udpPort := d.rings.udpPort,
      rptq := d.rings.rptq.map (fun c => (c.1, { RptQ.reset with held := c.2.held, ring := c.2.ring })) } }

/-- Imprints, staged lines and the decoder after a warm reset (R79, R826): STAGED imprints return to ACCEPTED. -/
def Dev.warmImprints (d : Dev) : Dev :=
  let e' (e : Entry) : Entry := { e with
    st := if e.st = .staged then .accepted else e.st, staged := false, lines := if e.onWeb then e.lines else [],
    carry := [], held := false, heldAt := none, shedFallback := false,
    decode := if e.decode = .running then .waiting else e.decode }
  let s' (x : ImpStream) : ImpStream := { x with hold := 0, spacing := 0, markStart := none }
  { d with imp := { d.imp with
      entries := d.imp.entries.map (fun c => (c.1, e' c.2)), streams := d.imp.streams.map (fun c => (c.1, s' c.2)) } }

/-- Objects, DMA channels, codec and capture after a warm reset: objects keep what they hold, channels return to their
reset values, capture records not yet delivered are lost and counted (R184, R218, R280, R142). -/
def Dev.warmStage (d : Dev) : Dev :=
  let lost (s : Nat) : Nat := (d.codec.store.filter (fun r => r.stream = s)).length +
    ((List.range 16).filter (fun p => d.codec.capOpen.testBit p && d.streamOf p = some s)).length
  let capq := (List.range 4).map (fun s => (s, { CapQ.reset with lost := min (2 ^ 32 - 1) (lost s) }))
  { d with
    ing := { d.ing with
      objs := d.ing.objs.map (fun c => (c.1, { c.2 with writing := false, readers := 0 })), chans := [], dmaDone := 0,
      stageDrops := 0 },
    codec := { Codec.reset with capq := capq } }

/-- Screening and nozzle stages after a warm reset: tables and settings are kept, WARM registers return (R326, R348). -/
def Dev.warmScreen (d : Dev) : Dev :=
  { d with
    scr := { d.scr with
      laneMap := 0x924924, laneMapRefused := false,
      streams := d.scr.streams.map (fun c => (c.1, { c.2 with
        degraded := 0, saturations := 0, capDiff := 0, capThresh := 0, cur := none })),
      dropMaps := d.scr.dropMaps.map (fun c => (c.1, { c.2 with clamped := false })) },
    noz := { d.noz with streams := d.noz.streams.map (fun c => (c.1, { c.2 with skipped := 0, blanked := 0 })) } }

/-- Fire timing after a warm reset: counts, M, deficits and WP go on (R406); the WARM fields return and the loop starts from
rest. -/
def Dev.warmFire (d : Dev) : Dev :=
  let f := d.fire
  let e' (e : Enc) : Enc := { e with
    los := false, illegal := false, rateErr := false, indexErr := false, mismatch := false, indexSpan := 0, edgeNs := 0,
    illegalCount := 0, v := 0, p := e.xE, edgeNew := false, still := true }
  { d with fire := { f with
      encs := f.encs.map (fun c => (c.1, e' c.2)), failedOver := false, belowMin := true, reversals := 0, mismatchRun := 0,
      streams := f.streams.map (fun c => (c.1, { c.2 with rateHigh := false, skipped := 0 })),
      ports := f.ports.map (fun c => (c.1, { FirePort.reset with fsyncNs := 0 })), reinits := [] } }

/-- A head port after a warm reset: DOWN without asserting reset; settings, slots, fuses and usage are kept (R485). -/
def HlPort.warm (h : HlPort) : HlPort :=
  { HlPort.reset with
    authReq := h.authReq, hvFf := h.hvFf, autoRetrain := h.autoRetrain, sendAhead := h.sendAhead, hrstMs := h.hrstMs,
    keyVer := h.keyVer, slots := h.slots, slot := h.slot, drops := h.drops, dropsPend := h.dropsPend, counter := h.counter,
    banks := h.banks, halert := h.halert, hrst := h.hrst, wasUp := h.st = .up }

/-- Scheduler, thermal sensors and arbiter after a warm reset: queued device activities complete their commands with
ABORTED and every activity ends (R555). -/
def Dev.warmSched (d : Dev) : Dev :=
  let d := forL (d.sched.acts.filter (fun a => !a.running)) (fun a d => d.complete? a.ref .aborted 0 0) d
  let c := d.sched
  { d with sched := { c with
      devPred := 0, headPred := 0, dryerPred := 0, acts := [],
      ended := ((c.acts.map (fun a => (a.id, Status.aborted))).reverse ++ c.ended).take 64,
      ports := c.ports.map (fun p => (p.1, { p.2 with warn := false, crit := false, backoff := false, peak := 0, bias := 0 })),
      zones := c.zones.map (fun z => (z.1, { z.2 with ff := 0 })), stopping := false, stopDone := false, stage := 0,
      avsBusy := [], slackFault := false, needV := 0, needFrom := 0, therm := [0, 0, 0, 0, 0, 0, 0, 0] } }

/-- Press time after a warm reset (R564, R591, R594). -/
def Dev.warmTime (d : Dev) : Dev :=
  let tb' (b : Tb) : Tb := { b with
    y := b.yi, st := if b.enable then .holdover else b.st, conv := false, offset := 0, mpd := 0, gm := 0, remain := 0,
    goodRun := 0, master := none, syncWait := none, delayReq := none, syncPort := 0 }
  let d := { d with time := { d.time with
      tb := [(0, tb' (d.tb 0)), (1, tb' (d.tb 1))], snap := [],
      tin := d.time.tin.map (fun c => (c.1, { c.2 with queue := [], overflow := false })),
      tout := d.time.tout.map (fun c => (c.1, { c.2 with active := false, edges := 0 })),
      eth := d.time.eth.map (fun c => (c.1, { EthPort.reset with asym := c.2.asym, link := c.2.link })) } }
  forN 16 (fun n d => d.when ((d.tout n).cfg.mode = 1 || (d.tout n).cfg.mode = 2) (Dev.pin .tout n false)) d

/-- Axes, channels and loops at the start of a warm reset (R641, R688). -/
def Dev.warmMotion (d : Dev) : Dev :=
  let d := forN 8 Dev.axisWarm d
  let d := { d with mot := { d.mot with
      axes := d.mot.axes.map (fun c => (c.1, { c.2 with
        limitHit := false, softHit := false, gearLost := false, backlog := false, homeResult :=
          if c.2.homeResult = 3 then 3 else 0 })),
      fols := d.mot.fols.map (fun c => (c.1, { c.2 with count := 0 })) } }
  let d := forN 4 Dev.blSafe d
  let d := { d with bl := { d.bl with
      chs := d.bl.chs.map (fun c => (c.1, { c.2 with
        limited := false, overvolt := false, overcurrent := false, undervolt := false, skipCapped := false, skips := 0,
        overvolts := 0 })) } }
  forN 32 Dev.loopSafe d

/-- Memories after a warm reset: SDRAM in self-refresh, its queues empty; on-chip banks keep owners, contents and remaps
(R706, R727). -/
def Dev.warmMemory (d : Dev) : Dev :=
  let ch (c : DdrCh) : DdrCh := { c with
    st := if c.st = .serving || c.st = .training then .selfRefresh else c.st, panicPorts := 0, refresh2x := false,
    trackQueued := false, trainFail := false, ueSeen := false, ce := 0, ue := 0, errAddr := 0, errRegion := 0, errUe := false,
    panics := 0, neighbours := 0, postponed := [], acts := [], reqs := [], wbuf := [], drain := false, openRow := [],
    hits := 0, retrainRef := none, fullRetrain := false, trackAct := 0 }
  { d with
    ddr := { d.ddr with chs := d.ddr.chs.map (fun c => (c.1, ch c.2)), scrubs := [] },
    banks := d.banks.map (fun b => (b.1, { b.2 with
      ce := 0, ue := 0, errUe := false, errOff := 0, screePos := 0, screePass := 0, screeFails := 0, stalls := 0, scree := false,
      screeCont := false, screeAct := 0, busy := false, handRef := none, handAct := 0, memtest := none })) }

/-- SYS, PWR, CLK and FLT registers of reset kind WARM; SRST outputs with ON_WARM are asserted (R765). -/
def Dev.warmSys (cause : Nat) (d : Dev) : Dev :=
  let d := { d with
    sys := { d.sys with
      irqPending := 0, irqMask := 0, stage := .fwInit, bootErr := 0, resetCause := cause, bootImgLo := 0, bootImgHi := 0,
      bootImgLen := 0, bootLoading := false, warmStarting := true, mspiTimeouts := 0, mspiDiscards := 0, tableBase := 0,
      mbox := Mailbox.reset, latch := [] },
    pwr := { d.pwr with hkExt := [], hkInt := [] },
    clk := { d.clk with colBridge := 0, colSeen := false },
    flt := { d.flt with fabReplays := [], fabRun := [], injects := [] },
    diag := Diag.reset }
  forN 4 (fun k d =>
    if (d.srst k).onWarm then (d.modSrst k (fun x => { x with asserted := true })).pin .srst k true else d) d

/-- Is a timed shutdown running or has it ended in stage 7 (R763, R764)? -/
def Dev.goingDown (d : Dev) : Bool :=
  d.sched.stage = 7 || d.pwr.cycling || d.pwr.seqKind = .timedShutdown || d.pwr.seqWaiting.any (fun q => q.kind = .timedShutdown)

/-- A warm reset out of Saddle mode: the domains come up again and the firmware is loaded from the NOR flash (R783, R831). -/
def Dev.leaveSaddle (d : Dev) : Dev :=
  let d := forN 11 (fun k d => d.modDom (k + 1) (fun _ => .on)) d
  { d with sys := { d.sys with stage := .fwLoad, saddleReason := 0 } }

/-- A warm reset with a cause of SYS_RESET_CAUSE (R780, R781). One asked for while an orderly stop or a timed shutdown runs is
ignored: those run to their ends (R542, R764, log entry 22); so is one before the firmware has started. -/
def Dev.warmReset (cause : Nat) (d : Dev) : Dev :=
  let lost := d.sys.stage = .saddle || d.sys.stage = .noImage
  if d.sched.stopping || d.goingDown || !(lost || d.sys.stage = .operational || d.sys.stage = .fwInit) then d
  else
    let d := d.logEvent 0xFF 6
    let d := { d with imp := { d.imp with streams := d.imp.streams.map (fun (c : Nat × ImpStream) => (c.1, { c.2 with spoils := 0 })) } }
    let d := (d.spoilEvery 0x07).warmSched.warmRings.warmImprints.warmStage.warmScreen.warmFire
    let d := { d with hl := { d.hl with
        ports := d.hl.ports.map (fun (c : Nat × HlPort) => (c.1, c.2.warm)), blankDue := false } }
    (((d.warmTime.warmMotion.warmMemory.warmSys cause).when lost Dev.leaveSaddle)).msix 1

end Sys2Proof.Machine
end

