-- ==== Sys2Proof/Machine/Faults.lean ====
section
/-! DEFINITION. The fault collector (spec chapter 16): source states, reactions, the safe state, and the wrappers that gate a
command by power, domain and stage and let the collector act at its end. -/

namespace Sys2Proof.Machine

/-! ## Sources -/

/-- Is source n a LEVEL source (R807)? -/
def isLevel (n : Nat) : Bool :=
  n ≤ 1 || n = 9 || n = 10 || n = 15 || n = 86 || n = 87 || (decide (91 ≤ n) && decide (n ≤ 127)) ||
  (decide (160 ≤ n) && decide (n ≤ 163)) || (decide (168 ≤ n) && decide (n ≤ 199)) || (decide (241 ≤ n) && decide (n ≤ 246))

/-- Power domain of a source (R886). -/
def sourceDomain (n : Nat) : Nat :=
  if n ≤ 10 then 11 else if n = 11 then 1 else if n ≤ 15 then 5 else if n ≤ 80 then 10 else if n ≤ 83 then 4
  else if n ≤ 89 then 9 else if n ≤ 91 then 5 else if n ≤ 94 then 0 else if n ≤ 127 then 5 else if n ≤ 199 then 11
  else if n ≤ 205 then 7 else if n ≤ 208 then 6 else 0

/-- Does the collector look at the pair of source n (R806, R886)? -/
def Dev.sourceOn (d : Dev) (n : Nat) : Bool :=
  let k := sourceDomain n
  k = 0 || d.dom k = .on || (k = 6 && d.dom 6 = .ret)

/-! ## The safe state -/

/-- CTRL BLANK on every UP port (R474). -/
def Dev.blankPorts (d : Dev) : Dev :=
  forN 16 (fun p d => if (d.hp p).st = .up then d.sendCtrl p 3 [] else d)
    { d with hl := { d.hl with blankDue := false } }

/-- Is any line armed and not yet fired? -/
def Dev.anyArmed (d : Dev) : Bool := (List.range 4).any (fun s => !(d.fst s).armed.isEmpty)

/-- CTRL BLANK goes out once the last armed line has fired: at once when none is armed (R474, R542). -/
def Dev.blankWhenFired (d : Dev) : Dev :=
  if d.anyArmed then { d with hl := { d.hl with blankDue := true } } else d.blankPorts

/-- The DRY zones and loops, channels and axes take their safe actions (R685, R639). -/
def Dev.safeActions (d : Dev) : Dev :=
  let d := forN 8 (fun z d => (d.modZone z (fun x => { x with duty := 0 })).pin .dry z false) d
  forN 8 Dev.axisSafe (forN 4 Dev.blSafe (forN 32 Dev.loopSafe d))

/-- Source n requests the safe state (R817 to R820). The device enters it once (R813). -/
def Dev.enterSafe (n : Nat) (d : Dev) : Dev :=
  let web := (d.src n).webStop
  let d := { d with flt := { d.flt with
      causes := if d.flt.causes.contains n then d.flt.causes else d.flt.causes ++ [n] } }
  let d := if web && !d.flt.webStop then ({ d with flt := { d.flt with webStop := true } }).pin .webStop 0 false else d
  if d.flt.held then d
  else
    let d := { d with flt := { d.flt with held := true, entered := true, firstSource := n } }
    let d := ((d.logEvent 0xFF 4).spoilEvery 0x01).safeActions
    let rails := (d.dependants 16 (railsOf d.flt.safeRailMask)).filter (fun r => (d.rail r).en)
    let d := if rails.isEmpty then d else d.seqRequest { kind := .safeShutdown, mask := maskOf rails, ref := none }
    d.blankWhenFired

/-! ## Raises -/

/-- The reaction of source n to a raise (R809 to R812). -/
def Dev.react (n : Nat) (d : Dev) : Dev :=
  let x := d.src n
  match x.reaction with
  | .ignore => d
  | .log => d
  | .soft => (d.msix 0).modSrc n (fun x => { x with softTimer := some (x.softTimer.getD x.timerUs) })
  | .safe => (d.msix 0).enterSafe n
  | .reset =>
    if n = 12 || n = 13 then
      ({ d with sys := { d.sys with
          lockstepSeen := d.sys.lockstepSeen || (n = 12 && !decide (d.sys.stage = Stage.operational)) } }).warmReset 7
    else
      match d.flt.lastWarmFault with
      | some t =>
        if d.ns < t + 10000000000 then
          ({ d with flt := { d.flt with resetSuppressed := true } }.msix 0).enterSafe n
        else ({ d with flt := { d.flt with lastWarmFault := some d.ns } }).warmReset 5
      | none => ({ d with flt := { d.flt with lastWarmFault := some d.ns } }).warmReset 5

/-- Does an injection drive the pair of source n, to raised or (wire) to one level (R840)? -/
def Dev.injected (d : Dev) (wire : Bool) (n : Nat) : Bool := d.flt.injects.any (fun i => i.wire = wire && i.src = n)

/-- Does a wire error or an injection hold LEVEL source n raised, whatever its condition (R805, R840)? -/
def Dev.heldUp (d : Dev) (n : Nat) : Bool := (d.src n).wireErr || d.injected false n

/-- Source n counts as raised from now on: RAISES, DETAIL, the log and the state, then the reaction (R808, R809, R815). An EVENT
source whose reaction is not SOFT is QUIET at once. -/
def Dev.activate (n detail : Nat) (d : Dev) : Dev :=
  let d := d.modSrc n (fun x => { x with
    raises := satInc 16 x.raises, detail := detail, st := if isLevel n || x.reaction = .soft then .active else .quiet })
  let d := if (d.src n).reaction = .ignore then d else d.logEvent n 1
  d.react n

/-- The collector sees source n's pair turn to raised; a LEVEL source that counts as raised already is not raised again
(R805). -/
def Dev.raiseNow (n detail : Nat) (d : Dev) : Dev :=
  if !d.sourceOn n || 248 ≤ n then d
  else if isLevel n then
    let up := (d.src n).raised || d.heldUp n
    let d := d.modSrc n (fun x => { x with raised := true })
    if up then d else d.activate n detail
  else d.activate n detail

/-- A source is no longer raised: its SOFT timer stops and it goes QUIET (R810, R815). -/
def Src.ends (x : Src) : Src := { x with softTimer := none, st := if x.st = .active then .quiet else x.st }

/-- A LEVEL source goes QUIET unless its condition, a wire error or an injection holds it raised. -/
def Dev.levelEnds (n : Nat) (d : Dev) : Dev :=
  if isLevel n && !(d.src n).raised && !d.heldUp n then d.modSrc n Src.ends else d

/-- The condition of LEVEL source n ends (R810, R815). -/
def Dev.lowerNow (n : Nat) (d : Dev) : Dev :=
  if (d.src n).raised then (d.modSrc n (fun x => { x with raised := false })).levelEnds n else d

/-- One posted event. -/
def Dev.collect (e : Bool × Nat × Nat) (d : Dev) : Dev := if e.1 then d.raiseNow e.2.1 e.2.2 else d.lowerNow e.2.1

/-- Does the event raise a source whose reaction is RESET? -/
def Dev.isReset (d : Dev) (e : Bool × Nat × Nat) : Bool := e.1 && (d.src e.2.1).reaction = .reset

/-- The collector takes the posted events, those with a RESET reaction last (R813), and then what these post in turn; fuel
bounds the rounds. No event is left. -/
def Dev.settle : Nat → Dev → Dev
  | 0, d => { d with flt := { d.flt with todo := [] } }
  | fuel + 1, d =>
    if d.flt.todo.isEmpty then d
    else
      let l := d.flt.todo
      let l := l.filter (fun e => !d.isReset e) ++ l.filter d.isReset
      Dev.settle fuel (forL l Dev.collect { d with flt := { d.flt with todo := [] } })

/-- The state once the collector has acted. -/
def State.settle (s : State) : State := s.onDev (Dev.settle 64)

/-! ## Commands -/

/-- A command that acts on a unit in power domain k: while the domain does not run, nothing happens (R806, R870). -/
def inDomain (k : Nat) (f : Dev → Dev) (s : State) : Host.Outcome State Fault Refusal :=
  if s.dev.on k then .next (s.onDev f).settle else .next s

/-- A command that may also act on the byte-addressed memories. -/
def inDomainS (k : Nat) (f : State → State) (s : State) : Host.Outcome State Fault Refusal :=
  if s.dev.on k then .next (f s).settle else .next s

/-- The row of an opcode as a command of the block. -/
def opRow (op : Nat) (chk : Packet → Dev → Option Status) (run : Packet → State → State) (r seq : Nat) (s : State) :
    Host.Outcome State Fault Refusal :=
  if s.dev.commandsRun then .next (runOp op chk run r seq s).settle else .next s

end Sys2Proof.Machine
end

