-- ==== Sys2Proof/Machine/Schedule.lean ====
section
/-! DEFINITION. Scheduled changes (spec chapters 7 to 9): the line boundary a change takes, the fixing of NEXT_GAP boundaries
and the completion of a command that schedules one. -/

namespace Sys2Proof.Machine

/-- WHEN is reserved, or APPLY_WP is not 0 with WHEN other than AT_WP (R376, R384). -/
def whenBad (when wp : Nat) : Bool := when = 3 || (!(when = 0) && !(wp = 0))

/-- Sub-dots by which a reference-row position lies ahead of the stream's last line boundary, as R19 orders positions
(R377, R421). -/
def Dev.wpAhead (d : Dev) (s wp : Nat) : Int := sInt 48 (wp + 2 ^ 48 - d.presentWp s)

/-- Is an AT_WP change too near (R377)? -/
def Dev.tooNear (d : Dev) (s wp : Nat) : Bool := decide (d.wpAhead s wp < 16384)

/-- Has the stream no COMMITTED or FIRING imprint, so that its delay stores hold no line of it (R383)? -/
def Dev.streamIdle (d : Dev) (s : Nat) : Bool := (d.onWeb s).isEmpty

/-- The boundary EARLIEST names (R376, R383). -/
def Dev.earliestLine (d : Dev) (s : Nat) : Int :=
  if d.streamIdle s then (d.fst s).nextLine else (d.fst s).nextLine - 1 + 256

/-- The boundary a change takes; none for a NEXT_GAP boundary still to be found (R376, R377, R383). -/
def Dev.boundaryOf (d : Dev) (s when wp : Nat) : Option Int :=
  if when = 0 && !d.tooNear s wp then some ((d.fst s).nextLine - 1 + (d.wpAhead s wp + 63) / 64)
  else if when = 2 && !d.streamIdle s then none
  else some (d.earliestLine s)

/-- Does the change move a stream's datum (R422, R423)? -/
def Change.isDatum (c : Change) : Bool := (c.op = 0x0603 || c.op = 0x0604) && c.fld 0 2 1 = 1

/-- Lines by which a waiting change shortens a delay or the datum (R382, R425). -/
def Dev.shortening (d : Dev) (s : Nat) (c : Change) : Int :=
  let x := d.nport c.target
  let n := ((d.nst s).port ((d.nst s).indexOf c.target)).nozzles
  let most (y : Nat) (z : Tab Nat) : Int :=
    ((List.range n).map (fun k => (delayOf x.y x.z k : Int) - delayOf y z k)).foldl max 0
  match c.op with
  | 0x0505 => most (c.fld 4 0 22) x.z
  | 0x0506 => most x.y (placeEntries x.z (c.fld 8 0 16) c.table)
  | _ => if c.isDatum then (d.fst s).datum / 64 - c.sfld 8 0 40 / 64 else 0

/-- First and one past the last planned line of every COMMITTED or FIRING imprint of a stream, in stream order. -/
def Dev.spans (d : Dev) (s : Nat) : List (Int × Int) :=
  (d.onWeb s).map (fun i => let f := (d.entry i).firstLine.getD 0; (f, f + (d.entry i).desc.length))

/-- May a NEXT_GAP boundary of n lines stand at line u (R382, R425, R888)? -/
def Dev.gapOk (d : Dev) (s : Nat) (datum : Bool) (n u : Int) : Bool :=
  (d.spans s).all (fun f => decide (u + n ≤ f.1) || decide (f.2 ≤ u)) &&
  (match (d.spans s).getLast? with | some f => decide (u + n ≤ f.1) | none => true) &&
  (!datum || (List.range n.toNat).all (fun j => !d.hasData s (u + j)))

/-- The waiting NEXT_GAP changes of a stream take one boundary, the first that serves them all, and its lines are reserved;
on a stream with nothing on the web they take its next boundary (R382, R383, R425, R888). -/
def Dev.fixGaps (s : Nat) (d : Dev) : Dev :=
  let wait := (d.nst s).changes.filter (fun c => c.boundary.isNone)
  if wait.isEmpty then d
  else
    let n := (wait.map (d.shortening s)).foldl max 1
    let e := (wait.map (·.earliest)).foldl max (d.fst s).nextLine
    let datum := wait.any (·.isDatum)
    let ends := (d.spans s).map (·.2)
    let late : List Int := if datum then
        (d.nst s).ports.flatMap (fun p => (List.range p.nozzles).flatMap (fun k =>
          ends.map (fun (x : Int) => x + (delayOf (d.nport p.port).y (d.nport p.port).z k : Nat))))
      else []
    let found := ((e :: (ends ++ late)).filter (fun u => decide (e ≤ u) && d.gapOk s datum n u)).min?
    let u := if d.streamIdle s then some (d.fst s).nextLine else found
    match u with
    | none => d
    | some u => d.modNst s (fun x => { x with
        changes := x.changes.map (fun c => if c.boundary.isNone then { c with boundary := some u } else c),
        reserved := if d.streamIdle s then x.reserved else x.reserved ++ [(u, n)] })

/-- Is a change of an opcode on a target scheduled and not yet in effect (R384, R488)? -/
def Dev.changeBusy (d : Dev) (s op target : Nat) : Bool :=
  (d.nst s).changes.any (fun c => c.op = op && c.target = target) || (op = 0x0506 && (d.hp target).changeover.isSome)

/-- A change is scheduled on stream s and its command completes with the boundary's position, or with the position unknown
(R378); a too-near AT_WP change applied as EARLIEST sets LATE (R377). -/
def Dev.schedule (s : Nat) (p : Packet) (when wp : Nat) (table : List Nat) (d : Dev) : Dev :=
  let late := when = 0 && d.tooNear s wp
  let c : Change := { Change.reset with
    op := p.op, target := p.target, boundary := d.boundaryOf s when wp, earliest := d.earliestLine s, payload := p.payload,
    table := table }
  let d := (d.modNst s (fun x => { x with changes := x.changes ++ [c] })).fixGaps s
  let u := ((d.nst s).changes.getLast?.bind (·.boundary))
  let d := d.when late (Dev.modPacket p.ref (fun q => { q with late := true }))
  d.complete p.ref .done (match u with | some u => wpOf u | none => unknownWp) 0

end Sys2Proof.Machine
end

