-- ==== Sys2Proof/Machine/Arming.lean ====
section
/-! DEFINITION. Arming and firing stream lines (spec chapters 8 and 9): FSYNC times, the conditions of arming, missed lines,
emission, and the count of drops a head fires. -/

namespace Sys2Proof.Machine

/-- The computed FSYNC time of port q of a stream for line n, 2^-16 ns of TB_2 (R427); the source's speed is not 0. -/
def Dev.fsyncTime (d : Dev) (s q : Nat) (n : Int) : Int :=
  let e := d.enc d.fire.src
  let p := ((d.nst s).port q).port
  let t : Int := 64 * n + (d.fst s).datum + ((d.nport p).y % 64 : Nat)
  e.tE + roundOpen 23 ((t * 2 ^ 16 - e.xE) * 2 ^ 24) e.v - (((d.fst s).lead + (d.fport p).hblat : Nat) : Int) * 2 ^ 16

/-- The FSYNC times of line n on the ports of a stream, with the changes due by then in effect; none at speed 0. -/
def Dev.lineTimes (d : Dev) (s : Nat) (n : Int) : List (Nat × Int) :=
  let d := d.applyDue s n
  if (d.enc d.fire.src).v = 0 then [] else (d.portIdx s).map (fun q => (((d.nst s).port q).port, d.fsyncTime s q n))

/-- The conditions of R430, the deficit left out, and no orderly stop in progress (R542). -/
def Dev.armable (d : Dev) (s : Nat) : Bool :=
  !d.fire.lost && !d.fire.belowMin && !(d.fst s).rateHigh && !d.flt.held && !d.sched.stopping

/-- Has port p acknowledged the frame of line n? -/
def HlPort.hasAcked (h : HlPort) (n : Int) : Bool := h.st = .up && h.sentLines.any (fun l => l.line = n && l.acked)

/-- Line n is passed over without firing: its frames no longer await their FSYNC (R461). -/
def Dev.passLine (s : Nat) (n : Int) (d : Dev) : Dev :=
  let d := forL (d.nst s).ports (fun e d => d.modHp e.port (fun h => { h with
    sentLines := h.sentLines.map (fun l => if l.line = n then { l with fsync := true } else l) })) d
  d.modFst s (fun f => { f with nextArm := n + 1 })

/-- A line with imprint data that a port has not acknowledged is missed: every attempt with data on it is spoiled from it
with LINK_LOST (R468). -/
def Dev.missLine (s : Nat) (n : Int) (d : Dev) : Dev :=
  let lacking := ((d.nst s).ports.map (·.port)).filter (fun p => !(d.hp p).hasAcked n)
  if d.hasData s n then
    let d := forL lacking (fun p d => (d.modHp p (fun h => { h with linesLost := satInc 32 h.linesLost })).raise (32 + p) 0) d
    (d.spoilMany s (d.attemptsOn s n) 0x0A).passLine s n
  else d.passLine s n

/-- Line n is armed on every port of the stream at time now: ARM sets, the FSYNC times fixed, the attempts with data on it
FIRING, and the lines of captured ports join their blocks (R428, R429, R467, R276). -/
def Dev.armLine (s : Nat) (n : Int) (now : Int) (times : List (Nat × Int)) (d : Dev) : Dev :=
  let idx := d.attemptsOn s n
  let fix (t : Int) : Nat := (if t < now + 256 * 2 ^ 16 then now + 256 * 2 ^ 16 else t).toNat
  let d := forL times (fun t d => (d.send (.arm t.1 (twos 16 n))).modHp t.1 (fun h => { h with
    sentLines := h.sentLines.map (fun l => if l.line = n then { l with armed := true } else l),
    confirm := h.confirm ++ [n] })) d
  let d := forL (d.portIdx s) (fun q d =>
    match (d.hp ((d.nst s).port q).port).sentLines.find? (fun l => l.line = n) with
    | some l => d.captureLine s q n l.levels
    | none => d) d
  let d := forL idx (fun i d => d.modEntry i (fun e => { e with
    st := .firing, lastFired := some (min n (e.firstLine.getD 0 + e.desc.length - 1)) })) d
  d.modFst s (fun f => { f with
    armed := f.armed ++ [{ line := n, times := times.map (fun t => (t.1, fix t.2)) }], nextArm := n + 1 })

/-- Line n comes due while it may not be armed: the COMMITTED attempts whose first line it is are spoiled under BELOW_MIN or
RATE_HIGH (R433, R434), and it passes. -/
def Dev.passDue (s : Nat) (n : Int) (d : Dev) : Dev :=
  let due := (d.attemptsOn s n).filter (fun i => (d.entry i).st = .committed)
  let d := if d.fire.belowMin then d.spoilMany s due 0x06 else if (d.fst s).rateHigh then d.spoilMany s due 0x04 else d
  d.passLine s n

/-- The lines of a stream whose earliest FSYNC lies within 2.048 µs are armed, missed or passed over, in line order; while
the deficit is above 0 or WP is lost they wait (R399, R402, R409, R428, R430, R467, R468). Fuel bounds the loop. -/
def Dev.armLoop (s : Nat) : Nat → Dev → Dev
  | 0, d => d
  | fuel + 1, d =>
    let n := (d.fst s).nextArm
    let times := d.lineTimes s n
    let now : Int := d.time.tb2
    match (times.map (·.2)).min? with
    | none => d
    | some t =>
      if now + 2048 * 2 ^ 16 < t || !((d.enc d.fire.src).deficit = 0) || d.fire.lost then d
      else if n < ((d.applyDue s n).fst s).blank then Dev.armLoop s fuel (d.passLine s n)
      else if !d.armable s then Dev.armLoop s fuel (d.passDue s n)
      else if (d.nst s).ports.all (fun e => (d.hp e.port).hasAcked n) then
        Dev.armLoop s fuel (d.armLine s n now times)
      else Dev.armLoop s fuel (d.missLine s n)

/-- Arming on a stream. -/
def Dev.arm (s : Nat) (d : Dev) : Dev :=
  d.armLoop s (((d.fire.s / 2 ^ 16 - (d.fst s).datum) / 64 - (d.fst s).nextArm).toNat + 300)

/-- INCREMENT with the whole units pending, when no transaction runs on the port's I2C pair and no authentication is in
progress (R497, R499). -/
def Dev.increment (p : Nat) (d : Dev) : Dev :=
  let h := d.hp p
  let units := h.dropsPend / 2 ^ 20
  if h.i2c = .idle && h.authRef.isNone && !(h.st = .auth) && decide (0 < units) then
    (d.modHp p (fun h => { h with i2c := .increment, dropsPend := h.dropsPend % 2 ^ 20 })).send
      (.i2c p 0x38 (leBytes 4 units) 0)
  else d

/-- Port p's oldest armed FSYNC edge is emitted at its time: FSYNC_TIME and FSYNC_COUNT, the drops fired, and CTRL BLANK once
the last armed line has fired where it is due (R429, R442, R474, R499). -/
def Dev.emitFsync (p : Nat) (d : Dev) : Dev :=
  match (List.range 4).find? (fun s => (d.fst s).armed.any (fun a => a.times.any (fun t => t.1 = p))) with
  | none => d
  | some s =>
    match (d.fst s).armed.find? (fun a => a.times.any (fun t => t.1 = p)) with
    | none => d
    | some a =>
      let at_ := ((a.times.find? (fun t => t.1 = p)).map (·.2)).getD 0
      let lev := (((d.hp p).sentLines.find? (fun l => l.line = a.line)).map (·.levels)).getD []
      let drops := (lev.filter (fun x => decide (0 < x))).length
      let d := d.modFst s (fun f => { f with
        armed := (f.armed.map (fun b => if b.line = a.line then { b with times := b.times.filter (fun t => !(t.1 = p)) } else
          b)).filter (fun b => !b.times.isEmpty) })
      let d := (d.modFport p (fun f => { f with fsyncNs := at_ / 2 ^ 16, fsyncCount := (f.fsyncCount + 1) % 2 ^ 32 })).send
        (.fsync p at_ (twos 42 a.line))
      let d := d.modHp p (fun h => { h with
        sentLines := h.sentLines.map (fun l => if l.line = a.line then { l with fsync := true } else l),
        drops := h.drops + drops, dropsPend := h.dropsPend + drops })
      let d := d.when (decide (256 * 2 ^ 20 ≤ (d.hp p).dropsPend)) (Dev.increment p)
      d.when (d.hl.blankDue && !d.anyArmed) Dev.blankPorts

end Sys2Proof.Machine
end

