-- ==== Sys2Proof/Machine/Crc.lean ====
section
/-! DEFINITION. The checks and bit orders of the codec (spec chapter 5): CRC-32, CRC-32C, and reading bits. -/

namespace Sys2Proof.Machine

/-- One bit of a reflected CRC. -/
def crcBit (poly c : Nat) : Nat := if c % 2 = 1 then (c / 2) ^^^ poly else c / 2

/-- One byte of a reflected CRC. -/
def crcByte (poly c b : Nat) : Nat := (List.range 8).foldl (fun c _ => crcBit poly c) (c ^^^ (b % 256))

/-- A reflected CRC with initial value and final exclusive-or 0xFFFF_FFFF. -/
def crcRun (poly : Nat) (l : List Nat) : Nat := (l.foldl (crcByte poly) 0xFFFFFFFF) ^^^ 0xFFFFFFFF

/-- CRC-32C (R232): 0x1EDC_6F41 reflected. -/
def crc32c (l : List Nat) : Nat := crcRun 0x82F63B78 l

/-- CRC-32 of IEEE 802.3 (R260): 0x04C1_1DB7 reflected. -/
def crc32 (l : List Nat) : Nat := crcRun 0xEDB88320 l

/-- The bits of a byte string, each byte from its least significant bit (R224). -/
def bitsOfBytes (l : List Nat) : List Bool := l.flatMap (fun b => (List.range 8).map (fun i => b.testBit i))

/-- A fixed field of w bits, its least significant bit first (R225); none where the bits end. -/
def takeField : Nat → List Bool → Option (Nat × List Bool)
  | 0, bs => some (0, bs)
  | _ + 1, [] => none
  | w + 1, b :: bs =>
    match takeField w bs with
    | some (v, rest) => some (b2n b + 2 * v, rest)
    | none => none

/-- A count of R226: z zero bits, a 1 bit, then a field of z bits; none where more than 16 zero bits precede the 1 bit or
the bits end. -/
def takeCount : Nat → Nat → List Bool → Option (Nat × List Bool)
  | _, _, [] => none
  | 0, _, _ => none
  | fuel + 1, z, b :: bs =>
    if b then (takeField z bs).map (fun r => (2 ^ z + r.1, r.2))
    else if z = 16 then none else takeCount fuel (z + 1) bs

/-- A count from the front of the bits. -/
def count? (bs : List Bool) : Option (Nat × List Bool) := takeCount 18 0 bs

/-- Cause codes of the codec (R284). -/
inductive Cause where
  | checksum | badBitstream | expansion | geometry | ecc
  deriving DecidableEq, Repr

/-- CAUSE of CODEC_ERR_INFO (R284). -/
def Cause.code : Cause → Nat
  | .checksum => 1 | .badBitstream => 2 | .expansion => 3 | .geometry => 4 | .ecc => 5

/-- The status of a table load that ends in a codec error (R265, R109). -/
def Cause.status : Cause → Status
  | .checksum => .checksum | .badBitstream => .badBitstream | .expansion => .expansion | .geometry => .badBitstream
  | .ecc => .eccUncorrectable

/-- A value, or the codec error that stops the decode. -/
abbrev Dec (α : Type) := Except Cause α

/-- A missing value is a BAD_BITSTREAM. -/
def orBad {α : Type} : Option α → Dec α
  | some x => .ok x
  | none => .error .badBitstream

end Sys2Proof.Machine
end

