-- ==== Sys2Proof/Machine/Deflate.lean ====
section
/-! DEFINITION. DEFLATE payloads and the general container (R260 to R265, RFC 1951). The output is held newest byte first
while a stream is decoded. -/

namespace Sys2Proof.Machine

/-! ## Huffman codes -/

/-- Number of symbols whose code has a length. -/
def lenCount (lens : List Nat) (n : Nat) : Nat := (lens.filter (fun l => l = n)).length

/-- Symbols in the order of their canonical codes. -/
def symbolsByCode (lens : List Nat) : List Nat :=
  (List.range 15).flatMap (fun n => (lens.zipIdx.filter (fun e => e.1 = n + 1)).map (·.2))

/-- The codes a set of lengths leaves unused at length 15, times 2^-15; none where the lengths are over-subscribed. -/
def codeLeft (lens : List Nat) : Option Nat :=
  (List.range 15).foldl (fun left n =>
    left.bind (fun x => if 2 * x < lenCount lens (n + 1) then none else some (2 * x - lenCount lens (n + 1)))) (some 1)

/-- Is the set of lengths complete? -/
def codeComplete (lens : List Nat) : Bool := codeLeft lens = some 0

/-- Complete, or a single code of one bit (RFC 1951, 3.2.7). -/
def codeUsable (lens : List Nat) : Bool :=
  codeComplete lens ||
  ((codeLeft lens).isSome && lenCount lens 1 + lenCount lens 0 = lens.length && lenCount lens 1 ≤ 1)

/-- One symbol; n counts the lengths still to try, len the length tried, first and index those of its first code. -/
def decodeSym (lens : List Nat) (syms : List Nat) : Nat → Nat → Nat → Nat → Nat → List Bool → Dec (Nat × List Bool)
  | 0, _, _, _, _, _ => .error .badBitstream
  | _ + 1, _, _, _, _, [] => .error .badBitstream
  | n + 1, len, code, first, index, b :: bs =>
    let code := 2 * code + b2n b
    let c := lenCount lens len
    if code < first + c then
      match syms[index + (code - first)]? with
      | some s => .ok (s, bs)
      | none => .error .badBitstream
    else decodeSym lens syms n (len + 1) code (2 * (first + c)) (index + c) bs

/-- One symbol of a code given by its lengths. -/
def symbol (lens : List Nat) (bs : List Bool) : Dec (Nat × List Bool) :=
  decodeSym lens (symbolsByCode lens) 15 1 0 0 0 bs

/-! ## Blocks -/

/-- Base and extra bits of the length symbols 257 to 285. -/
def lengthTable : List (Nat × Nat) :=
  [(3, 0), (4, 0), (5, 0), (6, 0), (7, 0), (8, 0), (9, 0), (10, 0), (11, 1), (13, 1), (15, 1), (17, 1), (19, 2), (23, 2),
   (27, 2), (31, 2), (35, 3), (43, 3), (51, 3), (59, 3), (67, 4), (83, 4), (99, 4), (115, 4), (131, 5), (163, 5), (195, 5),
   (227, 5), (258, 0)]

/-- Base and extra bits of the distance symbols 0 to 29. -/
def distTable : List (Nat × Nat) :=
  [(1, 0), (2, 0), (3, 0), (4, 0), (5, 1), (7, 1), (9, 2), (13, 2), (17, 3), (25, 3), (33, 4), (49, 4), (65, 5), (97, 5),
   (129, 6), (193, 6), (257, 7), (385, 7), (513, 8), (769, 8), (1025, 9), (1537, 9), (2049, 10), (3073, 10), (4097, 11),
   (6145, 11), (8193, 12), (12289, 12), (16385, 13), (24577, 13)]

/-- n bytes copied from distance d, one at a time. -/
def copyBack (d : Nat) : Nat → List Nat → List Nat
  | 0, out => out
  | n + 1, out => copyBack d n (out.getD (d - 1) 0 :: out)

/-- A value of a length or distance symbol with its extra bits. -/
def extraValue (t : List (Nat × Nat)) (sym : Nat) (bs : List Bool) : Dec (Nat × List Bool) :=
  match t[sym]? with
  | none => .error .badBitstream
  | some (base, w) => (orBad (takeField w bs)).map (fun r => (base + r.1, r.2))

/-- The symbols of a compressed block up to its end symbol; fuel bounds their number. -/
def inflateSyms (lit dist : List Nat) (size : Nat) : Nat → List Nat → List Bool → Dec (List Nat × List Bool)
  | 0, _, _ => .error .badBitstream
  | fuel + 1, out, bs =>
    match symbol lit bs with
    | .error e => .error e
    | .ok (s, bs) =>
      if s < 256 then
        if size ≤ out.length then .error .expansion else inflateSyms lit dist size fuel (s :: out) bs
      else if s = 256 then .ok (out, bs)
      else
        match extraValue lengthTable (s - 257) bs with
        | .error e => .error e
        | .ok (n, bs) =>
          match symbol dist bs with
          | .error e => .error e
          | .ok (ds, bs) =>
            match extraValue distTable ds bs with
            | .error e => .error e
            | .ok (d, bs) =>
              if out.length < d then .error .badBitstream
              else if size < out.length + n then .error .expansion
              else inflateSyms lit dist size fuel (copyBack d n out) bs

/-- The fixed literal lengths. -/
def fixedLit : List Nat := List.replicate 144 8 ++ List.replicate 112 9 ++ List.replicate 24 7 ++ List.replicate 8 8

/-- Order in which the code-length lengths are sent. -/
def clOrder : List Nat := [16, 17, 18, 0, 8, 7, 9, 6, 10, 5, 11, 4, 12, 3, 13, 2, 14, 1, 15]

/-- n fields of 3 bits. -/
def takeThrees : Nat → List Bool → Option (List Nat × List Bool)
  | 0, bs => some ([], bs)
  | n + 1, bs =>
    match takeField 3 bs with
    | none => none
    | some (v, bs) => (takeThrees n bs).map (fun r => (v :: r.1, r.2))

/-- The code lengths of a dynamic block, total of them; got holds those read, newest first. -/
def takeLens (cl : List Nat) (total : Nat) : Nat → List Nat → List Bool → Dec (List Nat × List Bool)
  | 0, _, _ => .error .badBitstream
  | fuel + 1, got, bs =>
    if total ≤ got.length then (if got.length = total then .ok (got.reverse, bs) else .error .badBitstream)
    else
      match symbol cl bs with
      | .error e => .error e
      | .ok (s, bs) =>
        if s < 16 then takeLens cl total fuel (s :: got) bs
        else
          let w := if s = 16 then 2 else if s = 17 then 3 else 7
          let base := if s = 18 then 11 else 3
          match orBad (takeField w bs) with
          | .error e => .error e
          | .ok (v, bs) =>
            if s = 16 && got.isEmpty then .error .badBitstream
            else takeLens cl total fuel (List.replicate (base + v) (if s = 16 then got.headD 0 else 0) ++ got) bs

/-- The literal and distance lengths of a dynamic block. -/
def dynLens (bs : List Bool) : Dec ((List Nat × List Nat) × List Bool) :=
  match orBad (takeField 14 bs) with
  | .error e => .error e
  | .ok (h, bs) =>
    let nlit := h % 32 + 257
    let ndist := h / 32 % 32 + 1
    let ncl := h / 1024 + 4
    if 286 < nlit || 30 < ndist then .error .badBitstream
    else
      match orBad (takeThrees ncl bs) with
      | .error e => .error e
      | .ok (l, bs) =>
        let cl := (List.range 19).map (fun s => match clOrder.findIdx? (· = s) with
          | some i => l.getD i 0
          | none => 0)
        if !codeComplete cl then .error .badBitstream
        else
          match takeLens cl (nlit + ndist) (nlit + ndist + 1) [] bs with
          | .error e => .error e
          | .ok (all, bs) =>
            let lit := all.take nlit
            let dist := all.drop nlit
            if lit.getD 256 0 = 0 || !codeUsable lit || !codeUsable dist then .error .badBitstream
            else .ok ((lit, dist), bs)

/-- A stored block's n bytes. -/
def takeBytes : Nat → List Nat → List Bool → Option (List Nat × List Bool)
  | 0, out, bs => some (out, bs)
  | n + 1, out, bs =>
    match takeField 8 bs with
    | none => none
    | some (v, bs) => takeBytes n (v :: out) bs

/-- The blocks of a stream; fuel bounds their number. -/
def inflateBlocks (size : Nat) : Nat → List Nat → List Bool → Dec (List Nat × List Bool)
  | 0, _, _ => .error .badBitstream
  | fuel + 1, out, bs =>
    match orBad (takeField 3 bs) with
    | .error e => .error e
    | .ok (h, bs) =>
      let next (r : Dec (List Nat × List Bool)) : Dec (List Nat × List Bool) :=
        match r with
        | .error e => .error e
        | .ok (out, bs) => if h % 2 = 1 then .ok (out, bs) else inflateBlocks size fuel out bs
      match h / 2 with
      | 0 =>
        match orBad (takeField 32 (bs.drop (bs.length % 8))) with
        | .error e => .error e
        | .ok (v, bs) =>
          let n := v % 2 ^ 16
          if n + v / 2 ^ 16 ≠ 65535 then .error .badBitstream
          else if size < out.length + n then .error .expansion
          else next (orBad (takeBytes n out bs))
      | 1 => next (inflateSyms fixedLit (List.replicate 30 5) size (bs.length + 1) out bs)
      | 2 =>
        match dynLens bs with
        | .error e => .error e
        | .ok ((lit, dist), bs) => next (inflateSyms lit dist size (bs.length + 1) out bs)
      | _ => .error .badBitstream

/-! ## The general container -/

/-- OUT_SIZE of a general container whose header keeps its form (R260). -/
def generalSize (obj : List Nat) : Option Nat :=
  let f (o n : Nat) : Nat := leNat ((obj.drop o).take n)
  let size := f 8 4
  if obj.length < 16 || f 0 4 ≠ 0x44435248 || f 4 1 ≠ 1 || f 5 3 ≠ 0 || size = 0 || 2 ^ 24 < size then none else some size

/-- The content of a general object (R260 to R264). -/
def decodeGeneral (obj : List Nat) : Dec (List Nat) :=
  match generalSize obj with
  | none => .error .badBitstream
  | some size =>
    let bs := bitsOfBytes (obj.drop 16)
    match inflateBlocks size (bs.length + 1) [] bs with
    | .error e => .error e
    | .ok (out, rest) =>
      let tail := rest.drop (rest.length % 8)
      if out.length < size || 7 < tail.length / 8 || tail.any id then .error .badBitstream
      else if crc32 out.reverse = leNat ((obj.drop 12).take 4) then .ok out.reverse else .error .checksum

end Sys2Proof.Machine
end

