-- ==== Sys2Proof/Machine/Tables.lean ====
section
/-! DEFINITION. Object handles, and the prefix of k bytes of the table loads: data that follows the prefix or comes from a
general object (R174, R329, R333). -/

namespace Sys2Proof.Machine

/-- INDEX of the open object a handle names; none for an unknown handle (R174). -/
def Dev.objIndex (d : Dev) (h : Nat) : Option Nat :=
  let o := d.obj (h % 2 ^ 16)
  if h % 2 ^ 16 ≠ 0 && o.isOpen && o.gen = h / 2 ^ 16 % 2 ^ 16 then some (h % 2 ^ 16) else none

/-- FROM_OBJECT of a table load's prefix (R329). -/
def Packet.fromObject (p : Packet) : Bool := p.flag 0 0

/-- The object a table load names, with its INDEX. -/
def Dev.tableObj (d : Dev) (p : Packet) : Option Obj := (d.objIndex (p.fld 4 0 32)).map d.obj

/-- Length of a table load's data: the bytes after the prefix, or OUT_SIZE of the object; none where the object's header
breaks its form (R333). -/
def Dev.tableSize (d : Dev) (k : Nat) (p : Packet) : Option Nat :=
  if p.fromObject then (d.tableObj p).bind (fun o => generalSize o.data) else some (p.payload.length - k)

/-- The data of a table load, or the codec error that decoding its object ends in (R265). -/
def Dev.tableData (d : Dev) (k : Nat) (p : Packet) : Dec (List Nat) :=
  if p.fromObject then
    match d.tableObj p with
    | some o => decodeGeneral o.data
    | none => .error .badBitstream
  else .ok (p.payload.drop k)

/-- The bytes of a table load's data; none where the object does not decode. -/
def Dev.tableBytes (d : Dev) (k : Nat) (p : Packet) : List Nat := (d.tableData k p).toOption.getD []

/-- The checks of a prefix's form: its size with FROM_OBJECT 1, its reserved fields, and HANDLE 0 without an object (R333). -/
def Packet.prefixForm (p : Packet) (k : Nat) (resv : List (Nat × Nat × Nat)) : List (Bool × Status) :=
  [(p.fromObject && !(p.payload.length = k), .badLength), (!p.resvOk resv, .malformed),
   (!p.fromObject && !(p.fld 4 0 32 = 0), .badField)]

/-- The checks of the object a prefix names (R333). -/
def Dev.objectRows (d : Dev) (p : Packet) : List (Bool × Status) :=
  [(p.fromObject && (d.tableObj p).isNone, .unknownId),
   (p.fromObject && !((d.tableObj p).any (fun o => o.complete && o.kind = 1)), .badField)]

/-- Reserved fields of the prefix of R329. -/
def prefixResv : List (Nat × Nat × Nat) := [(0, 1, 7), (1, 0, 24)]

/-- The checks a prefix starts with: its form, with the reserved fields of ARGS, and its object (R333). -/
def Dev.prefixRows (d : Dev) (k : Nat) (p : Packet) (resv : List (Nat × Nat × Nat)) : List (Bool × Status) :=
  p.prefixForm k (prefixResv ++ resv) ++ d.objectRows p

/-- The check of the data's length (R333). -/
def Dev.sizeRows (d : Dev) (k : Nat) (p : Packet) (want : Nat) : List (Bool × Status) :=
  [((d.tableSize k p).isNone, .badBitstream), (!(d.tableSize k p = some want), .badLength)]

/-- The same checks where the object's own checks follow them (R354, R384). -/
def Dev.sizeThenObject (d : Dev) (k : Nat) (p : Packet) (want : Nat) (mid : List (Bool × Status)) : List (Bool × Status) :=
  [((d.tableSize k p).any (fun n => !(n = want)), .badLength)] ++ mid ++ d.objectRows p ++
  [((d.tableSize k p).isNone, .badBitstream)]

/-- The status of the codec error that decoding the object ends in (R265, R333). -/
def Dev.codecFail (d : Dev) (k : Nat) (p : Packet) : Option Status :=
  match d.tableData k p with
  | .ok _ => none
  | .error c => some c.status

/-- The checks of a table load in table order: rows before the object is decoded, then the decode, then rows on the data. -/
def Dev.loadChecks (d : Dev) (k : Nat) (p : Packet) (early : List (Bool × Status)) (late : List Nat → List (Bool × Status)) :
    Option Status :=
  match firstFail early with
  | some st => some st
  | none =>
    match d.codecFail k p with
    | some st => some st
    | none => firstFail (late (d.tableBytes k p))

/-- Little-endian 16-bit words of a byte string. -/
def words16 (l : List Nat) : List Nat := (List.range (l.length / 2)).map (fun i => leNat ((l.drop (2 * i)).take 2))

end Sys2Proof.Machine
end

