-- ==== Sys2Proof/Machine/Banks.lean ====
section
/-! DEFINITION. Ownership and power of the on-chip banks (spec chapter 14, R717 to R727): release by the home unit, refusal,
and the start of a handover. -/

namespace Sys2Proof.Machine

/-- Bytes of one on-chip bank (R716). -/
def bankBytes : Nat := 2 ^ 21

/-- Has every lane group of a SCR_LANE_MAP value no owner (R336)? -/
def laneMapFree (m : Nat) : Bool := (List.range 8).all (fun g => bits m (3 * g) 3 = 4)

/-- Does the home unit release bank n (R718)? -/
def Dev.released (d : Dev) (n : Nat) : Bool :=
  if n ≤ 1 then (List.range 4).all (fun s => !(d.nst s).configured)
  else if n = 2 then !d.noz.shortExtra
  else if n ≤ 6 then (List.range 4).all (fun k => (d.thresh (4 * (n - 3) + k)).width = 0)
  else if n = 7 then laneMapFree d.scr.laneMap
  else false

/-- Does a class-1 requester of R722 use bank n: a stream with imprints on the web reads its delay store or feed buffers, an
attempt being screened reads tables (log entry 25)? -/
def Dev.classOne (d : Dev) (n : Nat) : Bool :=
  (d.bank n).owner = 1 &&
  (if n ≤ 1 || n = 8 then d.anyOnWeb else if n = 2 then d.noz.shortExtra && d.anyOnWeb
   else if n ≤ 7 then (List.range 4).any (fun s => (d.sst s).cur.isSome) else false)

/-- Is a change of bank n to an owner and a power state refused (R720, R724, R725)? A change asked for while another runs is
refused too (log entry 25). -/
def Dev.handRefused (d : Dev) (n owner power : Nat) (byReg : Bool) : Bool :=
  let b := d.bank n
  (b.owner = 1 && !(owner = 1) && !d.released n) || (byReg && b.scree) || (!(owner = 0) && (b.power = 2 || power = 2)) ||
  (power = 1 && d.classOne n) || b.busy || 2 < owner || 2 < power

/-- Is the change without effect, OWNER and POWER as they are (R719, R734)? -/
def Dev.handSame (d : Dev) (n owner power : Nat) : Bool := (d.bank n).owner = owner && (d.bank n).power = power

/-- A change of bank n that is not refused begins. A change of owner, and a bank that leaves OFF, is cleared first and ends at
BANK_CLEAR_END; a change of power alone takes effect at once (R719, R724 to R726). -/
def Dev.handBegin (n owner power : Nat) (d : Dev) : Dev :=
  let b := d.bank n
  if b.owner = owner && !(b.power = 2) then d.modBank n (fun b => { b with power := power })
  else d.modBank n (fun b => { b with busy := true, newOwner := owner, newPower := power })

/-- Does a bank belong to its home unit and hold its contents (R721)? -/
def Dev.atHome (d : Dev) (n : Nat) : Bool := (d.bank n).owner = 1

end Sys2Proof.Machine
end

