-- ==== Sys2Proof/Machine/HeadSend.lean ====
section
/-! DEFINITION. Offset tables and waveforms on the head link (spec chapter 9): OFFS, WAVE and CTRL frames, and what a port
sends in LOADING. -/

namespace Sys2Proof.Machine

/-- Nozzles C of port p that lines and offsets carry: the smaller of NOZZLES and the declared count (R454); the declared count
on a port of no stream. -/
def Dev.headNozzles (d : Dev) (p : Nat) : Nat :=
  match d.streamOf p with
  | some s => d.carried s ((d.nst s).indexOf p)
  | none => (d.hp p).nozzles

/-- Cut a list into pieces of k with their first index; fuel bounds the number of pieces. -/
def pieces (k : Nat) : Nat → Nat → List Nat → List (Nat × List Nat)
  | 0, _, _ => []
  | _, _, [] => []
  | fuel + 1, at_, l => (at_, l.take k) :: pieces k fuel (at_ + k) (l.drop k)

/-- The entries Z of a whole offset table for c nozzles. -/
def offsetList (z : Tab Nat) (c : Nat) : List Nat := (List.range c).map (fun k => Tab.get 0 z k)

/-- A table of placements is written into an offset bank of port p, in OFFS frames of up to 512 entries (R455, R486, R487). -/
def Dev.sendOffsets (p bank : Nat) (z : Tab Nat) (d : Dev) : Dev :=
  let c := d.headNozzles p
  let d := forL (pieces 512 9 0 (offsetList z c)) (fun f d =>
    d.sendFrame p 2 0 bank ([bank, f.1, f.2.length] ++ f.2.map (fun x => x % 64 + 256 * (x / 64)))) d
  d.modHp p (fun h => { h with banks := Tab.set bank z h.banks })

/-- Samples of a waveform slot as bytes (R489). -/
def Wave.bytes (w : Wave) : List Nat := w.samples.flatMap (leBytes 2)

/-- A slot's waveform is sent in WAVE frames of up to 256 samples, then WAVE_COMMIT (R456, R457). -/
def Dev.sendSlot (p slot : Nat) (d : Dev) : Dev :=
  let w := Tab.get Wave.reset (d.hp p).slots slot
  let d := forL (pieces 256 5 0 w.samples) (fun f d => d.sendFrame p 3 0 slot ([slot, f.1, f.2.length] ++ f.2)) d
  d.sendCtrl p 2 [slot, w.count, crc32c w.bytes]

/-- Slots of port p that hold a waveform. -/
def HlPort.loaded (h : HlPort) : List Nat := (List.range 8).filter (fun k => (Tab.get Wave.reset h.slots k).loaded)

/-- LOADING: the offsets in force go into bank 0, those of a NOZ_LOAD_OFFSETS still to take effect into bank 1, then every
loaded slot with its commit, then CTRL TRAINED with W (R479, R486, R487). -/
def Dev.startLoading (p : Nat) (d : Dev) : Dev :=
  let z := (d.nport p).z
  let next := match d.streamOf p with
    | some s => ((d.nst s).changes.find? (fun (c : Change) => c.op = 0x0506 && c.target = p)).map (fun (c : Change) => placeEntries z (c.fld 8 0 16) c.table)
    | none => none
  let d := d.modHp p (fun h => { h with
    st := .loading, bank := 0, changeover := none, loadQ := h.loaded ++ [255], slot := h.slot })
  let d := ((d.sendOffsets p 0 z).sendOffsets p 1 (next.getD z))
  let d := forL (d.hp p).loaded (fun k d => d.sendSlot p k) d
  d.sendCtrl p 1 [(d.hp p).window]

end Sys2Proof.Machine
end

