-- ==== Sys2Proof/Machine/Arbiter.lean ====
section
/-! DEFINITION. The maintenance arbiter (spec chapter 10, R545 to R555): exclusion, queueing, what an activity does when it
runs, and its end. -/

namespace Sys2Proof.Machine

/-- Do two activities conflict (R547)? Kinds 1 to 5 use ports, 6 and 7 a bank, 8 a channel. -/
def conflicts (a b : Activity) : Bool :=
  (decide (a.kind ≤ 5) && decide (b.kind ≤ 5) && !((a.res &&& b.res) = 0)) ||
  ((a.kind = 6 || a.kind = 7) && (b.kind = 6 || b.kind = 7) && a.res = b.res) ||
  (a.kind = 8 && (b.kind = 8 || b.kind = 4)) || (a.kind = 4 && b.kind = 8)

/-- The first activity in the order of starts that blocks activity a (R548). -/
def blocker (acts : List Activity) (a : Activity) : Option Activity :=
  (acts.takeWhile (fun b => !(b.id = a.id))).find? (conflicts a)

/-- The open activity with an ID. -/
def Dev.act? (d : Dev) (id : Nat) : Option Activity := d.sched.acts.find? (fun a => a.id = id)

/-- MAINT_QUERY packets that wait for an activity complete with its STATE and OUTCOME (R554). -/
def Dev.answerQueries (id state outcome : Nat) (d : Dev) : Dev :=
  let l := d.rings.inflight.filter (fun p => p.op = 0x0F02 && p.phase = Phase.executing && p.activity = id)
  forL l (fun p d => d.complete p.ref .done 0 (state + 2 ^ 8 * outcome)) d

/-- An activity is no longer open; its outcome is kept among the last 64 (R554). -/
def Dev.closeAct (id : Nat) (outcome : Status) (d : Dev) : Dev :=
  let d := { d with sched := { d.sched with
      acts := d.sched.acts.filter (fun a => !(a.id = id)), ended := ((id, outcome) :: d.sched.ended).take 64 } }
  d.answerQueries id 2 outcome.code

/-- An activity ends at once with its command (R491, R735). -/
def Dev.finishAct (a : Activity) (st : Status) (d : Dev) : Dev := (d.closeAct a.id st).complete? a.ref st 0 0

/-- The head port of a one-port mask. -/
def portOf (mask : Nat) : Nat := ((List.range 16).find? (fun p => mask.testBit p)).getD 0

/-- An activity begins to run. Host activities are the host's own; WAVE_RELOAD sends the slot to an UP port (R491); SCREE
starts testing (R735); BANK_HANDOVER makes the change unless it is refused by now (R720); DDR_RETRAIN tracks at once, or
trains the channel with MODE FULL (R703, R704). -/
def Dev.beginAct (a : Activity) (d : Dev) : Dev :=
  let d := d.answerQueries a.id 1 0
  match a.kind with
  | 5 =>
    let p := portOf a.res
    if (d.hp p).st = .up then (d.modHp p (fun h => { h with waveRef := a.ref, waveSlot := a.arg })).sendSlot p a.arg
    else d.finishAct a .done
  | 6 =>
    (d.modBank a.res (fun b => { b with
      scree := true, screeAct := a.id, screeCont := a.arg % 2 = 1, screeUs := a.arg / 2, screePos := 0 })).complete?
      a.ref .done 0 0
  | 7 =>
    let owner := a.arg % 4
    let power := a.arg / 4
    if d.handSame a.res owner power then d.finishAct a .doneEmpty
    else if d.handRefused a.res owner power false then d.finishAct a .refused
    else
      let d := d.handBegin a.res owner power
      if (d.bank a.res).busy then d.modBank a.res (fun b => { b with handRef := a.ref, handAct := a.id })
      else d.finishAct a .done
  | 8 =>
    if a.arg = 2 then d.modDch a.res (fun c => { c with st := .training, fullRetrain := true, retrainRef := a.ref, trackAct := a.id })
    else (d.modDch a.res (fun c => { c with trackQueued := false })).finishAct a .done
  | _ => d

/-- Queued activities that nothing blocks any longer run, in the order of their starts (R548); fuel bounds their number. -/
def Dev.pumpActs : Nat → Dev → Dev
  | 0, d => d
  | fuel + 1, d =>
    match d.sched.acts.find? (fun a => !a.running && (blocker d.sched.acts a).isNone) with
    | none => d
    | some a =>
      let d := { d with sched := { d.sched with
          acts := d.sched.acts.map (fun (b : Activity) => if b.id = a.id then { b with running := true } else b) } }
      Dev.pumpActs fuel (d.beginAct a)

/-- An activity ends and the queued ones are examined again (R548). -/
def Dev.endAct (id : Nat) (outcome : Status) (d : Dev) : Dev :=
  let d := d.closeAct id outcome
  d.pumpActs (d.sched.acts.length + 1)

/-- The ID after an ID (R550). -/
def nextActId (id : Nat) : Nat := if 65535 ≤ id then 1 else id + 1

/-- An activity opens behind those already open: its ID, its first blocker if it must wait, and the device (R548, R550). -/
def Dev.openAct (kind res maxMs arg : Nat) (ref : Option PktRef) (d : Dev) : Nat × Option Nat × Dev :=
  let id := d.sched.nextId
  let a : Activity := { Activity.reset with id := id, kind := kind, res := res, maxMs := maxMs, ref := ref, arg := arg }
  let acts := d.sched.acts ++ [a]
  (id, (blocker acts a).map (·.id), { d with sched := { d.sched with acts := acts, nextId := nextActId id } })

/-- A command starts a device activity: it runs at once, or the command completes with QUEUED, the blocker in RESULT and the
activity's ID in AUX (R548; the ID in AUX is DEDUCED, log entry 26). -/
def Dev.startDeviceAct (p : Packet) (kind res arg : Nat) (d : Dev) : Dev :=
  match d.openAct kind res 0 arg (some p.ref) with
  | (_, none, d) =>
    let d := d.executing p
    d.pumpActs (d.sched.acts.length + 1)
  | (id, some b, d) =>
    let d := { d with sched := { d.sched with
        acts := d.sched.acts.map (fun (a : Activity) => if a.id = id then { a with ref := none } else a) } }
    d.complete p.ref .queued b id

/-- The running WAVE_RELOAD of port p ends, with its command (R491). -/
def Dev.endReload (p : Nat) (d : Dev) : Dev :=
  let ref := (d.hp p).waveRef
  let d := (d.modHp p (fun h => { h with waveRef := none })).complete? ref .done 0 0
  match d.sched.acts.find? (fun a => a.kind = 5 && a.running && a.res = 2 ^ p) with
  | some a => d.endAct a.id .done
  | none => d

/-- The outcome of an ended activity still known. -/
def Dev.endedAct (d : Dev) (id : Nat) : Option Status := (d.sched.ended.find? (fun e => e.1 = id)).map (·.2)

end Sys2Proof.Machine
end

