-- ==== Sys2Proof/Machine/HeadLink.lean ====
section
/-! DEFINITION. The Llyn head link (spec chapter 9): training, authentication, acknowledgements, fire reports, and the end of
an imprint's printing. -/

namespace Sys2Proof.Machine

/-! ## Training -/

/-- What a port drops when it is trained afresh or goes down: frames kept for sending again, lines not armed, a running
changeover, its authentication (R475, R477, R505). -/
def HlPort.cut (h : HlPort) : HlPort :=
  { h with unacked := [], sentLines := h.sentLines.filter (fun l => l.armed && !l.fsync), changeover := none, authed := false }

/-- HP_p_HRST_n. -/
def Dev.setHrst (p : Nat) (on : Bool) (d : Dev) : Dev :=
  if (d.hp p).hrst = on then d else (d.modHp p (fun h => { h with hrst := on })).pin .hrst p (!on)

/-- Training of port p begins, with or without a reset; TS1 is sent from here on (R479). -/
def Dev.startTraining (p : Nat) (reset : Bool) (d : Dev) : Dev :=
  ((d.modHp p (fun h => { h.cut with
    st := if reset then .reset else .training, trainReset := reset, ts1 := 0, ts2 := 0, phase := 0, failCause := 0,
    loadQ := [] })).setHrst p reset).send (.train p 1)

/-- An attempt of a retraining begins; each adds 1 to HL_RETRAINS (R483). -/
def Dev.retrain (p attempt : Nat) (d : Dev) : Dev :=
  (d.modHp p (fun h => { h with retry := attempt, retrains := satInc 32 h.retrains })).startTraining p (attempt = 2)

/-- Port p retrains, or waits while the safe state is held (R483, R485). -/
def Dev.retrainOrWait (p attempt : Nat) (d : Dev) : Dev :=
  if d.flt.held then d.modHp p (fun h => { h with retry := attempt + 2 }) else d.retrain p attempt

/-- The retrainings that waited for the exit of the safe state begin (R483). -/
def Dev.resumeRetrains (d : Dev) : Dev :=
  forN 16 (fun p d => if 3 ≤ (d.hp p).retry then d.retrain p ((d.hp p).retry - 2) else d) d

/-- Training of port p ends with a cause and status; a retraining without reset tries once more with one (R480, R483, R504). -/
def Dev.trainFail (p cause : Nat) (st : Status) (d : Dev) : Dev :=
  let h := d.hp p
  let d := d.modHp p (fun h => { h.cut with st := .failed, failCause := cause, trainRef := none, loadQ := [], retry := 0 })
  let d := d.when (cause = 4) (fun d => d.raise 80 p)
  let d := d.complete? h.trainRef st 0 0
  if h.retry = 1 then d.retrainOrWait p 2 else d

/-- The device declares the link of an UP port down (R482, R483); a waveform being sent counts as sent (R491). -/
def Dev.linkDown (p : Nat) (d : Dev) : Dev :=
  let d := ((d.modHp p (fun h => { h.cut with st := .down, downSeen := true })).raise (16 + p) 0).endReload p
  if (d.hp p).autoRetrain then d.retrainOrWait p 1 else d

/-- The drop-level maps of port p, active and pending, hold no level the trained head lacks (R318). -/
def Dev.clampMaps (p : Nat) (d : Dev) : Dev :=
  let top := d.levelsOf p - 1
  let cut (l : List Nat) : List Nat := l.map (fun x => min x top)
  let m := d.dropMap p
  let past (l : List Nat) : Bool := l.any (fun x => decide (top < x))
  let pend := match m.pend with | some (a, b) => past a || past b | none => false
  d.when (past m.normal || past m.reduced || pend) (Dev.modDropMap p (fun m => { m with
    normal := cut m.normal, reduced := cut m.reduced, pend := m.pend.map (fun x => (cut x.1, cut x.2)), clamped := true }))

/-- RESP OK to TRAINED: the port is UP and its training has succeeded (R479, R481); its lines go on from the next one to be
armed. A head with another UID restarts the port's HEAD_USE history (R834). -/
def Dev.portUp (p : Nat) (d : Dev) : Dev :=
  let next := match d.streamOf p with | some s => (d.fst s).nextArm | none => 0
  let h := d.hp p
  let d := d.modHp p (fun h => { h with
    st := .up, retry := 0, wasUp := false, loadQ := [], confirm := [], voidSent := h.voidSeen, sentLines := [], nextSend := next,
    trainRef := none, hvRange := false })
  let d := d.clampMaps p
  let d := if (d.wearInd p).uid = h.uid then d else d.modWearInd p (fun w => { w with
    uid := h.uid, samples := [], latest := 0, first := none, alert := false })
  d.complete? h.trainRef .done h.uid (h.nozzles % 2 ^ 13)

/-! ## Authentication -/

/-- The command of port p that waits for an authentication of its own (R498, R500). -/
def Dev.authWaiting (d : Dev) (p : Nat) : Option PktRef :=
  (d.rings.inflight.find? (fun q => (q.op = 0x0701 || q.op = 0x0705) && q.target = p && q.phase = Phase.executing)).map Packet.ref

/-- The next I2C transaction of port p once its pair is idle: the authentication that training or a command waits for, else
an INCREMENT that has reached 256 units (R497, R499). -/
def Dev.nextI2c (p : Nat) (d : Dev) : Dev :=
  let h := d.hp p
  if !(h.i2c = .idle) then d
  else if h.st = .auth then (d.modHp p (fun h => { h with i2c := .readInfo })).send (.i2c p 0x00 [] 16)
  else match d.authWaiting p with
    | some q => (d.modHp p (fun h => { h with i2c := .readInfo, authRef := some q })).send (.i2c p 0x00 [] 16)
    | none => d.when (decide (256 * 2 ^ 20 ≤ h.dropsPend)) (Dev.increment p)

/-- The per-head key (R496): the root key of KEY_VER, and 0x01, UID, MODEL and three zero bytes. -/
def headKey (root uid model : Nat) : Nat := Config.cmac root (leNat ([1] ++ leBytes 8 uid ++ leBytes 4 model ++ [0, 0, 0])) 16

/-- The response expected to a challenge at a value of COUNTER (R496). -/
def headResponse (key challenge counter : Nat) : Nat :=
  Config.cmac key (leNat ([2] ++ leBytes 16 challenge ++ leBytes 8 counter ++ [0, 0, 0, 0, 0, 0, 0])) 32

/-- Does the response that was read match, under a programmed root key (R496, R497)? -/
def Dev.responseOk (d : Dev) (p counter : Nat) : Bool :=
  let h := d.hp p
  d.hl.fuseDone.testBit h.keyVer &&
  h.resp = headResponse (headKey (Tab.get 0 d.hl.fuses h.keyVer) h.infoUid h.infoModel) h.challenge counter

/-- An authentication of port p ends: it answers its command, or lets training go on or fail (R480, R498, R500). -/
def Dev.authEnd (p : Nat) (good : Bool) (counter : Nat) (d : Dev) : Dev :=
  let h := d.hp p
  let d := d.modHp p (fun h => { h with
    i2c := .idle, authRef := none, counter := if good then counter else h.counter,
    authed := h.authed || (good && decide (h.st = HlSt.up)) })
  let d := match h.authRef with
    | some q =>
      if !good then (d.raise 80 p).complete q .authFailed 0 0
      else if (d.packet? q).any (fun (x : Packet) => x.op = 0x0705) then d.complete q .done counter 0
      else d.complete q .done h.infoUid 1
    | none =>
      if !(h.st = HlSt.auth) then d
      else if good && h.infoUid = h.uid then (d.modHp p (fun h => { h with authed := true })).startLoading p
      else d.trainFail p 4 .authFailed
  d.nextI2c p

/-- The I2C transaction of port p ends (R495, R497): the next step of an authentication follows. An INCREMENT is not repeated
(log entry 27). -/
def Dev.i2cEnd (p : Nat) (ok : Bool) (data : List Nat) (d : Dev) : Dev :=
  let h := d.hp p
  if h.i2c = .idle then d
  else if h.i2c = .increment then (d.modHp p (fun h => { h with i2c := .idle })).nextI2c p
  else if !ok then d.authEnd p false 0
  else match h.i2c with
  | .readInfo =>
    let c := Config.challenge d.free % 2 ^ 128
    ({ d with free := d.free + 1 }.modHp p (fun h => { h with
      infoUid := leNat (data.take 8), infoModel := leNat ((data.drop 8).take 4), keyVer := bits (leNat data) 96 2,
      i2c := .writeChallenge, challenge := c })).send (.i2c p 0x10 (leBytes 16 c) 0)
  | .writeChallenge => (d.modHp p (fun h => { h with i2c := .readResponse })).send (.i2c p 0x20 [] 16)
  | .readResponse => (d.modHp p (fun h => { h with i2c := .readCounter, resp := leNat (data.take 16) })).send (.i2c p 0x30 [] 8)
  | _ => let c := leNat (data.take 8); d.authEnd p (d.responseOk p c) c

/-! ## Printing -/

/-- Has every port of its stream confirmed the last line that carries data of the FIRING imprint i (R49, R470)? -/
def Dev.donePrinting (d : Dev) (s i : Nat) : Bool :=
  let e := d.entry i
  e.st = .firing && (d.nst s).ports.all (fun q =>
    decide (d.lastLineOn q.port e < (d.fst s).nextArm) &&
    !(d.hp q.port).confirm.any (fun n => decide (n ≤ d.lastLineOn q.port e)))

/-- A FIRING imprint is PRINTED: it is final, and its PRINTED report waits for its checkpoint record (R45, R49, R62, R67). -/
def Dev.printEntry (i : Nat) (d : Dev) : Dev :=
  let e := d.entry i
  let f := e.firstLine.getD 0
  let r := { d.mkReport i 1 0 with wpFirst := wpOf f, wpLast := wpOf (f + e.desc.length - 1) }
  let d := (d.checkpoint i 1 e.attempt [r]).modEntry i (fun e => { e with st := .printed, lines := [], carry := [], held := false })
  (d.unqueue e.stream i).modIst e.stream (fun x => { x with tail := some (f + e.desc.length - 1) })

/-- The FIRING imprints of stream s that are done are PRINTED; waiting NEXT_GAP changes look for a gap again (R49, R382). -/
def Dev.checkPrinted (s : Nat) (d : Dev) : Dev :=
  let l := (d.firing s).filter (d.donePrinting s)
  if l.isEmpty then d else (forL l Dev.printEntry d).fixGaps s

/-! ## Line frames -/

/-- Is every screened line that port q needs for stream line n in staging (R461, R462)? -/
def Dev.lineReady (d : Dev) (s q : Nat) (n : Int) : Bool :=
  let d := d.applyDue s n
  (List.range (d.carried s q)).all (fun k =>
    match d.attemptOn s q k n, d.image ((d.nst s).port q).port k n with
    | some i, some u => decide ((u - (d.entry i).firstLine.getD 0).toNat < (d.entry i).lines.length)
    | _, _ => true)

/-- The next line port p has still to send. -/
def Dev.nextLineOf (d : Dev) (s p : Nat) : Int := max (d.hp p).nextSend (d.fst s).nextArm

/-- May line n be sent to port p: the port is UP, line n − W has fired or passed, and fewer than 256 frames wait (R461,
R463)? -/
def Dev.maySend (d : Dev) (s p : Nat) (n : Int) : Bool :=
  let h := d.hp p
  h.st = .up && decide (n < (d.fst s).nextArm + h.window) &&
  h.sentLines.all (fun l => l.fsync || decide (n - h.window < l.line)) && decide (h.unacked.length < 256)

/-- A frame not acknowledged is sent again with its TSEQ (R464). -/
def Dev.resend (p : Nat) (f : TxFrame) (d : Dev) : Dev :=
  (d.modHp p (fun h => { h with
    replays := satInc 32 h.replays,
    unacked := h.unacked.map (fun g => if g.tseq = f.tseq then { g with sent := g.sent + 1 } else g) })).send
    (.frame p f.type f.tseq f.fields)

/-- Is a TSEQ acknowledged by an LSTAT (R458)? -/
def acksSeq (l : Lstat) (t : Nat) : Bool :=
  let i := (t + 2 ^ 16 - (l.ackSeq + 1) % 2 ^ 16) % 2 ^ 16
  !later 16 t l.ackSeq || (decide (i < 32) && l.sack.testBit i)

/-- Acknowledgements of an LSTAT: acknowledged frames are dropped, LINE frames among them count for arming, and frames the
head has passed over are sent again in TSEQ order (R463, R464). -/
def Dev.lstatAcks (p : Nat) (l : Lstat) (d : Dev) : Dev :=
  let got := (d.hp p).unacked.filter (fun f => acksSeq l f.tseq)
  let d := d.modHp p (fun h => { h with
    unacked := h.unacked.filter (fun f => !acksSeq l f.tseq),
    sentLines := h.sentLines.map (fun x => if got.any (fun f => f.type = 1 && f.tseq = x.tseq) then { x with acked := true } else x) })
  forL ((d.hp p).unacked.filter (fun f => !later 16 f.tseq l.lastSeen)) (fun f d => d.resend p f) d

/-- An armed line was not confirmed, or ORPHAN was set: FLT_HL_FIRE, and every attempt with data on that line is spoiled from
it with LINK_LOST (R470). -/
def Dev.fireFail (p : Nat) (d : Dev) : Dev :=
  let d := d.raise (48 + p) 0
  match d.streamOf p, (d.hp p).confirm with
  | some s, n :: rest =>
    let idx := d.attemptsOn s n
    let d := d.modHp p (fun h => { h with confirm := rest })
    let d := forL idx (fun i d => d.modEntry i (fun e => { e with
      lastFired := if e.firstLine = some n then none else some (min (n - 1) (e.firstLine.getD 0 + e.desc.length - 1)) })) d
    d.spoilMany s idx 0x0A
  | _, _ => d

/-- The fire report of an LSTAT: an armed line is confirmed when FIRED_LINE names it with FIRED_COUNT advanced, by one, or by
one for each line armed before it and not yet reported (R470; DEDUCED, log entry 28). -/
def Dev.lstatFired (p : Nat) (l : Lstat) (d : Dev) : Dev :=
  let h := d.hp p
  let adv := (l.firedCount + 2 ^ 16 - h.firedCount % 2 ^ 16) % 2 ^ 16
  let hit := h.confirm.zipIdx.find? (fun e => twos 16 e.1 = l.firedLine && decide (1 ≤ adv) && decide (adv ≤ e.2 + 1))
  let d := d.modHp p (fun h => { h with
    firedCount := l.firedCount,
    confirm := match hit with | some e => h.confirm.filter (fun n => !(n = e.1)) | none => h.confirm,
    sentLines := match hit with
      | some e => h.sentLines.filter (fun x => !(x.fsync && decide (x.line ≤ e.1)))
      | none => h.sentLines })
  match hit, d.streamOf p with
  | some _, some s => d.checkPrinted s
  | _, _ => d

/-- The measurements of an LSTAT: TEMP, HV, VOID_COUNT and ALERT; a new ALERT bit sets ALERT_SEEN and raises FLT_HL_ALERT
(R458, R493, R503), and a new ORPHAN acts as R470 says. -/
def Dev.lstatMeasures (p : Nat) (l : Lstat) (d : Dev) : Dev :=
  let old := (d.hp p).alert
  let fresh (b : Nat) : Bool := l.alert.testBit b && !old.testBit b
  let any := (List.range 6).any fresh
  let d := d.modHp p (fun h => { h with
    temp := l.temp, hv := l.hv, voidSeen := l.voidCount % 256, alert := l.alert % 2 ^ 8, alertSeen := h.alertSeen || any,
    hvWin := (d.ns, l.hv) :: h.hvWin.filter (fun w => decide (d.ns ≤ w.1 + 64000)) })
  let d := d.when any (fun d => d.raise (64 + p) 0)
  d.when (fresh 2) (Dev.fireFail p)

/-- The head temperature of an LSTAT against WARN, CRIT and RESUME (R530). -/
def Dev.headHeat (p : Nat) (t : Int) (d : Dev) : Dev :=
  let m := d.pmodel p
  let d := if m.warnT ≤ t then
      ((d.modPmodel p (fun m => { m with warn := true, backoff := true })).forceHeat m.heaterLoop true).raise (96 + p) 0
    else if t < m.warnT - 16 then
      let d := if m.warn then ((d.modPmodel p (fun m => { m with warn := false })).forceHeat m.heaterLoop false).lower (96 + p) else d
      if t < m.warnT - 64 then d.modPmodel p (fun m => { m with backoff := false }) else d
    else d
  if m.critT ≤ t then
    let d := (d.modPmodel p (fun m => { m with crit := true })).raise (112 + p) 0
    match d.streamOf p with
    | some s => d.spoilMany s (d.onWeb s) 0x03
    | none => d
  else if t < m.resumeT && m.crit then (d.modPmodel p (fun m => { m with crit := false })).lower (112 + p)
  else d

/-- May the receive lane of a port bring frames: it is trained so far that the head sends them (R476, R479)? -/
def HlPort.receives (h : HlPort) : Bool :=
  h.st = .up || h.st = .loading || h.st = .auth || (h.st = .training && h.phase = 2)

/-! ## Commands of the link -/

/-- The effect of HL_LINE_SEND (R461). -/
def Dev.onHlLineSend (port : Nat) (d : Dev) : Dev :=
  match d.streamOf port with
  | none => d
  | some s =>
    let q := (d.nst s).indexOf port
    let n := d.nextLineOf s port
    if d.maySend s port n && d.lineReady s q n then
      (d.sendLine s q n).modHp port (fun h => { h with nextSend := n + 1 })
    else d

/-- HL_LINE_SEND (R461). -/
def execHlLineSend (port : Nat) : State → Host.Outcome State Fault Refusal := inDomain 10 (Dev.onHlLineSend port)

/-- The effect of HL_FEEDER_DEADLINE (R462): the next line is not sent, and is missed when it comes to be armed (R468). -/
def Dev.onHlFeederDeadline (port : Nat) (d : Dev) : Dev :=
  match d.streamOf port with
  | none => d
  | some s =>
    let n := d.nextLineOf s port
    if (d.hp port).st = .up && !d.lineReady s ((d.nst s).indexOf port) n then
      d.modHp port (fun h => { h with nextSend := n + 1 })
    else d

/-- HL_FEEDER_DEADLINE (R462). -/
def execHlFeederDeadline (port : Nat) : State → Host.Outcome State Fault Refusal :=
  inDomain 10 (Dev.onHlFeederDeadline port)

/-- The effect of HL_LSTAT_RECEIVE (R464, R470, R493, R503, R530). -/
def Dev.onHlLstatReceive (port : Nat) (l : Lstat) (d : Dev) : Dev :=
  if !(d.hp port).receives then d
  else ((((d.lstatAcks port l).lstatFired port l).lstatMeasures port l).headHeat port l.temp)

/-- HL_LSTAT_RECEIVE (R464, R470, R493, R503, R530). -/
def execHlLstatReceive (port : Nat) (l : Lstat) : State → Host.Outcome State Fault Refusal :=
  inDomain 10 (Dev.onHlLstatReceive port l)

/-- HL_LSTAT_TIMEOUT (R482). -/
def execHlLstatTimeout (port : Nat) : State → Host.Outcome State Fault Refusal :=
  inDomain 10 fun d => d.when ((d.hp port).st = .up) (Dev.linkDown port)

/-- HL_RX_LOCK_LOSS (R482). -/
def execHlRxLockLoss (port : Nat) : State → Host.Outcome State Fault Refusal :=
  inDomain 10 fun d => d.when ((d.hp port).st = .up) (Dev.linkDown port)

/-- The effect of HL_REPLAY_TIMEOUT (R464). -/
def Dev.onHlReplayTimeout (port tseq : Nat) (d : Dev) : Dev :=
  match (d.hp port).unacked.find? (fun f => f.tseq = tseq) with
  | some f => d.resend port f
  | none => d

/-- HL_REPLAY_TIMEOUT (R464). -/
def execHlReplayTimeout (port tseq : Nat) : State → Host.Outcome State Fault Refusal :=
  inDomain 10 (Dev.onHlReplayTimeout port tseq)

/-- HL_FIRE_CONFIRM_TIMEOUT (R470): the oldest armed line still to be reported is not. -/
def execHlFireConfirmTimeout (port : Nat) : State → Host.Outcome State Fault Refusal :=
  inDomain 10 fun d => d.when (!(d.hp port).confirm.isEmpty) (Dev.fireFail port)

/-- The effect of HL_VOID_CHECK_TIMEOUT (R472). -/
def Dev.onHlVoidCheckTimeout (port : Nat) (d : Dev) : Dev :=
  d.when ((d.hp port).st = .up && !((d.hp port).voidSent = (d.hp port).voidSeen)) (fun d => d.raise (48 + port) 0)

/-- HL_VOID_CHECK_TIMEOUT (R472). -/
def execHlVoidCheckTimeout (port : Nat) : State → Host.Outcome State Fault Refusal :=
  inDomain 10 (Dev.onHlVoidCheckTimeout port)

/-- The effect of HL_HRST_RELEASE (R479, R501): a HEAD_RESET ends with the port DOWN; a training goes on. -/
def Dev.onHlHrstRelease (port : Nat) (d : Dev) : Dev :=
  let h := d.hp port
  if !h.hrst then d
  else
    let d := d.setHrst port false
    match h.resetRef with
    | some q => (d.modHp port (fun h => { h with st := .down, resetRef := none })).complete q .done 0 0
    | none => d.modHp port (fun h => { h with st := if h.st = .reset then .training else h.st })

/-- HL_HRST_RELEASE (R479, R501). -/
def execHlHrstRelease (port : Nat) : State → Host.Outcome State Fault Refusal :=
  inDomain 10 (Dev.onHlHrstRelease port)

/-- The effect of HL_TRAINING_SET_RECEIVE (R479): after 16 intact TS1 the device sends TS2, after 16 TS2 IDLE. -/
def Dev.onHlTrainingSetReceive (port : Nat) (second : Bool) (count : Nat) (d : Dev) : Dev :=
  if !((d.hp port).st = .training) then d
  else
    let d := d.modHp port (fun h => if second then { h with ts2 := h.ts2 + count } else { h with ts1 := h.ts1 + count })
    let h := d.hp port
    let d := if h.phase = 0 && decide (16 ≤ h.ts1) then (d.modHp port (fun h => { h with phase := 1 })).send (.train port 2) else d
    let h := d.hp port
    if h.phase = 1 && decide (16 ≤ h.ts2) then (d.modHp port (fun h => { h with phase := 2 })).send (.train port 0) else d

/-- HL_TRAINING_SET_RECEIVE (R479). -/
def execHlTrainingSetReceive (port : Nat) (second : Bool) (count : Nat) : State → Host.Outcome State Fault Refusal :=
  inDomain 10 (Dev.onHlTrainingSetReceive port second count)

/-- Does a DECLARE break the first row of R480? -/
def Dev.declareBad (d : Dev) (p : Nat) (x : Declare) : Bool :=
  !(x.proto = 1) || x.levels < 2 || 8 < x.levels || x.nozzles < 1 || 4096 < x.nozzles || x.bufLines < 6 || 255 < x.bufLines ||
  x.waves < 1 || 8 < x.waves || x.waveSamples < 1 || 1024 < x.waveSamples ||
  (d.hp p).loaded.any (fun k => decide (x.waves ≤ k) || decide (x.waveSamples < (Tab.get Wave.reset (d.hp p).slots k).count))

/-- The effect of HL_DECLARE_RECEIVE (R479, R480): the checks in table order, then authentication or LOADING. -/
def Dev.onHlDeclareReceive (port : Nat) (x : Declare) (d : Dev) : Dev :=
  let h := d.hp port
  if !(h.st = .training && h.phase = 2) then d
  else if d.declareBad port x then d.trainFail port 2 .badField
  else if (d.streamOf port).any (fun s => decide (x.maxRate < (d.nst s).maxRate)) then d.trainFail port 3 .refused
  else
    let d := (d.modHp port (fun h => { h with
      levels := x.levels, nozzles := x.nozzles, hblat := x.hblat, bufLines := x.bufLines, waves := x.waves,
      waveSamples := x.waveSamples, hvRef := x.hvRef, maxRate := x.maxRate, uid := x.uid, model := x.model })).modFport port
      (fun f => { f with hblat := x.hblat })
    if h.authReq then (d.modHp port (fun h => { h with st := .auth })).nextI2c port else d.startLoading port

/-- HL_DECLARE_RECEIVE (R479, R480). -/
def execHlDeclareReceive (port : Nat) (x : Declare) : State → Host.Outcome State Fault Refusal :=
  inDomain 10 (Dev.onHlDeclareReceive port x)

/-- The effect of HL_RESP_RECEIVE (R457, R479, R480, R491). A WAVE_COMMIT of an UP port that is not answered OK has its slot sent again
(log entry 27). -/
def Dev.onHlRespReceive (port op result : Nat) (d : Dev) : Dev :=
  let h := d.hp port
  if h.st = .loading then
    if !(result = 0) then d.trainFail port 2 .badField
    else if op = 1 then d.portUp port
    else if op = 2 then d.modHp port (fun h => { h with loadQ := h.loadQ.drop 1 }) else d
  else if h.st = .up && op = 2 && d.sched.acts.any (fun a => a.kind = 5 && a.running && a.res = 2 ^ port) then
    if result = 0 then d.endReload port else d.sendSlot port h.waveSlot
  else d

/-- HL_RESP_RECEIVE (R457, R479, R480, R491). -/
def execHlRespReceive (port op result : Nat) : State → Host.Outcome State Fault Refusal :=
  inDomain 10 (Dev.onHlRespReceive port op result)

/-- The effect of HL_TRAINING_TIMEOUT (R479, R480). -/
def Dev.onHlTrainingTimeout (port : Nat) (d : Dev) : Dev :=
  let h := d.hp port
  d.when (h.st = .training || h.st = .auth || h.st = .loading) (fun d => d.trainFail port 1 .timeout)

/-- HL_TRAINING_TIMEOUT (R479, R480). -/
def execHlTrainingTimeout (port : Nat) : State → Host.Outcome State Fault Refusal :=
  inDomain 10 (Dev.onHlTrainingTimeout port)

/-- HL_I2C_TRANSACTION_END (R497). -/
def execHlI2cTransactionEnd (port : Nat) (ok : Bool) (data : List Nat) : State → Host.Outcome State Fault Refusal :=
  inDomain 10 (Dev.i2cEnd port ok data)

/-- HL_HALERT_LOW (R503). -/
def execHlHalertLow (port : Nat) : State → Host.Outcome State Fault Refusal :=
  inDomain 10 fun d => (d.modHp port (fun h => { h with halert := true, alertSeen := true })).raise (64 + port) 0

/-- HL_HALERT_RELEASE (R507). -/
def execHlHalertRelease (port : Nat) : State → Host.Outcome State Fault Refusal :=
  inDomain 10 fun d => d.modHp port (fun h => { h with halert := false })

/-- HL_RX_FRAME_DISCARD (R452, R505). -/
def execHlRxFrameDiscard (port : Nat) : State → Host.Outcome State Fault Refusal :=
  inDomain 10 fun d => d.modHp port (fun h => { h with crcErrs := satInc 32 h.crcErrs })

/-- HL_USAGE_INCREMENT_TIMER (R499): 60 s have passed with at least one unit pending. -/
def execHlUsageIncrementTimer (port : Nat) : State → Host.Outcome State Fault Refusal :=
  inDomain 10 (Dev.increment port)

end Sys2Proof.Machine
end

