-- ==== Sys2Proof/Machine/Admission.lean ====
section
/-! DEFINITION. Admission (spec chapter 10, R508 to R523): the loads an attempt places, the limits, the position at which it
fits, and the causes that hold it. Loads are exact rational numbers (log entry 29). -/

namespace Sys2Proof.Machine

/-! ## Coverage -/

/-- Entry of a stream's active tone curve; T[s] = 16 s + (s >> 4) by default (R290, R291). -/
def ScrStream.toneAt (x : ScrStream) (m : Nat) : Nat :=
  match x.tone with | some l => l.getD m 0 | none => 16 * m + m / 16

/-- Segments of an imprint: 4,096 lines each (R230). -/
def Desc.segments (e : Desc) : Nat := (e.length + 4095) / 4096

/-- Lines of segment g. -/
def Desc.segLines (e : Desc) (g : Nat) : Nat := min 4096 (e.length - 4096 * g)

/-- The device's choices for an attempt: threshold fallback and REDUCED maps (R298). -/
structure Degrade where
  /-- threshold fallback -/
  thresh : Bool
  /-- REDUCED drop-level maps -/
  reduce : Bool
  deriving DecidableEq, Repr

/-- The degradations an attempt is screened with; shedding stage 4 forces the fallback (R298, R299). -/
def Entry.degrade (e : Entry) : Degrade := { thresh := e.degThresh || e.shedFallback, reduce := e.degReduce }

/-- Does an attempt of a mode screen with thresholds? -/
def Desc.threshWork (e : Desc) (g : Degrade) : Bool := e.mode = 1 || (e.mode = 2 && g.thresh)

/-- Dots of segment g of source j at screened values 1 to 7 (R514, R515). -/
def Dev.valueCounts (d : Dev) (e : Entry) (dg : Degrade) (j g : Nat) : List Rat :=
  let x := e.desc
  let src := x.sources.getD j Source.reset
  let info := (e.segs.getD j []).getD g SegInfo.reset
  if src.format = 0 then (List.range 7).map (fun k => ((info.counts.getD k 0 : Nat) : Rat))
  else
    let m := if info.samples = 0 then 0 else (roundHalfAway info.sum info.samples).toNat
    let t := (d.sst x.stream).toneAt m
    let dots := (d.nst x.stream).sourceWidth src.portMask * x.segLines g
    let top := if x.threshWork dg then 7 else (d.diffSet x.set).maxLevel
    (List.range 7).map (fun k => if k + 1 = top then ((t * dots : Nat) : Rat) / 4095 else 0)

/-- The drop-level map an attempt uses on a port (R316). -/
def DropMap.of (m : DropMap) (reduce : Bool) : List Nat := if reduce then m.reduced else m.normal

/-- Drops of port q of the stream at levels 1 to 7 in segment g (R514). -/
def Dev.portDrops (d : Dev) (e : Entry) (dg : Degrade) (g q : Nat) : List Rat :=
  let n := d.nst e.desc.stream
  let map := (d.dropMap (n.port q).port).of dg.reduce
  let parts := (List.range e.desc.sources.length).flatMap (fun j =>
    let mask := (e.desc.sources.getD j Source.reset).portMask
    if n.inMask mask q && !(n.sourceWidth mask = 0) then
      (d.valueCounts e dg j g).zipIdx.map (fun c =>
        (map.getD (c.2 + 1) 0, c.1 * ((n.owned q : Nat) : Rat) / ((n.sourceWidth mask : Nat) : Rat)))
    else [])
  (List.range 7).map (fun k => ((parts.filter (fun x => x.1 = k + 1)).map (·.2)).sum)

/-- Drop power of a port in a segment, mW: drops a line × lines a second × nJ (R512). -/
def Dev.dropPower (d : Dev) (s q : Nat) (drops : List Rat) (lines rate : Nat) : Rat :=
  let m := d.pmodel ((d.nst s).port q).port
  (drops.zipIdx.map (fun x => x.1 * ((m.eDrop.getD x.2 0 : Nat) : Rat))).sum * (rate : Rat) / ((lines : Nat) : Rat) / 1000000

/-- Ink of a line of a port, pL (R527). -/
def Dev.inkLine (d : Dev) (s q : Nat) (drops : List Rat) (lines : Nat) : Rat :=
  let m := d.pmodel ((d.nst s).port q).port
  (drops.zipIdx.map (fun x => x.1 * ((m.vol.getD x.2 0 : Nat) : Rat))).sum / ((lines : Nat) : Rat)

/-! ## Capacity and voltage -/

/-- Worst-corner lane rate of R314 at a voltage in mV, in 10^-1 Mdot/s, between the table's rows. -/
def laneRate (thresh : Bool) (mv : Nat) : Rat :=
  let row (k : Nat) : Nat := if thresh then [750, 1230, 1670, 2047].getD k 2047 else [380, 620, 840, 1031].getD k 1031
  let v := min 900 (max 600 mv)
  let k := min 2 ((v - 600) / 100)
  ((row k : Nat) : Rat) + ((row (k + 1) - row k : Nat) : Rat) * ((v - 600 - 100 * k : Nat) : Rat) / 100

/-- The present core voltage: the last measured, or the last confirmed while FLT_AVS persists (R535, R536). -/
def Sched.present (c : Sched) : Nat := if c.avsFail then c.confirmed else c.measured

/-- C(V): the stream's predicted capacity at a voltage, Mdot/s (R513). -/
def Dev.capacityAt (d : Dev) (s : Nat) (thresh : Bool) (mv : Nat) : Rat :=
  let x := d.sst s
  (((if thresh then x.capThresh else x.capDiff : Nat) : Nat) : Rat) * laneRate thresh mv / laneRate thresh d.sched.present

/-- VMIN and VMAX in mV (R558). -/
def Sched.vMinMv (c : Sched) : Nat := 600 + 5 * c.vMin

/-- VMAX in mV (R558). -/
def Sched.vMaxMv (c : Sched) : Nat := 600 + 5 * c.vMax

/-- The lowest 5 mV step from VMIN to VMAX at which the stream's capacity is at least 17/16 of W × rate (R532). -/
def Dev.voltageFor (d : Dev) (s : Nat) (thresh : Bool) (rate : Rat) : Option Nat :=
  let c := d.sched
  ((List.range (c.vMax - c.vMin + 1)).map (fun k => c.vMinMv + 5 * k)).find? (fun v =>
    decide ((17 : Rat) * (((d.nst s).width : Nat) : Rat) * rate ≤ 16 * 1000000 * d.capacityAt s thresh v))

/-- Screening power of a stream's work at MAX_RATE, mW (R511); at VMAX where no step suffices. -/
def Dev.screenPower (d : Dev) (s mode : Nat) (thresh : Bool) : Rat :=
  if mode = 0 then 0
  else
    let rate := (d.nst s).maxRate
    let v := (d.voltageFor s thresh (rate : Rat)).getD d.sched.vMaxMv
    let e : Rat := if thresh then 14 / 100 else 46 / 100
    (((d.nst s).width * rate : Nat) : Rat) * e * ((v * v : Nat) : Rat) / (900 * 900) / 1000000

/-- P_OTHER in mW (R510). -/
def Dev.otherPower (d : Dev) : Nat :=
  4500 + 1000 * ((List.range 2).filter (fun c => (d.dch c).st = .serving || (d.dch c).st = .selfRefresh)).length +
  (if d.sys.pcieUp then 1000 else 0) + 300 * ((List.range 2).filter (fun n => (d.eth n).link)).length +
  94 * ((List.range 16).filter (fun p => (d.hp p).st = .up)).length

/-! ## Placed work -/

/-- What one segment of an attempt loads, at web positions from start to stop in sub-dots (R508, R514). -/
structure Placed where
  /-- stream -/
  stream : Nat
  /-- web position of its first line -/
  start : Int
  /-- web position after its last line -/
  stop : Int
  /-- screening power, mW -/
  screen : Rat
  /-- drop power by port of the stream's list, mW -/
  power : List Rat
  /-- ink of a line, pL -/
  ink : Rat

/-- Web position at which a stream's line fires at its reference row (R420). -/
def Dev.webOf (d : Dev) (s : Nat) (n : Int) : Int := 64 * n + (d.fst s).datum

/-- An attempt with its degradations placed from stream line f: one load for each of its segments. -/
def Dev.place (d : Dev) (e : Entry) (dg : Degrade) (f : Int) : List Placed :=
  let x := e.desc
  let s := x.stream
  let n := d.nst s
  (List.range x.segments).map (fun g =>
    let k := x.segLines g
    let drops := (List.range n.ports.length).map (fun q => d.portDrops e dg g q)
    { stream := s, start := d.webOf s (f + 4096 * g), stop := d.webOf s (f + 4096 * g + k),
      screen := d.screenPower s x.mode (x.threshWork dg),
      power := drops.zipIdx.map (fun y => d.dropPower s y.2 y.1 k n.maxRate),
      ink := (drops.zipIdx.map (fun y => d.inkLine s y.2 y.1 k)).sum })

/-- The work of every COMMITTED and FIRING imprint of the device. -/
def Dev.committedWork (d : Dev) : List Placed :=
  (List.range 4).flatMap (fun s => (d.onWeb s).flatMap (fun i =>
    d.place (d.entry i) (d.entry i).degrade ((d.entry i).firstLine.getD 0)))

/-- Placed work that covers a web position. -/
def workAt (l : List Placed) (w : Int) : List Placed := l.filter (fun p => decide (p.start ≤ w) && decide (w < p.stop))

/-- Device power of the work at a web position, mW (R508). -/
def Dev.devicePower (d : Dev) (l : List Placed) (w : Int) : Rat :=
  ((d.otherPower : Nat) : Rat) + ((workAt l w).map (·.screen)).sum

/-- External head power at a web position, mW (R508). -/
def Dev.headPower (d : Dev) (l : List Placed) (w : Int) : Rat :=
  (((List.range 16).map (fun p => (d.pmodel p).idleMw)).sum : Nat) + ((workAt l w).flatMap (·.power)).sum

/-- q of R527 at a stream's MAX_RATE: the web travel during LEAD_MS, sub-dots. -/
def Dev.travel (d : Dev) (z s : Nat) : Int := (64 * (d.nst s).maxRate * (d.zone z).leadMs / 1000 : Nat)

/-- The web position at which a zone meets the first line of placed work (R527). -/
def Dev.dryPoint (d : Dev) (z : Nat) (p : Placed) : Int :=
  p.start - (d.fst p.stream).datum - d.travel z p.stream + (d.zone z).dist

/-- Power of zone z at a web position, before its clamp, with the ink of each stream at MAX_RATE of the lines whose
reference-row position is that position plus q less DIST (R527). -/
def Dev.zonePower (d : Dev) (l : List Placed) (z : Nat) (w : Int) : Rat :=
  let m := d.zone z
  let ink := ((List.range 4).filter (fun s => m.mask.testBit s)).map (fun s =>
    let x : Int := w + d.travel z s - m.dist + (d.fst s).datum
    ((workAt (l.filter (fun p => p.stream = s)) x).map (fun p => p.ink * ((d.nst s).maxRate : Rat) / 1000000)).sum)
  (m.idleMw : Rat) + (m.k : Rat) * ink.sum

/-- External dryer power at a web position, mW (R508, R527). -/
def Dev.dryerPower (d : Dev) (l : List Placed) (w : Int) : Rat :=
  ((List.range 8).map (fun z => min (d.zonePower l z w) ((d.zone z).maxMw : Rat))).sum

/-! ## Heat -/

/-- A head's temperature after an interval of lines at a drop power, from T, in 1/16 °C (R530's rule over a segment). -/
def Dev.heatStep (d : Dev) (p : Nat) (rate : Nat) (t : Int) (lines : Nat) (power : Rat) : Int :=
  let m := d.pmodel p
  let tss : Int := Config.headIdle p + ((m.rTh : Rat) * power / 16000).floor + m.bias
  t + roundOpen 30 ((tss - t) * Config.expRise (lines * 1000) (rate * m.tauMs)) (2 ^ 32)

/-- The intervals of a stream's work ahead of line n on port q, gaps included: lines and drop power. -/
def intervals (q : Nat) : Int → List (Int × Int × List Rat) → List (Nat × Rat)
  | _, [] => []
  | at_, (a, b, l) :: t =>
    (if at_ < a then [((a - at_).toNat, (0 : Rat))] else []) ++ [((b - max a at_).toNat, l.getD q 0)] ++ intervals q (max at_ b) t

/-- The highest temperature predicted for port q of stream s over its committed work and the work given, in stream order
(R508, R530). -/
def Dev.peakHeat (d : Dev) (s q : Nat) (l : List Placed) : Int :=
  let p := ((d.nst s).port q).port
  let rate := (d.nst s).maxRate
  let line (w : Int) : Int := (w - (d.fst s).datum) / 64
  let work := ((l.filter (fun x => x.stream = s)).map (fun x => (line x.start, line x.stop, x.power))).filter (fun x =>
    decide ((d.fst s).nextLine < x.2.1))
  let sorted := work.mergeSort (fun a b => decide (a.1 ≤ b.1))
  ((intervals q (d.fst s).nextLine sorted).foldl (fun (a : Int × Int) x =>
    let t := d.heatStep p rate a.1 x.1 x.2
    (t, max a.2 t)) ((d.hp p).temp, (d.hp p).temp)).2

/-! ## Fitting -/

/-- The causes of SCHED_HOLD for which a candidate placed from line f does not fit (R508, R523, R534, R536). -/
def Dev.misfits (d : Dev) (e : Entry) (dg : Degrade) (f : Int) : List Nat :=
  let s := e.desc.stream
  let n := d.nst s
  let c := d.sched
  let own := d.place e dg f
  let all := d.committedWork ++ own
  let starts := all.map (·.start)
  let inOwn (w : Int) : Bool := own.any (fun p => decide (p.start ≤ w) && decide (w < p.stop))
  let pts := starts.filter inOwn
  let zones := (List.range 8).filter (fun z => (d.zone z).mask.testBit s)
  let dryPts := zones.flatMap (fun z =>
    ((all.filter (fun p => (d.zone z).mask.testBit p.stream)).map (fun p => d.dryPoint z p)).filter (fun w =>
      inOwn (w + d.travel z s - (d.zone z).dist + (d.fst s).datum)))
  let thresh := e.desc.threshWork dg
  let need := (((n.width * n.maxRate : Nat) : Rat)) / 1000000
  let v := d.voltageFor s thresh (n.maxRate : Rat)
  let heat := (List.range n.ports.length).any (fun q =>
    let p := (n.port q).port
    let m := d.pmodel p
    decide (m.warnT - (if m.backoff then 64 else 16) < d.peakHeat s q all))
  (if pts.any (fun w => decide ((min 15000 c.capMw : Nat) < d.devicePower all w)) then [0] else []) ++
  (if !(c.headMw = 2 ^ 32 - 1) && pts.any (fun w => decide (((c.headMw : Nat) : Rat) < d.headPower all w)) then [1] else []) ++
  (if zones.any (fun z => dryPts.any (fun w => decide (((d.zone z).maxMw : Rat) < d.zonePower all z w))) ||
      (!(c.dryerMw = 2 ^ 32 - 1) && dryPts.any (fun w => decide (((c.dryerMw : Nat) : Rat) < d.dryerPower all w))) then [2] else []) ++
  (if heat then [3] else []) ++
  (if e.desc.mode = 0 then []
   else if d.capacityAt s thresh c.vMaxMv < need then [4]
   else match v with
     | some v => if c.target < v || (c.needFrom < v && decide (v ≤ c.needV)) then [4] else []
     | none => [4])

/-- The voltage above the present target that a candidate needs (R534). -/
def Dev.voltageNeed (d : Dev) (e : Entry) (dg : Degrade) : Option Nat :=
  if e.desc.mode = 0 then none
  else (d.voltageFor e.desc.stream (e.desc.threshWork dg) ((d.nst e.desc.stream).maxRate : Rat)).filter (fun v => decide (d.sched.target < v))

/-- Do the lines of an attempt from f cover a reserved line (R888)? -/
def NozStream.coversReserved (n : NozStream) (f : Int) (length : Nat) : Bool :=
  n.reserved.any (fun r => decide (f < r.1 + r.2) && decide (r.1 < f + length))

/-- The first line at or after f from which an attempt covers no reserved line (R888); fuel bounds the spans passed. -/
def NozStream.clearOf (n : NozStream) (length : Nat) : Nat → Int → Int
  | 0, f => f
  | fuel + 1, f =>
    match n.reserved.find? (fun r => decide (f < r.1 + r.2) && decide (r.1 < f + length)) with
    | none => f
    | some r => NozStream.clearOf n length fuel (r.1 + r.2)

/-- Planned last line of the stream's last COMMITTED or FIRING imprint. -/
def Dev.lastPlanned (d : Dev) (s : Nat) : Option Int := ((d.spans s).map (fun x => x.2 - 1)).getLast?

/-- The planned last line of an imprint's predecessor on the stream, kept when that imprint is final (R47). -/
def Dev.tailLine (d : Dev) (s : Nat) : Option Int := (d.lastPlanned s).orElse (fun _ => (d.ist s).tail)

/-- The earliest first line of an attempt under R47: START_WP for AT_WP; else the later of the line after its predecessor's
last line plus MIN_GAP, and the present position plus HORIZON lines. -/
def Dev.earliestFirst (d : Dev) (e : Entry) : Int :=
  let s := e.desc.stream
  let now := (d.fst s).nextLine - 1
  if e.atWp then now + (d.wpAhead s e.desc.startWp + 63) / 64
  else
    let h : Int := now + (d.ist s).horizon
    match d.tailLine s with
    | some t => max (t + 1 + e.desc.minGap) h
    | none => h

/-- The first line at which an attempt fits, with spacing in steps of 256 lines up to MAX_SPACING for NEXT_AVAILABLE, and
past every reserved span (R518, R519, R888); else the causes at its earliest position. -/
def Dev.fitLine (d : Dev) (e : Entry) (dg : Degrade) : Except (List Nat) Int :=
  let n := d.nst e.desc.stream
  let f := d.earliestFirst e
  if e.atWp then
    if n.coversReserved f e.desc.length then .error []
    else match d.misfits e dg f with
      | [] => .ok f
      | l => .error l
  else
    let at_ (k : Nat) : Int := n.clearOf e.desc.length (n.reserved.length + 1) (f + 256 * k)
    match (List.range (d.sched.maxSpacing / 256 + 1)).find? (fun k => (d.misfits e dg (at_ k)).isEmpty) with
    | some k => .ok (at_ k)
    | none => .error (d.misfits e dg (at_ 0))

/-- The degradation sets an attempt may take, weakest first (R517). -/
def Desc.sets (x : Desc) : List Degrade :=
  let t := x.allowThresh && x.mode = 2
  [{ thresh := false, reduce := false }] ++ (if t then [{ thresh := true, reduce := false }] else []) ++
  (if x.allowReduce then [{ thresh := false, reduce := true }] else []) ++
  (if t && x.allowReduce then [{ thresh := true, reduce := true }] else [])

/-- Does an attempt with degradations fit at its planned position, spacing permitted? -/
def Dev.fits (d : Dev) (e : Entry) (dg : Degrade) : Bool :=
  match d.fitLine e dg with | .ok _ => true | .error _ => false

/-- The degradations of an attempt: the first permitted set that fits, else the strongest (R517). -/
def Dev.chooseSet (d : Dev) (e : Entry) : Degrade :=
  (e.desc.sets.find? (fun g => d.fits e g)).getD (e.desc.sets.getLast?.getD { thresh := false, reduce := false })

end Sys2Proof.Machine
end

