-- ==== Sys2Proof/Machine/Halale.lean ====
section
/-! DEFINITION. Halale raster code (spec chapter 5): container and block headers, dot-plane and contone lines, and the decode of
a container with the failures of R254 in their order. -/

namespace Sys2Proof.Machine

/-! ## Dot-plane lines -/

/-- The n-th line above, zero where the block has none (R233). -/
def lineAbove (w : Nat) (above : List (List Nat)) (k : Nat) : List Nat :=
  match above[k - 1]? with
  | some l => l
  | none => List.replicate w 0

/-- n fixed fields of w bits. -/
def takeFields (w : Nat) : Nat → List Bool → Option (List Nat × List Bool)
  | 0, bs => some ([], bs)
  | n + 1, bs =>
    match takeField w bs with
    | none => none
    | some (v, bs) => (takeFields w n bs).map (fun r => (v :: r.1, r.2))

/-- n samples copied from distance d of the same line, newest first. -/
def copyLine (d : Nat) : Nat → List Nat → List Nat
  | 0, cur => cur
  | n + 1, cur => copyLine d n (cur.getD (d - 1) 0 :: cur)

/-- The sample operations of a CODED dot-plane line until WIDTH samples are written (R237 to R240, R251); cur holds the
samples newest first, above the lines above, nearest first. -/
def dotOps (w : Nat) (above : List (List Nat)) : Nat → List Nat → List Bool → Dec (List Nat × List Bool)
  | 0, _, _ => .error .badBitstream
  | fuel + 1, cur, bs =>
    let p := cur.length
    if w ≤ p then .ok (cur.reverse, bs)
    else
      match orBad (takeField 2 bs) with
      | .error e => .error e
      | .ok (op, bs) =>
        match op with
        | 0 =>
          match orBad ((takeField 3 bs).bind (fun l => (count? l.2).map (fun n => (l.1, n.1, n.2)))) with
          | .error e => .error e
          | .ok (l, n, bs) =>
            if w < p + n then .error .expansion else dotOps w above fuel (List.replicate n l ++ cur) bs
        | 1 =>
          match orBad (count? bs) with
          | .error e => .error e
          | .ok (n, bs) =>
            if w < p + n then .error .expansion
            else
              match orBad (takeFields 3 n bs) with
              | .error e => .error e
              | .ok (l, bs) => dotOps w above fuel (l.reverse ++ cur) bs
        | 2 =>
          match orBad (count? bs) with
          | .error e => .error e
          | .ok (n, bs) =>
            if w < p + n then .error .expansion
            else dotOps w above fuel ((((lineAbove w above 1).drop p).take n).reverse ++ cur) bs
        | _ =>
          match orBad (takeField 1 bs) with
          | .error e => .error e
          | .ok (src, bs) =>
            if src = 0 then
              match orBad ((count? bs).bind (fun d => (count? d.2).map (fun n => (d.1, n.1, n.2)))) with
              | .error e => .error e
              | .ok (d, n, bs) =>
                if p < d then .error .badBitstream
                else if w < p + n then .error .expansion
                else dotOps w above fuel (copyLine d n cur) bs
            else
              match orBad ((count? bs).bind (fun k => (takeField 1 k.2).bind (fun g => (count? g.2).bind (fun s =>
                  (count? s.2).map (fun n => (k.1, g.1, s.1, n.1, n.2)))))) with
              | .error e => .error e
              | .ok (k, neg, s, n, bs) =>
                let from_ : Int := if neg = 1 then (p : Int) - s else p + s
                if 255 < k then .error .badBitstream
                else if w < p + n then .error .expansion
                else if from_ < 0 || (w : Int) < from_ + n then .error .badBitstream
                else dotOps w above fuel ((((lineAbove w above k).drop from_.toNat).take n).reverse ++ cur) bs

/-- One dot-plane line (R236). -/
def dotLine (w : Nat) (above : List (List Nat)) (bs : List Bool) : Dec (List Nat × List Bool) :=
  match orBad (takeField 2 bs) with
  | .error e => .error e
  | .ok (0, bs) => dotOps w above (w + 1) [] bs
  | .ok (1, bs) => .ok (lineAbove w above 1, bs)
  | .ok (2, bs) => .ok (List.replicate w 0, bs)
  | .ok (_, _) => .error .badBitstream

/-! ## Contone lines -/

/-- The prediction of R243. -/
def predict (a b c : Int) : Int :=
  if max a b ≤ c then min a b else if c ≤ min a b then max a b else a + b - c

/-- The context of R244. -/
def contextOf (dd : Nat) : Nat :=
  if dd = 0 then 0 else if dd ≤ 2 then 1 else if dd ≤ 6 then 2 else if dd ≤ 14 then 3 else if dd ≤ 30 then 4
  else if dd ≤ 62 then 5 else if dd ≤ 126 then 6 else 7

/-- The Rice parameter of a context with sum A and count N (R246). -/
def riceK (a n : Nat) : Nat := ((List.range 8).find? (fun k => decide (a ≤ n * 2 ^ k))).getD 7

/-- The quotient: one bits up to 24, with the zero bit that ends fewer than 24. -/
def takeOnes : Nat → Nat → List Bool → Option (Nat × List Bool)
  | 0, u, bs => some (u, bs)
  | _ + 1, _, [] => none
  | fuel + 1, u, b :: bs => if b then takeOnes fuel (u + 1) bs else some (u, bs)

/-- A residual under parameter k (R247). -/
def residual (k : Nat) (bs : List Bool) : Dec (Nat × List Bool) :=
  match orBad (takeOnes 24 0 bs) with
  | .error e => .error e
  | .ok (u, bs) =>
    match orBad (takeField (if u = 24 then 8 else k) bs) with
    | .error e => .error e
    | .ok (v, bs) =>
      let m := if u = 24 then v else u * 2 ^ k + v
      if 255 < m then .error .badBitstream else .ok (m, bs)

/-- Contexts after a residual m in context q (R249). -/
def contextAfter (q m : Nat) (cx : List (Nat × Nat)) : List (Nat × Nat) :=
  cx.zipIdx.map (fun e =>
    if e.2 = q then
      let a := e.1.1 + m
      let n := e.1.2 + 1
      if n = 64 then (a / 2, 32) else (a, n)
    else e.1)

/-- The samples of a CODED contone line (R242 to R249); n counts those left, cur holds the samples newest first. -/
def contoneOps (up : List Nat) : Nat → List Nat → List (Nat × Nat) → List Bool → Dec (List Nat × List (Nat × Nat) × List Bool)
  | 0, cur, cx, bs => .ok (cur.reverse, cx, bs)
  | n + 1, cur, cx, bs =>
    let p := cur.length
    let b : Nat := up.getD p 0
    let a : Nat := if p = 0 then b else cur.headD 0
    let c : Nat := if p = 0 then b else up.getD (p - 1) 0
    let q := contextOf ((mag' a c) + (mag' b c))
    let x := cx.getD q (4, 1)
    match residual (riceK x.1 x.2) bs with
    | .error e => .error e
    | .ok (m, bs) =>
      let e : Int := if m % 2 = 0 then (m / 2 : Nat) else -(((m + 1) / 2 : Nat) : Int)
      let v := ((predict a b c + e) % 256).toNat
      contoneOps up n (v :: cur) (contextAfter q m cx) bs
where
  /-- Distance of two samples. -/
  mag' (x y : Nat) : Nat := (x - y) + (y - x)

/-- One contone line (R241). -/
def contoneLine (w : Nat) (above : List (List Nat)) (cx : List (Nat × Nat)) (bs : List Bool) :
    Dec (List Nat × List (Nat × Nat) × List Bool) :=
  match orBad (takeField 2 bs) with
  | .error e => .error e
  | .ok (0, bs) => contoneOps (lineAbove w above 1) w [] cx bs
  | .ok (1, bs) => .ok (lineAbove w above 1, cx, bs)
  | .ok (2, bs) => (orBad (takeField 8 bs)).map (fun r => (List.replicate w r.1, cx, r.2))
  | .ok (_, _) => .error .badBitstream

/-! ## Blocks -/

/-- The coded lines of a block; above holds the lines decoded so far, newest first (R233, R235). -/
def codedLines (contone : Bool) (w : Nat) : Nat → List (List Nat) → List (Nat × Nat) → List Bool →
    Dec (List (List Nat) × List Bool)
  | 0, above, _, bs => .ok (above.reverse, bs)
  | n + 1, above, cx, bs =>
    if contone then
      match contoneLine w above cx bs with
      | .error e => .error e
      | .ok (l, cx, bs) => codedLines contone w n (l :: above) cx bs
    else
      match dotLine w above bs with
      | .error e => .error e
      | .ok (l, bs) => codedLines contone w n (l :: above) cx bs

/-- The uncoded lines of a RAW block (R234). -/
def rawLines (contone : Bool) (w : Nat) : Nat → List (List Nat) → List Bool → Dec (List (List Nat) × List Bool)
  | 0, above, bs => .ok (above.reverse, bs)
  | n + 1, above, bs =>
    match orBad (takeFields (if contone then 8 else 3) w bs) with
    | .error e => .error e
    | .ok (l, bs) => rawLines contone w n (l :: above) bs

/-- A block's payload decoded, with its padding checked (R234, R235, R245, R252, R253). -/
def decodeBlock (contone raw : Bool) (w lines : Nat) (payload : List Nat) : Dec (List (List Nat)) :=
  let bs := bitsOfBytes payload
  let r := if raw then rawLines contone w lines [] bs else codedLines contone w lines [] (List.replicate 8 (4, 1)) bs
  match r with
  | .error e => .error e
  | .ok (l, rest) => if 63 < rest.length || rest.any id then .error .expansion else .ok l

/-! ## Containers -/

/-- A container header (R227). -/
structure HrcHead where
  /-- KIND 1 -/
  contone : Bool
  width : Nat
  lines : Nat
  blocks : Nat
  deriving DecidableEq, Repr

/-- A field of n bytes at an offset of an object. -/
def objField (obj : List Nat) (o n : Nat) : Nat := leNat ((obj.drop o).take n)

/-- The container header with the checks of rows 1 and 2 of R254. -/
def parseHead (obj : List Nat) : Dec HrcHead :=
  let w := objField obj 8 4
  let l := objField obj 12 4
  let b := objField obj 24 4
  if obj.length < 32 || objField obj 0 4 ≠ 0x31435248 || objField obj 4 1 ≠ 1 || 1 < objField obj 5 1 ||
      objField obj 6 2 ≠ 0 || w = 0 || 65536 < w || l = 0 || 1048576 < l || b = 0 || 1048576 < b ||
      objField obj 16 8 ≠ w * l then .error .badBitstream
  else if crc32c (obj.take 28) ≠ objField obj 28 4 then .error .checksum
  else .ok { contone := objField obj 5 1 = 1, width := w, lines := l, blocks := b }

/-- One block as the structural walk finds it. -/
structure HrcBlock where
  /-- object offset of its header -/
  offset : Nat
  /-- first line of the block -/
  line : Nat
  lines : Nat
  raw : Bool
  payload : List Nat
  check : Nat
  deriving DecidableEq, Repr

/-- Where a container fails: cause, block index, object offset and line of the block (R254, R255). -/
structure HrcFail where
  cause : Cause
  block : Option Nat
  offset : Nat
  line : Nat
  deriving DecidableEq, Repr

/-- The structural walk from block i at an offset (rows 4 and 5 of R254); seg is the lines of a segment. -/
def walkBlocks (obj : List Nat) (h : HrcHead) (seg : Nat) : Nat → Nat → Nat → Nat → List HrcBlock →
    Except HrcFail (List HrcBlock)
  | 0, _, _, _, acc => .ok acc.reverse
  | n + 1, i, off, line, acc =>
    let bad : HrcFail := { cause := .badBitstream, block := some i, offset := off, line := line }
    let bl := objField obj (off + 4) 2
    let fl := objField obj (off + 6) 1
    let pb := objField obj (off + 8) 4
    if obj.length < off + 16 || objField obj off 4 ≠ 0x4B4C4248 || 8 ≤ fl || objField obj (off + 7) 1 ≠ 0 || bl = 0 ||
        256 < bl || pb % 8 ≠ 0 || obj.length < off + 16 + pb then .error bad
    else if seg < line % seg + bl || (fl % 2 = 1) ≠ (n = 0) then .error bad
    else if n = 0 && (line + bl ≠ h.lines || obj.length ≠ off + 16 + pb) then .error bad
    else
      walkBlocks obj h seg n (i + 1) (off + 16 + pb) (line + bl)
        ({ offset := off, line := line, lines := bl, raw := fl / 2 % 2 = 1, payload := (obj.drop (off + 16)).take pb,
           check := objField obj (off + 12) 4 } :: acc)

/-- Rows 6 and 7 of R254, block by block: the lines of the blocks in order. -/
def decodeBlocks (h : HrcHead) : Nat → List HrcBlock → Except HrcFail (List (List Nat))
  | _, [] => .ok []
  | i, b :: rest =>
    let fail (c : Cause) : HrcFail := { cause := c, block := some i, offset := b.offset, line := b.line }
    match decodeBlock h.contone b.raw h.width b.lines b.payload with
    | .error c => .error (fail c)
    | .ok l =>
      if crc32c l.flatten ≠ b.check then .error (fail .checksum)
      else (decodeBlocks h (i + 1) rest).map (fun r => l ++ r)

/-- Lines of a segment of a source (R230). -/
def segLines (format : Nat) : Nat := if format = 2 then 2048 else 4096

/-- Does a container match its imprint (R229)? -/
def HrcHead.fits (h : HrcHead) (format width length : Nat) : Bool :=
  h.contone = decide (format ≠ 0) &&
  h.width = (if format = 2 then (width + 1) / 2 else width) && h.lines = (if format = 2 then (length + 1) / 2 else length)

/-- The lines of a source's container and the blocks that hold them, or the first failure (R254). -/
def decodeSource (obj : List Nat) (format width length : Nat) : Except HrcFail (List (List Nat) × List HrcBlock) :=
  let headFail (c : Cause) : HrcFail := { cause := c, block := none, offset := 0, line := 0 }
  match parseHead obj with
  | .error c => .error (headFail c)
  | .ok h =>
    if !h.fits format width length then .error (headFail .geometry)
    else
      match walkBlocks obj h (segLines format) h.blocks 0 32 0 [] with
      | .error f => .error f
      | .ok bl => (decodeBlocks h 0 bl).map (fun l => (l, bl))

/-- What the look-ahead decode records of each segment (R223). -/
def segInfos (format : Nat) (lines : List (List Nat)) (blocks : List HrcBlock) : List SegInfo :=
  let n := segLines format
  (List.range ((lines.length + n - 1) / n)).map (fun k =>
    let s := ((lines.drop (k * n)).take n).flatten
    { offset := ((blocks.find? (fun b => b.line = k * n)).map (·.offset)).getD 0,
      counts := if format = 0 then (List.range 7).map (fun i => s.count (i + 1)) else [],
      sum := if format = 0 then 0 else s.sum, samples := s.length })

end Sys2Proof.Machine
end

