-- ==== Sys2Proof/Machine/Screening.lean ====
section
/-! DEFINITION. The screening engine (spec chapter 6): the row of a line, its tone, density, threshold and diffusion stages,
the drop-level map, the attempt boundary, and the SCR commands. -/

namespace Sys2Proof.Machine

/-! ## Sources of a line -/

/-- Columns below x owned by the ports of a mask: the sample that fills column x, where it is owned by one (R342). -/
def NozStream.sampleOf (n : NozStream) (mask x : Nat) : Nat :=
  ((List.range n.ports.length).map (fun q =>
    if n.inMask mask q then min x (n.ownEnd q) - (if q = 0 then 0 else n.ownEnd (q - 1)) else 0)).sum

/-- Decoded lines of source j of an attempt (R229, R254). -/
def Dev.sourceLines (d : Dev) (x : Desc) (j : Nat) : List (List Nat) :=
  let src := x.sources.getD j Source.reset
  match d.objIndex src.handle with
  | some i =>
    match decodeSource (d.obj i).data src.format ((d.nst x.stream).sourceWidth src.portMask) x.length with
    | .ok (l, _) => l
    | .error _ => []
  | none => []

/-- The source whose samples fill column x (R342, R35). -/
def Dev.sourceOf (d : Dev) (x : Desc) (c : Nat) : Option Nat :=
  let n := d.nst x.stream
  let q := n.ownerOf c
  (List.range x.sources.length).find? (fun j => n.inMask (x.sources.getD j Source.reset).portMask q)

/-- The upscaled tone value at position x and line l of a half-resolution source (R292). -/
def upscale (t : Nat → Nat → Nat) (wh lh x l : Nat) : Nat :=
  let x0 := x / 2
  let y0 := l / 2
  let x1 := min (x0 + x % 2) (wh - 1)
  let y1 := min (y0 + l % 2) (lh - 1)
  (t x0 y0 + t x1 y0 + t x0 y1 + t x1 y1 + 2) / 4

/-- Density correction (R293). -/
def Density.apply (e : Density) (u : Nat) : Nat := (clampI (((u * e.gain + 512) / 1024 : Nat) + e.offset) 0 4095).toNat

/-- What the sources give position c on line l: the dot plane's level, or the tone value before density correction (R289,
R290, R292). -/
def Dev.sourceValue (d : Dev) (x : Desc) (lines : List (List (List Nat))) (l c : Nat) : Nat :=
  let n := d.nst x.stream
  match d.sourceOf x c with
  | none => 0
  | some j =>
    let src := x.sources.getD j Source.reset
    let data := lines.getD j []
    let k := n.sampleOf src.portMask c
    let sample (i line : Nat) : Nat := (data.getD line []).getD i 0
    if src.format = 0 then sample k l
    else
      let tone (i line : Nat) : Nat := (d.sst x.stream).toneAt (sample i line)
      if src.format = 1 then tone k l
      else upscale tone ((n.sourceWidth src.portMask + 1) / 2) ((x.length + 1) / 2) k l

/-! ## Threshold screening -/

/-- What dead position p gives its neighbours: to the left and to the right (R304). -/
def shareOf (status v : Nat → Nat) (w p : Nat) : Nat × Nat :=
  if status p = 2 then
    let l := decide (0 < p) && isLive (status (p - 1))
    let r := decide (p + 1 < w) && isLive (status (p + 1))
    if l && r then (v p / 2, v p - v p / 2) else if l then (v p, 0) else if r then (0, v p) else (0, 0)
  else (0, 0)

/-- The value thresholded at a live position, with the shares of dead neighbours (R304). -/
def shared (status v : Nat → Nat) (w p : Nat) : Nat :=
  min 4095 (v p + (if p = 0 then 0 else (shareOf status v w (p - 1)).2) +
    (if p + 1 < w then (shareOf status v w (p + 1)).1 else 0))

/-- The cell that position p of line l meets (R302). -/
def Thresh.cell (t : Thresh) (cross web p l : Nat) : List Nat :=
  t.cells.getD ((l + web) % t.height * t.width + (p + cross) % t.width) []

/-- Screened value of v in a cell (R303). -/
def overThresholds (cell : List Nat) (v : Nat) : Nat := (cell.filter (fun t => decide (t < v / 16))).length

/-- A line of an attempt screened with a threshold set (R302 to R304). -/
def threshLine (t : Thresh) (cross web : Nat) (status v : Nat → Nat) (w l : Nat) : List Nat :=
  (List.range w).map (fun p =>
    if isLive (status p) then overThresholds (t.cell cross web p l) (shared status v w p) else 0)

/-! ## Error diffusion -/

/-- What the procedure of R306 holds while it passes along a line. -/
structure Diffusing where
  /-- out, last position first -/
  out : List Nat
  /-- carry to position p -/
  f1 : Int
  /-- carry to position p + 1 -/
  f2 : Int
  /-- carry built for the next line -/
  next : List Int
  /-- values clamped by sat (R307) -/
  sats : Nat

/-- sat of R306. -/
def sat (x : Int) : Int := clampI x (-65536) 65535

/-- 1 where sat clamps (R307). -/
def satHit (x : Int) : Nat := if sat x = x then 0 else 1

/-- The level nearest t, the lower on a tie (R306). -/
def Diff.nearest (f : Diff) (t : Int) : Nat :=
  let far (k : Nat) : Int := mag (t - 16 * (f.values.getD k 0 : Nat))
  (List.range (f.maxLevel + 1)).foldl (fun b k => if far k < far b then k else b) 0

/-- A share is added to position i of the next line's carry, with its clamp. -/
def Diffusing.addNext (i : Nat) (x : Int) (a : Diffusing) : Diffusing :=
  let v := a.next.getD i 0 + x
  { a with next := a.next.set i (sat v), sats := a.sats + satHit v }

/-- One position of R306. -/
def Diff.step (f : Diff) (status v : Nat → Nat) (cur : List Int) (w : Nat) (a : Diffusing) (p : Nat) : Diffusing :=
  if status p = 3 then { a with out := 0 :: a.out, f1 := a.f2, f2 := 0 }
  else
    let t : Int := 16 * (v p : Int) + cur.getD p 0 + a.f1
    let dead := status p = 2
    let k := if dead then 0 else f.nearest t
    let kern := if dead then f.dead else f.kernel
    let e := t - 16 * (f.values.getD k 0 : Nat)
    let part (i : Nat) : Int := Int.fdiv (e * (kern.getD i 0 : Nat)) 16
    let rest := e - part 0 - part 1 - part 2 - part 4
    let open_ (ok : Bool) (q : Nat) : Bool := ok && decide (q < w) && !(status q = 3)
    let okE := open_ true (p + 1)
    let okE2 := open_ true (p + 2)
    let okSw := open_ (decide (0 < p)) (p - 1)
    let share (ok : Bool) (i : Nat) : Int := if ok then part i else 0
    let back (ok : Bool) (i : Nat) : Int := if ok then 0 else part i
    let ss := rest + back okE 0 + back okE2 1 + back okSw 2 + back okE 4
    let f1 := a.f2 + share okE 0
    let f2 := share okE2 1
    let a := { a with out := k :: a.out, f1 := sat f1, f2 := sat f2, sats := a.sats + satHit f1 + satHit f2 }
    let a := if 0 < p then a.addNext (p - 1) (share okSw 2) else a
    let a := a.addNext p ss
    if p + 1 < w then a.addNext (p + 1) (share okE 4) else a

/-- A line of a DIFFUSE attempt: its screened values, the carry to the next line, and the clamps (R306 to R309). -/
def Diff.line (f : Diff) (status v : Nat → Nat) (cur : List Int) (w : Nat) : List Nat × List Int × Nat :=
  let a := (List.range w).foldl (f.step status v cur w)
    { out := [], f1 := 0, f2 := 0, next := List.replicate w 0, sats := 0 }
  (a.out.reverse, a.next, a.sats)

/-! ## The next line of an attempt -/

/-- Screened values of line l of an attempt, with the carry and the clamps (R289, R296, R298, R299). -/
def Dev.screened (d : Dev) (e : Entry) (l : Nat) : List Nat × List Int × Nat :=
  let x := e.desc
  let s := x.stream
  let w := (d.nst s).width
  let z := d.sst s
  let lines := (List.range x.sources.length).map (d.sourceLines x)
  let raw := (List.range w).map (d.sourceValue x lines l)
  if x.mode = 0 then (raw, [], 0)
  else
    let vals := raw.zipIdx.map (fun u => (Tab.get Density.reset z.density u.2).apply u.1)
    let v (p : Nat) : Nat := vals.getD p 0
    let status (p : Nat) : Nat := d.posStatus s z.curStatus z.curShift p
    let f := d.diffSet x.set
    if x.threshWork e.degrade then
      (threshLine (d.thresh (if x.mode = 1 then x.set else f.fallback)) z.curCross z.curWeb status v w l, e.carry, 0)
    else f.line status v e.carry w

/-- The drop levels of a screened line: the map of the port that fires each position (R313, R316). -/
def Dev.dropLine (d : Dev) (e : Entry) (l : Nat) (row : List Nat) : List Nat :=
  let s := e.desc.stream
  let n := d.nst s
  let z := d.sst s
  row.zipIdx.map (fun x =>
    let c : Int := x.2 + z.curShift
    if 0 ≤ c ∧ c < n.width then
      match d.firingPort s z.curStatus n.weights c.toNat l with
      | some q => ((d.dropMap (n.port q).port).of e.degReduce).getD x.1 0
      | none => 0
    else 0)

/-- Lanes of a stream under SCR_LANE_MAP (R336, R338). -/
def Dev.lanes (d : Dev) (s : Nat) : Nat := 8 * ((List.range 8).filter (fun g => bits d.scr.laneMap (3 * g) 3 = s)).length

/-- At shedding stage 4 and deeper a DIFFUSE attempt that permits it falls back from its next line on (R299, R541). -/
def Dev.shedFallback (i : Nat) (d : Dev) : Dev :=
  let e := d.entry i
  if 4 ≤ d.sched.stage && e.desc.mode = 2 && e.desc.allowThresh && !e.shedFallback then
    let d := d.modEntry i (fun e => { e with shedFallback := true })
    d.when (!e.degThresh && !e.degReduce) (Dev.modSst e.stream (fun x => { x with degraded := satInc 32 x.degraded }))
  else d

/-- The next line of the attempt being screened on stream s is screened and mapped (R288, R313). Segment 0 screened makes the
imprint STAGED (R45). -/
def Dev.screenLine (s : Nat) (d : Dev) : Dev :=
  match (d.sst s).cur with
  | none => d
  | some i =>
    if !((d.entry i).desc.mode = 0) && d.lanes s = 0 then d
    else
      let d := d.shedFallback i
      let e := d.entry i
      let l := e.lines.length
      let r := d.screened e l
      let row := d.dropLine e l r.1
      let d := d.modSst s (fun x => { x with saturations := min (2 ^ 32 - 1) (x.saturations + r.2.2) })
      let d := d.modEntry i (fun e => { e with lines := e.lines ++ [row], carry := r.2.1 })
      let d := d.when (decide (e.desc.segLines 0 ≤ l + 1) && (e.st = .accepted || e.st = .staged)) (Dev.modEntry i (fun e =>
        { e with st := .staged, staged := true }))
      d.when (decide (e.desc.length ≤ l + 1)) (Dev.modSst s (fun x => { x with cur := none }))

/-- SCREEN_LINE_DONE (R306, R313). -/
def execScreenLineDone (st : Nat) : State → Host.Outcome State Fault Refusal := inDomain 5 (Dev.screenLine st)

/-! ## The attempt boundary -/

/-- The attempt that stream s screens next: the first in stream order with a line still to be screened, once its look-ahead
decode has succeeded (R288, R223). -/
def Dev.nextAttempt (d : Dev) (s : Nat) : Option Nat :=
  ((d.ist s).queue.find? (fun i => decide ((d.entry i).lines.length < (d.entry i).desc.length))).filter (fun i =>
    (d.entry i).decode = .ok && ((d.entry i).st = .accepted || (d.entry i).st = .staged))

/-- Pending tables of a stream become active, with the phases, the status map and the shift in force (R302, R320, R324, R357,
R362). -/
def Dev.adopt (s : Nat) (d : Dev) : Dev :=
  let n := d.nst s
  let d := d.modSst s (fun x => { x with
    tone := match x.tonePend with | some t => some t | none => x.tone,
    tonePend := none, density := x.densityPend.getD x.density, densityPend := none,
    curCross := x.phaseCross, curWeb := x.phaseWeb, curStatus := n.statusNext, curShift := n.shiftScreen })
  forL n.ports (fun p d => d.modDropMap p.port (fun m =>
    match m.pend with | some (a, b) => { m with normal := a, reduced := b, pend := none } | none => m)) d

/-- The moment before the first line of an attempt is screened (R288, R320, R298, R517): tables are adopted and the attempt's
degradations are chosen. -/
def Dev.attemptBoundary (s : Nat) (d : Dev) : Dev :=
  if (d.sst s).cur.isSome then d
  else
    match d.nextAttempt s with
    | none => d
    | some i =>
      let d := d.adopt s
      let g := d.chooseSet (d.entry i)
      let d := d.modEntry i (fun e => { e with
        degThresh := g.thresh, degReduce := g.reduce, shedFallback := false, lines := [],
        carry := List.replicate (d.nst s).width 0 })
      d.modSst s (fun x => { x with
        cur := some i, degraded := if g.thresh || g.reduce then satInc 32 x.degraded else x.degraded })

/-- ATTEMPT_BOUNDARY (R320). -/
def execAttemptBoundary (st : Nat) : State → Host.Outcome State Fault Refusal := inDomain 5 (Dev.attemptBoundary st)

/-! ## Lanes -/

/-- SCR_CAPACITY_UPDATE (R887): the measured rates; a stream with no lanes reads 0. A raised V_floor that the regulator has
confirmed is measured there, which ends the hold of R534. -/
def Dev.capacityUpdate (s diff thresh : Nat) (d : Dev) : Dev :=
  let on := !(d.lanes s = 0)
  let c := d.sched
  let d := if c.needV ≤ c.confirmed && !c.avsFail then { d with sched := { c with needV := 0, needFrom := 0 } } else d
  d.modSst s (fun x => { x with
    capDiff := if on then diff % 2 ^ 16 else 0, capThresh := if on then thresh % 2 ^ 16 else 0 })

/-- SCR_CAPACITY_UPDATE (R887). -/
def execScrCapacityUpdate (st diffusion threshold : Nat) : State → Host.Outcome State Fault Refusal :=
  inDomain 5 (Dev.capacityUpdate st diffusion threshold)

/-- Is a new lane map refused (R337, R721)? -/
def Dev.laneMapRefused (d : Dev) (v : Nat) : Bool :=
  let old (g : Nat) : Nat := bits d.scr.laneMap (3 * g) 3
  let new (g : Nat) : Nat := bits v (3 * g) 3
  let busy (s : Nat) : Bool := decide (s < 4) && (d.sst s).cur.isSome
  (List.range 8).any (fun g =>
    decide (4 < new g) || (!(old g = new g) && (busy (old g) || busy (new g))) ||
    (!(new g = 4) && !d.on (if g < 4 then 2 else 3)) || (!(new g = 4) && !d.atHome 7))

/-- A write of SCR_LANE_MAP (R336, R337). -/
def Dev.writeLaneMap (v : Nat) (d : Dev) : Dev :=
  { d with scr := if d.laneMapRefused v then { d.scr with laneMapRefused := true } else { d.scr with laneMap := v % 2 ^ 24 } }

/-- SCR_LANE_MAP_WRITE (R337). -/
def execScrLaneMapWrite (value : BitVec 32) : State → Host.Outcome State Fault Refusal :=
  inDomain 1 (Dev.writeLaneMap value.toNat)

/-! ## Sets in use -/

/-- Is an entry's imprint neither PRINTED nor CANCELLED (R45)? -/
def Entry.live (e : Entry) : Bool := e.st = .accepted || e.st = .staged || e.st = .committed || e.st = .firing

/-- Imprints neither PRINTED nor CANCELLED that name a set under a SCREEN_MODE (R325). -/
def Dev.setRefs (d : Dev) (mode set : Nat) : Nat :=
  (d.imp.entries.filter (fun e => e.2.live && e.2.desc.mode = mode && e.2.desc.set = set)).length

/-- Is a diffusion set in use (R325)? -/
def Dev.diffInUse (d : Dev) (k : Nat) : Bool := !(d.setRefs 2 k = 0)

/-- Is a threshold set in use (R325)? -/
def Dev.threshInUse (d : Dev) (k : Nat) : Bool :=
  !(d.setRefs 1 k = 0) || (List.range 16).any (fun j => (d.diffSet j).loaded && (d.diffSet j).fallback = k && d.diffInUse j)

/-! ## Table loads -/

/-- Checks of SCR_LOAD_TONE (R333). -/
def chkScrLoadTone (p : Packet) (d : Dev) : Option Status :=
  d.loadChecks 16 p (d.prefixRows 16 p [(8, 0, 64)] ++ d.sizeRows 16 p 512)
    (fun b => [((words16 b).any (fun w => decide (4096 ≤ w)), .malformed)])

/-- SCR_LOAD_TONE (R320, R330). -/
def runScrLoadTone (p : Packet) (d : Dev) : Dev :=
  (d.modSst p.target (fun x => { x with tonePend := some (words16 (d.tableBytes 16 p)) })).complete p.ref .done 0 0

/-- SCR_LOAD_TONE (R330). -/
def execScrLoadTone (r seq : Nat) : State → Host.Outcome State Fault Refusal :=
  opRow 0x0400 chkScrLoadTone (onPkt runScrLoadTone) r seq

/-- Checks of SCR_LOAD_DENSITY (R333, R330). -/
def chkScrLoadDensity (p : Packet) (d : Dev) : Option Status :=
  let first := p.fld 8 0 32
  let count := p.fld 12 0 32
  d.loadChecks 16 p (p.prefixForm 16 prefixResv ++
    [(count = 0 && decide (65535 < first), .badField), (count = 0, .doneEmpty)] ++ d.objectRows p ++
    d.sizeRows 16 p (4 * count) ++ [(decide (65536 < first + count), .badField)])
    (fun b => [((words16 b).any (fun w => decide (4096 ≤ w)), .malformed)])

/-- SCR_LOAD_DENSITY (R295, R320, R322). -/
def runScrLoadDensity (p : Packet) (d : Dev) : Dev :=
  let w := words16 (d.tableBytes 16 p)
  let es : List Density := (List.range (p.fld 12 0 32)).map (fun i =>
    { gain := w.getD (2 * i) 0, offset := sInt 12 (w.getD (2 * i + 1) 0) })
  (d.modSst p.target (fun x => { x with
    densityPend := some ((es.zipIdx (p.fld 8 0 32)).foldl (fun t e => Tab.set e.2 e.1 t) (x.densityPend.getD x.density)) })
  ).complete p.ref .done 0 0

/-- SCR_LOAD_DENSITY (R322). -/
def execScrLoadDensity (r seq : Nat) : State → Host.Outcome State Fault Refusal :=
  opRow 0x0401 chkScrLoadDensity (onPkt runScrLoadDensity) r seq

/-- Cells of a threshold set's data: the seven thresholds of each 8 bytes (R301). -/
def cellsOf (b : List Nat) : List (List Nat) := (List.range (b.length / 8)).map (fun i => (b.drop (8 * i)).take 7)

/-- Checks of SCR_LOAD_THRESH (R333, R721). -/
def chkScrLoadThresh (p : Packet) (d : Dev) : Option Status :=
  let w := p.fld 8 0 16
  let h := p.fld 10 0 16
  d.loadChecks 16 p (d.prefixRows 16 p [(12, 0, 32)] ++ [(w = 0 || 256 < w || h = 0 || 256 < h, .badField)] ++
    d.sizeRows 16 p (8 * w * h) ++ [(d.threshInUse p.target, .busy), (!d.atHome (3 + p.target / 4), .noResource)])
    (fun b => [((List.range (b.length / 8)).any (fun i => !(b.getD (8 * i + 7) 0 = 0)), .malformed)])

/-- SCR_LOAD_THRESH (R301). -/
def runScrLoadThresh (p : Packet) (d : Dev) : Dev :=
  (d.modThresh p.target (fun _ => { width := p.fld 8 0 16, height := p.fld 10 0 16, cells := cellsOf (d.tableBytes 16 p) })
  ).complete p.ref .done 0 0

/-- SCR_LOAD_THRESH (R333). -/
def execScrLoadThresh (r seq : Nat) : State → Host.Outcome State Fault Refusal :=
  opRow 0x0402 chkScrLoadThresh (onPkt runScrLoadThresh) r seq

/-- Byte i of a payload. -/
def Packet.byte (p : Packet) (i : Nat) : Nat := p.fld i 0 8

/-- LEVEL_VALUE[k] of SCR_SET_DIFFUSION. -/
def Packet.levelValue (p : Packet) (k : Nat) : Nat := p.fld (12 + 2 * k) 0 12

/-- Do five weights from byte i break R305? -/
def kernelBad (p : Packet) (i : Nat) : Bool :=
  (List.range 5).any (fun k => decide (16 < p.byte (i + k))) || !(((List.range 5).map (fun k => p.byte (i + k))).sum = 16)

/-- Do MAX_LEVEL and LEVEL_VALUE break R305? -/
def levelsBad (p : Packet) : Bool :=
  let m := p.fld 10 0 3
  m = 0 || !(p.levelValue 0 = 0) || (List.range m).any (fun k => decide (p.levelValue (k + 1) ≤ p.levelValue k)) ||
  (List.range 8).any (fun k => decide (m < k) && !(p.levelValue k = 0))

/-- Checks of SCR_SET_DIFFUSION (R333). -/
def chkScrSetDiffusion (p : Packet) (d : Dev) : Option Status :=
  firstFail
    [(!p.resvOk ([(10, 3, 5), (11, 4, 4)] ++ (List.range 8).map (fun k => (12 + 2 * k, 12, 4))), .malformed),
     (kernelBad p 0 || kernelBad p 5 || !(p.byte 8 = 0) || levelsBad p, .badField),
     ((d.thresh (p.fld 11 0 4)).width = 0, .badField),
     (d.diffInUse p.target, .busy)]

/-- SCR_SET_DIFFUSION (R305, R331). -/
def runScrSetDiffusion (p : Packet) (d : Dev) : Dev :=
  (d.modDiffSet p.target (fun _ => {
    loaded := true, kernel := (List.range 5).map p.byte, dead := (List.range 5).map (fun k => p.byte (5 + k)),
    maxLevel := p.fld 10 0 3, fallback := p.fld 11 0 4, values := (List.range 8).map p.levelValue })).complete p.ref .done 0 0

/-- SCR_SET_DIFFUSION (R331). -/
def execScrSetDiffusion (r seq : Nat) : State → Host.Outcome State Fault Refusal :=
  opRow 0x0403 chkScrSetDiffusion (onPkt runScrSetDiffusion) r seq

/-- A map of SCR_LOAD_DROPMAP from a byte (R332). -/
def Packet.mapAt (p : Packet) (i : Nat) : List Nat := (List.range 8).map (fun k => p.fld i (3 * k) 3)

/-- Does a map break R317 on a port? -/
def Dev.mapBad (d : Dev) (port : Nat) (m : List Nat) : Bool :=
  !(m.getD 0 0 = 0) || ((d.hp port).st = .up && m.any (fun l => decide (d.levelsOf port ≤ l)))

/-- Checks of SCR_LOAD_DROPMAP (R333). -/
def chkScrLoadDropmap (p : Packet) (d : Dev) : Option Status :=
  firstFail
    [(!p.resvOk [(3, 0, 8), (7, 0, 8)], .malformed),
     (d.mapBad p.target (p.mapAt 0) || d.mapBad p.target (p.mapAt 4), .badField)]

/-- SCR_LOAD_DROPMAP: pending maps, or active ones on a port of no stream (R320, R323). -/
def runScrLoadDropmap (p : Packet) (d : Dev) : Dev :=
  (d.modDropMap p.target (fun m =>
    if (d.streamOf p.target).isSome then { m with pend := some (p.mapAt 0, p.mapAt 4) }
    else { m with normal := p.mapAt 0, reduced := p.mapAt 4 })).complete p.ref .done 0 0

/-- SCR_LOAD_DROPMAP (R332). -/
def execScrLoadDropmap (r seq : Nat) : State → Host.Outcome State Fault Refusal :=
  opRow 0x0404 chkScrLoadDropmap (onPkt runScrLoadDropmap) r seq

/-! ## Function reset -/

/-- Screened lines of every uncommitted attempt of stream s are discarded; a STAGED imprint keeps its state and is staged again
before it commits (R334, R45, R259). -/
def Dev.discardScreened (s : Nat) (d : Dev) : Dev :=
  let d := forL (d.ist s).queue (fun i d => d.modEntry i (fun e =>
    if e.onWeb then e else { e with lines := [], carry := [], staged := false })) d
  d.modSst s (fun x => { x with cur := none })

/-- Checks of SCR_REINIT. -/
def chkScrReinit (_ : Packet) (_ : Dev) : Option Status := none

/-- SCR_REINIT (R334). -/
def runScrReinit (p : Packet) (d : Dev) : Dev :=
  ((d.spoilAll p.target 0x0B).discardScreened p.target).complete p.ref .done 0 0

/-- SCR_REINIT (R334). -/
def execScrReinit (r seq : Nat) : State → Host.Outcome State Fault Refusal :=
  opRow 0x04FF chkScrReinit (onPkt runScrReinit) r seq

end Sys2Proof.Machine
end

