-- ==== Sys2Proof/Machine/Windows.lean ====
section
/-! DEFINITION. The table windows of BAR2 (R878 to R884): the byte at an offset, and the words of a HOST bank that may be
written. -/

namespace Sys2Proof.Machine

/-- Do the words of bank n belong to the host (R717, R881)? A handover in progress takes them from both owners (R719). -/
def Dev.hostBank (d : Dev) (n : Nat) : Bool := (d.bank n).owner = 2 && !(d.bank n).busy

/-- Byte i of a list of little-endian 16-bit entries. -/
def byteOf16 (f : Nat → Nat) (i : Nat) : Nat := bits (f (i / 2)) (8 * (i % 2)) 8

/-- The 28 bytes of a diffusion set (R331). -/
def Diff.bytes (f : Diff) : List Nat :=
  if f.loaded then
    (List.range 5).map (fun k => f.kernel.getD k 0) ++ (List.range 5).map (fun k => f.dead.getD k 0) ++
    [f.maxLevel, f.fallback] ++ (List.range 8).flatMap (fun k => leBytes 2 (f.values.getD k 0))
  else []

/-- The 8 bytes of a takeover table (R359). -/
def takeoverBytes (t : List Nat) : List Nat :=
  leBytes 3 (((List.range 8).map (fun k => t.getD k 0 * 2 ^ (3 * k))).sum) ++ [t.getD 8 0] ++ leBytes 4 (t.getD 9 0)

/-- A fault log entry's 8 bytes (R816). -/
def LogEntry.bytes (e : LogEntry) : List Nat := leBytes 6 e.timeUs ++ [e.source, e.kind]

/-- A byte of a nozzle status map in the layout of R354. -/
def statusByte (m : Tab Nat) (i : Nat) : Nat := ((List.range 4).map (fun k => Tab.get 0 m (4 * i + k) * 4 ^ k)).sum

/-- An entry of a density table as a 32-bit word (R295). -/
def Density.word (e : Density) : Nat := e.gain + twos 12 e.offset * 2 ^ 16

/-- The byte at a BAR2 offset; none at a reserved offset (R879 to R881). -/
def Dev.tableByte (d : Dev) (sram : Memory) (o : Nat) : Option Nat :=
  let in_ (base size units : Nat) : Bool := decide (base ≤ o) && decide (o < base + size * units)
  let unit (base size : Nat) : Nat := (o - base) / size
  let off (base size : Nat) : Nat := (o - base) % size
  if in_ 0 0x200000 12 then some (if d.hostBank (o / 0x200000) then (sram.read 0 o).toNat else 0)
  else if in_ 0x2000000 0x80000 16 then
    let i := off 0x2000000 0x80000
    some (((d.thresh (unit 0x2000000 0x80000)).cells.getD (i / 8) []).getD (i % 8) 0)
  else if in_ 0x2800000 0x1000 4 then
    let x := d.sst (unit 0x2800000 0x1000)
    let i := off 0x2800000 0x1000
    let act (m : Nat) : Nat := x.toneAt m
    let pend (m : Nat) : Nat := match x.tonePend with | some l => l.getD m 0 | none => act m
    some (if i < 512 then byteOf16 act i else if 0x800 ≤ i && i < 0x800 + 512 then byteOf16 pend (i - 0x800) else 0)
  else if in_ 0x3000000 0x80000 4 then
    let x := d.sst (unit 0x3000000 0x80000)
    let i := off 0x3000000 0x80000
    let t := if i < 0x40000 then x.density else x.densityPend.getD x.density
    some (bits (Tab.get Density.reset t (i % 0x40000 / 4)).word (8 * (i % 4)) 8)
  else if in_ 0x3400000 0x8000 4 then
    let x := d.nst (unit 0x3400000 0x8000)
    let i := off 0x3400000 0x8000
    some (statusByte (if i < 0x4000 then x.status else x.statusPend.getD x.status) (i % 0x4000))
  else if in_ 0x3600000 0x2000 16 then
    some (byteOf16 (fun k => Tab.get 0 (d.nport (unit 0x3600000 0x2000)).z k) (off 0x3600000 0x2000))
  else if in_ 0x3800000 0x4000 16 then
    let i := off 0x3800000 0x4000
    let w := Tab.get Wave.reset (d.hp (unit 0x3800000 0x4000)).slots (i / 0x800)
    some (byteOf16 (fun k => w.samples.getD k 0) (i % 0x800))
  else if in_ 0x3C00000 0x40 16 then some ((d.diffSet (unit 0x3C00000 0x40)).bytes.getD (off 0x3C00000 0x40) 0)
  else if in_ 0x3C01000 8 4 then some ((takeoverBytes (d.nst (unit 0x3C01000 8)).takeover).getD (off 0x3C01000 8) 0)
  else if in_ 0x3E00000 0x800 1 then
    let i := off 0x3E00000 0x800
    some (match d.flt.log[i / 8]? with | some e => e.bytes.getD (i % 8) 0 | none => 0)
  else none

/-- The n bytes from a BAR2 offset; reserved offsets read 0 (R879). -/
def State.tableRead (s : State) (o n : Nat) : List Nat :=
  (List.range n).map (fun i => (s.dev.tableByte s.mem.sram (o + i)).getD 0)

/-- Bytes are written at a BAR2 offset into a HOST bank; elsewhere, and beyond the last bank, the write is discarded
(R879, R881). -/
def State.tableWrite (s : State) (o : Nat) (b : List Nat) : State :=
  if o < 12 * 0x200000 && s.dev.hostBank (o / 0x200000) then
    { s with mem := { s.mem with
        sram := Memory.writeList 0 o ((b.take (12 * 0x200000 - o)).map (fun x => BitVec.ofNat 8 x)) s.mem.sram } }
  else s

/-- Banks that a range of BAR2 touches. -/
def banksOf (o n : Nat) : List Nat := (List.range 12).filter (fun k => decide (o < (k + 1) * 0x200000) && decide (k * 0x200000 < o + n))

/-- Does a non-empty range include a reserved offset (R882)? -/
def Dev.tableReserved (d : Dev) (o n : Nat) : Bool := (List.range n).any (fun i => (d.tableByte [] (o + i)).isNone)

/-- Does a range reach a bank that is not HOST (R881)? -/
def Dev.tableRefused (d : Dev) (o n : Nat) : Bool := (banksOf o n).any (fun k => !d.hostBank k)

/-- Is every byte of a range within the on-chip banks, the only windows that can be written (R879, R882)? -/
def tableWritable (o n : Nat) : Bool := decide (o + n ≤ 12 * 0x200000)

/-! ## Accesses from outside -/

/-- A write of BAR2: 4 or 8 bytes, naturally aligned, or discarded (R878). -/
def State.bar2Write (o : Nat) (b : List Nat) (s : State) : State :=
  if (b.length = 4 || b.length = 8) && o % b.length = 0 && s.dev.sys.stage = .operational then s.tableWrite o b else s

/-- BAR2_WRITE (R878, R879, R881). -/
def execBar2Write (offset : Nat) (bytes : List Nat) : State → Host.Outcome State Fault Refusal :=
  inDomainS 6 (State.bar2Write offset bytes)

/-- BAR2 offset of a word of the aperture (R875). -/
def Dev.apertureAt (d : Dev) (x : Nat) : Nat := d.sys.tableBase * 4096 + x % 4096

/-- A 32-bit write of the aperture (R875). -/
def State.apertureWrite (x : Nat) (v : Nat) (s : State) : State := s.bar2Write (s.dev.apertureAt x) (leBytes 4 v)

/-- A 32-bit read of the aperture (R875). -/
def State.apertureRead (x : Nat) (s : State) : Nat := leNat (s.tableRead (s.dev.apertureAt x / 4 * 4) 4)

/-- TABLE_APERTURE_ACCESS (R875): a read changes nothing (R867). -/
def execTableApertureAccess (x : Nat) (write : Option (BitVec 32)) : State → Host.Outcome State Fault Refusal :=
  inDomainS 0 (fun s => match write with
    | some v => if x % 4 = 0 then s.apertureWrite x v.toNat else s
    | none => s)

end Sys2Proof.Machine
end

