-- ==== Sys2Proof/Machine/Layout.lean ====
section
/-! DEFINITION. The layout of SDRAM (R694 to R699), and fresh values the spec leaves open. -/

namespace Sys2Proof.Machine

/-- MiB of SDRAM one rank holds (R694). -/
def Ddr.rankMiB (x : Ddr) : Nat := (if x.width = 0 then [8, 12, 16].getD x.density 16 else [4, 6, 8].getD x.density 8) * 1024

/-- Populated SDRAM, MiB (R694, R737). -/
def Ddr.totalMiB (x : Ddr) : Nat := x.channels * x.ranks * x.rankMiB

/-- Base of region r in MiB, in the order of R698; region 6 is the end of SDRAM. -/
def Ddr.base (x : Ddr) (r : Nat) : Nat :=
  match r with
  | 0 => 0
  | 1 => 256
  | 2 => 320
  | 3 => 1344
  | 4 => 1408
  | 5 => min x.totalMiB (1408 + 64 * x.longSize)
  | _ => x.totalMiB

/-- Region of an SDRAM address (R698). -/
def Ddr.regionOf (x : Ddr) (a : Nat) : Nat :=
  ((List.range 5).filter (fun r => decide (x.base (r + 1) * 2 ^ 20 ≤ a))).length

/-- Channel of an SDRAM address (R697). -/
def Ddr.channelOf (x : Ddr) (a : Nat) : Nat := if x.channels = 2 then a / 256 % 2 else 0

/-- Extents of the object store (R173, R698). -/
def Ddr.objectExtents (x : Ddr) : Nat := (x.totalMiB - x.base 5) * 16

/-- n bytes the spec leaves open, each a free value (log entry 5). -/
def Dev.freeBytes (n : Nat) (d : Dev) : List Nat × Dev :=
  ((List.range n).map (fun i => Config.freeValue (d.free + i) % 256), { d with free := d.free + n })

end Sys2Proof.Machine
end

