-- ==== Sys2Proof/Machine/Ingest.lean ====
section
/-! DEFINITION. Ingest objects and the STAGE commands on them (spec chapter 4, R173 to R185). -/

namespace Sys2Proof.Machine

/-- Bytes of an extent (R173). -/
def extentBytes : Nat := 65536

/-- Extents an open object holds: those of its capacity, or of its fill level once it is complete (R175, R178). -/
def Obj.extents (o : Obj) : Nat :=
  if !o.isOpen then 0 else ((if o.complete then o.data.length else o.cap) + 65535) / extentBytes

/-- Extents neither reserved nor used (R221). -/
def Dev.extentsFree (d : Dev) : Nat := d.ddr.objectExtents - (d.ing.objs.map (fun o => o.2.extents)).sum

/-- Open objects (R221). -/
def Dev.objsOpen (d : Dev) : Nat := (d.ing.objs.filter (fun o => o.2.isOpen)).length

/-- The next INDEX STAGE_OBJ_OPEN issues: the first free one after the last issued, in rotation (R174). -/
def Dev.nextIndex (d : Dev) : Option Nat :=
  ((List.range 65535).map (fun i => (d.ing.lastIndex + i) % 65535 + 1)).find? (fun i => !(d.obj i).isOpen)

/-- Does an imprint neither PRINTED nor CANCELLED name the handle (R180)? -/
def Dev.handleNamed (d : Dev) (h : Nat) : Bool :=
  d.imp.entries.any (fun e => e.2.live && e.2.desc.sources.any (fun s => s.handle = h))

/-- The object a payload's HANDLE at byte 0 names. -/
def Dev.objOf (d : Dev) (p : Packet) : Option Obj := (d.objIndex (p.fld 0 0 32)).map d.obj

/-- Checks of STAGE_OBJ_OPEN (R176, R180). -/
def chkStageObjOpen (p : Packet) (d : Dev) : Option Status :=
  let cap := p.fld 0 0 64
  firstFail
    [(!p.resvOk [(8, 2, 30), (12, 0, 32)], .malformed),
     (decide (2 ^ 36 < cap) || decide (1 < p.fld 8 0 2), .badField),
     (cap = 0, .doneEmpty),
     (decide (d.extentsFree < (cap + 65535) / extentBytes) || d.nextIndex.isNone, .noResource)]

/-- STAGE_OBJ_OPEN (R174, R176). -/
def runStageObjOpen (p : Packet) (d : Dev) : Dev :=
  match d.nextIndex with
  | none => d
  | some i =>
    let o := d.obj i
    let gen := if o.used then (o.gen + 1) % 2 ^ 16 else o.gen
    let d := d.modObj i (fun _ => { Obj.reset with isOpen := true, gen := gen, used := true, cap := p.fld 0 0 64, kind := p.fld 8 0 2 })
    ({ d with ing := { d.ing with lastIndex := i } }).complete p.ref .done (i + gen * 2 ^ 16) 0

/-- STAGE_OBJ_OPEN (R176). -/
def execStageObjOpen (r seq : Nat) : State → Host.Outcome State Fault Refusal :=
  opRow 0x0300 chkStageObjOpen (onPkt runStageObjOpen) r seq

/-- Checks of STAGE_OBJ_APPEND (R180, R181). -/
def chkStageObjAppend (p : Packet) (d : Dev) : Option Status :=
  let n := p.payload.length - 16
  match d.objOf p with
  | none => firstFail [(!p.resvOk [(4, 0, 32)], .malformed), (true, .unknownId)]
  | some o =>
    firstFail
      [(!p.resvOk [(4, 0, 32)], .malformed),
       (o.complete || o.writing, .busy),
       (!(p.fld 8 0 64 = o.data.length), .badField),
       (decide (o.cap < p.fld 8 0 64 + n), .badLength),
       (n = 0, .doneEmpty)]

/-- STAGE_OBJ_APPEND (R177, R182). -/
def runStageObjAppend (p : Packet) (d : Dev) : Dev :=
  match d.objIndex (p.fld 0 0 32) with
  | none => d
  | some i => (d.modObj i (fun o => { o with data := o.data ++ p.payload.drop 16 })).complete p.ref .done 0 0

/-- STAGE_OBJ_APPEND (R180). -/
def execStageObjAppend (r seq : Nat) : State → Host.Outcome State Fault Refusal :=
  opRow 0x0301 chkStageObjAppend (onPkt runStageObjAppend) r seq

/-- Checks of STAGE_OBJ_CLOSE (R180). -/
def chkStageObjClose (p : Packet) (d : Dev) : Option Status :=
  match d.objOf p with
  | none => firstFail [(!p.resvOk [(4, 0, 32)], .malformed), (true, .unknownId)]
  | some o =>
    firstFail
      [(!p.resvOk [(4, 0, 32)], .malformed), (o.complete || o.writing, .busy), (!(p.fld 8 0 64 = o.data.length), .badLength)]

/-- STAGE_OBJ_CLOSE (R178). -/
def runStageObjClose (p : Packet) (d : Dev) : Dev :=
  match d.objIndex (p.fld 0 0 32) with
  | none => d
  | some i => (d.modObj i (fun o => { o with complete := true })).complete p.ref .done 0 0

/-- STAGE_OBJ_CLOSE (R178). -/
def execStageObjClose (r seq : Nat) : State → Host.Outcome State Fault Refusal :=
  opRow 0x0302 chkStageObjClose (onPkt runStageObjClose) r seq

/-- Checks of STAGE_OBJ_FREE (R180). -/
def chkStageObjFree (p : Packet) (d : Dev) : Option Status :=
  match d.objOf p with
  | none => firstFail [(!p.resvOk [(4, 0, 32)], .malformed), (true, .unknownId)]
  | some o =>
    firstFail
      [(!p.resvOk [(4, 0, 32)], .malformed), (o.writing || !(o.readers = 0) || d.handleNamed (p.fld 0 0 32), .busy)]

/-- STAGE_OBJ_FREE (R179): the index keeps its GEN. -/
def runStageObjFree (p : Packet) (d : Dev) : Dev :=
  match d.objIndex (p.fld 0 0 32) with
  | none => d
  | some i => (d.modObj i (fun o => { Obj.reset with gen := o.gen, used := o.used })).complete p.ref .done 0 0

/-- STAGE_OBJ_FREE (R179). -/
def execStageObjFree (r seq : Nat) : State → Host.Outcome State Fault Refusal :=
  opRow 0x0303 chkStageObjFree (onPkt runStageObjFree) r seq

end Sys2Proof.Machine
end

