-- ==== Sys2Proof/Machine/Dma.lean ====
section
/-! DEFINITION. The DMA engine (spec chapter 4, R193 to R221): descriptors, the shadow and active sets, transfers, errors and
aborts. -/

namespace Sys2Proof.Machine

/-! ## Descriptors -/

/-- A field of the descriptor in a set of twelve registers (R196, R218). -/
def descFld (t : Tab Nat) (byte lo w : Nat) : Nat :=
  bits (((List.range 12).map (fun k => Tab.get 0 t k * 2 ^ (32 * k))).sum) (8 * byte + lo) w

/-- LENGTH of a descriptor. -/
def descLen (t : Tab Nat) : Nat := descFld t 16 0 40

/-- MODE of a descriptor: 0 COPY, 1 FILL, 2 COMPARE. -/
def descMode (t : Tab Nat) : Nat := descFld t 24 4 2

/-- SRC_SPACE. -/
def descSrc (t : Tab Nat) : Nat := descFld t 24 0 2

/-- DST_SPACE. -/
def descDst (t : Tab Nat) : Nat := descFld t 24 2 2

/-- A reserved field that is not zero (R196). -/
def descReserved (t : Tab Nat) : Bool :=
  !(descFld t 21 0 24 = 0) || !(descFld t 24 6 26 = 0) || !(descFld t 36 0 32 = 0)

/-- A table range outside the windows, misaligned, or not a multiple of 8; for a destination also one in a window that is read
only (R199, R882). -/
def Dev.rangeBad (d : Dev) (a n : Nat) (dst : Bool) : Bool :=
  !(a % 8 = 0) || !(n % 8 = 0) || decide (2 ^ 28 < a + n) || d.tableReserved a n || (dst && !tableWritable a n)

/-- The checks of a descriptor with non-zero LENGTH (R199, R881, R882). -/
def Dev.descCheck (d : Dev) (t : Tab Nat) : Option Status :=
  let n := descLen t
  let m := descMode t
  let src := descSrc t
  let dst := descDst t
  let sa := descFld t 0 0 64
  let da := descFld t 8 0 64
  let sh := descFld t 28 0 32
  let dh := descFld t 32 0 32
  let reads := !(m = 1)
  let writes := !(m = 2)
  let so := (d.objIndex sh).map d.obj
  let dob := (d.objIndex dh).map d.obj
  firstFail
    [(src = 3 || dst = 3 || m = 3 || (m = 1 && (!(sa = 0) || !(src = 0))) || (!(src = 1) && !(sh = 0)) ||
        (!(dst = 1) && !(dh = 0)) || (!(m = 1) && !(descFld t 40 0 64 = 0)) || (m = 2 && dst = 2), .badField),
     ((src = 1 && so.isNone) || (dst = 1 && dob.isNone), .unknownId),
     (src = 1 && so.any (fun o => decide (o.data.length < sa + n)), .badLength),
     (dst = 1 && writes && dob.any (fun o => !(da = o.data.length) || decide (o.cap < da + n)), .badLength),
     (dst = 1 && writes && dob.any (fun o => o.complete || o.writing), .busy),
     ((src = 2 && d.rangeBad sa n false) || (dst = 2 && d.rangeBad da n true), .badField),
     ((reads && src = 0 && decide (2 ^ 64 < sa + n)) || (dst = 0 && decide (2 ^ 64 < da + n)), .badField),
     ((src = 2 && d.tableRefused sa n) || (dst = 2 && d.tableRefused da n), .refused)]

/-! ## Objects a transfer holds -/

/-- The object the transfer writes. -/
def Dev.dmaWrites (d : Dev) (t : Tab Nat) : Option Nat :=
  if descDst t = 1 && !(descMode t = 2) then d.objIndex (descFld t 32 0 32) else none

/-- The objects the transfer reads. -/
def Dev.dmaReads (d : Dev) (t : Tab Nat) : List Nat :=
  (if descSrc t = 1 then (d.objIndex (descFld t 28 0 32)).toList else []) ++
  (if descDst t = 1 && descMode t = 2 then (d.objIndex (descFld t 32 0 32)).toList else [])

/-- A transfer takes or leaves its objects (R180). -/
def Dev.dmaHold (t : Tab Nat) (take : Bool) (d : Dev) : Dev :=
  let w := d.dmaWrites t
  let r := d.dmaReads t
  let d := match w with | some i => d.modObj i (fun o => { o with writing := take }) | none => d
  forL r (fun i d => d.modObj i (fun o => { o with readers := if take then o.readers + 1 else o.readers - 1 })) d

/-! ## Starting -/

/-- The status of R199 as LAST_RESULT of a channel: a failed check moves nothing (R199, R207). -/
def Dev.dmaStart (c : Nat) (d : Dev) : Dev :=
  let x := d.chan c
  let t := x.shadow
  let d := d.modChan c (fun x => { x with act := t, armed := false, actRef := x.shadowRef, shadowRef := none })
  match (if x.shadowRef.isNone && descReserved t then some Status.badField else d.descCheck t) with
  | some st =>
    let d := d.modChan c (fun y => { y with
      st := .idle, actRef := none, lastResult := if x.shadowRef.isNone then 5 else y.lastResult })
    d.complete? x.shadowRef st 0 0
  | none => (d.modChan c (fun y => { y with st := .running })).dmaHold t true

/-- GO, by register or command: the shadow set is armed, and an idle channel starts it (R203). -/
def Dev.dmaGo (c : Nat) (d : Dev) : Dev :=
  let d := d.modChan c (fun x => { x with armed := true })
  d.when ((d.chan c).st = .idle) (Dev.dmaStart c)

/-! ## Ending -/

/-- The bytes of FILL (R200). -/
def fillBytes (pattern n : Nat) : List Nat := (List.range n).map (fun i => bits pattern (8 * (i % 8)) 8)

/-- The source bytes of a transfer; host bytes come from outside. -/
def State.dmaSource (s : State) (t : Tab Nat) (host : List Nat) (n : Nat) : List Nat :=
  let a := descFld t 0 0 64
  if descMode t = 1 then fillBytes (descFld t 40 0 64) n
  else match descSrc t with
    | 0 => host.take n
    | 1 => match s.dev.objIndex (descFld t 28 0 32) with
      | some i => ((s.dev.obj i).data.drop a).take n
      | none => []
    | _ => s.tableRead a n

/-- Destination bytes below the end of the transfer are written; an object's fill level moves only when the transfer completes
(R182, R198, R202, R217). -/
def State.dmaWrite (s : State) (t : Tab Nat) (b : List Nat) (whole : Bool) : State :=
  let a := descFld t 8 0 64
  match descDst t with
  | 0 => if b.isEmpty then s else s.onDev (Dev.send (.hostWrite a b))
  | 1 =>
    match s.dev.objIndex (descFld t 32 0 32) with
    | some i => if whole then s.onDev (Dev.modObj i (fun o => { o with data := o.data ++ b })) else s
    | none => s
  | _ => s.tableWrite a b

/-- The active transfer of a channel ends: its objects are free, DMA_DONE is set and the command, where there is one,
completes (R208, R209, R221). -/
def Dev.dmaEnd (c result residue : Nat) (st : Status) (res aux : Nat) (halt : Bool) (d : Dev) : Dev :=
  let x := d.chan c
  let d := d.dmaHold x.act false
  let d := d.modChan c (fun x => { x with
    st := if halt then .halted else .idle, lastResult := result, residue := residue, actRef := none })
  let d := { d with ing := { d.ing with dmaDone := d.ing.dmaDone ||| 2 ^ c } }
  d.complete? x.actRef st res aux

/-- After DONE an armed shadow set starts (R203). -/
def Dev.dmaNext (c : Nat) (d : Dev) : Dev := d.when (d.chan c).armed (Dev.dmaStart c)

/-- Index of the first byte in which two strings differ. -/
def firstDiff : List Nat → List Nat → Nat → Option Nat
  | a :: x, b :: y, k => if a = b then firstDiff x y (k + 1) else some k
  | _, _, _ => none

/-- The bytes a COMPARE reads at its destination; those of an object above its fill level are free values. -/
def State.dmaOther (s : State) (t : Tab Nat) (host : List Nat) (n : Nat) : List Nat × State :=
  let a := descFld t 8 0 64
  if descDst t = 0 then (host.take n, s)
  else match s.dev.objIndex (descFld t 32 0 32) with
    | some i =>
      let own := ((s.dev.obj i).data.drop a).take n
      let f := s.dev.freeBytes (n - own.length)
      (own ++ f.1, { s with dev := f.2 })
    | none => ([], s)

/-- The active transfer of channel c reaches its last byte, with the host bytes it read (R200 to R203). An event whose host
bytes do not fill the transfer is none of its ends. -/
def State.dmaFinish (c : Nat) (moved other : List Nat) (s : State) : State :=
  let x := s.dev.chan c
  let t := x.act
  let n := descLen t
  let src := s.dmaSource t moved n
  if !(x.st = .running) || !(src.length = n) then s
  else if descMode t = 2 then
    let o := s.dmaOther t other n
    let s := o.2
    if !(o.1.length = n) then s
    else match firstDiff src o.1 0 with
      | some k => s.onDev (fun d => (d.modChan c (fun x => { x with cmpOffset := k })).dmaEnd c 3 (n - k) .compareMismatch k 0 false)
      | none => s.onDev (fun d => (d.dmaEnd c 0 0 .done n 0 false).dmaNext c)
  else if descDst t = 2 && s.dev.tableRefused (descFld t 8 0 64) n then s
  else (s.dmaWrite t src true).onDev (fun d => (d.dmaEnd c 0 0 .done n 0 false).dmaNext c)

/-- DMA_TRANSFER_END (R202). -/
def execDmaTransferEnd (c : Nat) (moved other : List Nat) : State → Host.Outcome State Fault Refusal :=
  inDomainS 4 (State.dmaFinish c moved other)

/-! ## Errors -/

/-- The command status of an error kind (R211). -/
def busStatus (kind : Nat) (dir : Bool) : Status :=
  if kind = 1 || kind = 2 then (if dir then .writeError else .fetchError)
  else if kind = 5 then .eccUncorrectable else if kind = 6 then .writeError else .fetchError

/-- A request of a running transfer fails after the bytes moved: the channel halts and latches the error (R211, R212). -/
def State.dmaFail (c kind : Nat) (dir : Bool) (addr : Nat) (moved : List Nat) (s : State) : State :=
  let x := s.dev.chan c
  let t := x.act
  let n := descLen t
  let k := min moved.length n
  if !(x.st = .running) || kind = 0 || 6 < kind then s
  else
    let s := if descMode t = 2 then s else s.dmaWrite t (s.dmaSource t moved k) false
    s.onDev (fun d =>
      let d := d.modChan c (fun x => { x with
        errAddr := addr % 2 ^ 64, errDir := dir, errSpace := if dir then descDst t else descSrc t, errKind := kind })
      (d.dmaEnd c 4 (n - k) (busStatus kind dir) (addr % 2 ^ 64) kind true).raise 83 c)

/-- DMA_BUS_ERROR (R211). -/
def execDmaBusError (c kind : Nat) (dir : Bool) (addr : Nat) (moved : List Nat) : State → Host.Outcome State Fault Refusal :=
  inDomainS 4 (State.dmaFail c kind dir addr moved)

/-! ## Abort and clear -/

/-- An armed shadow set is discarded; its command completes with ABORTED (R213, R214). -/
def Dev.dmaDrop (c : Nat) (d : Dev) : Dev :=
  let x := d.chan c
  if !x.armed then d
  else (d.modChan c (fun x => { x with armed := false, shadowRef := none, shadowDropped := true })).complete? x.shadowRef .aborted 0 0

/-- The running transfer of channel c is aborted after a number of bytes the spec does not give: 0 to LENGTH - 1, a free
value; those bytes have moved (R202, R214, R217). -/
def State.dmaStop (c : Nat) (s : State) : State :=
  let x := s.dev.chan c
  let t := x.act
  let n := descLen t
  if !(x.st = .running) then s
  else
    let f := s.dev.takeFree
    let k := f.1 % n
    let h := f.2.freeBytes k
    let s := { s with dev := h.2 }
    let s := if descMode t = 2 then s else s.dmaWrite t (s.dmaSource t h.1 k) false
    s.onDev (Dev.dmaEnd c 2 (n - k) .aborted k 0 false)

/-- An abort of channel c (R214, R215). -/
def State.dmaAbort (c : Nat) (s : State) : State := (s.dmaStop c).onDev (Dev.dmaDrop c)

/-- CLEAR on channel c: a halted channel becomes idle, an armed shadow set left over is discarded (R204, R213). -/
def Dev.dmaClear (c : Nat) (d : Dev) : Dev :=
  if (d.chan c).st = .running then d
  else
    let halted := (d.chan c).st = .halted
    let d := d.dmaDrop c
    d.when halted (Dev.modChan c (fun x => { x with
      st := .idle, errAddr := 0, errDir := false, errSpace := 0, errKind := 0 }))

/-! ## The control register -/

/-- WRITE_IGNORED (R194, R195, R205). -/
def Dev.dmaIgnored (c : Nat) (d : Dev) : Dev := d.modChan c (fun x => { x with writeIgnored := true })

/-- A write of OWNER that changes it (R195). -/
def Dev.dmaOwner (c : Nat) (v : Bool) (d : Dev) : Dev :=
  let x := d.chan c
  if x.owner = v then d
  else if !(x.st = .idle) || x.armed then d.dmaIgnored c
  else d.modChan c (fun x => { x with owner := v })

/-- GO by register (R194, R203, R205, R207). -/
def Dev.dmaGoReg (c : Nat) (d : Dev) : Dev :=
  let x := d.chan c
  if x.owner || x.st = .halted || x.armed then d.dmaIgnored c
  else if descLen x.shadow = 0 then
    { d.modChan c (fun x => { x with lastResult := 1 }) with ing := { d.ing with
        chans := (d.modChan c (fun x => { x with lastResult := 1 })).ing.chans, dmaDone := d.ing.dmaDone ||| 2 ^ c } }
  else d.dmaGo c

/-- A write of DMA_CTRL: OWNER, CLEAR, ABORT and GO in this order (R219); channels of the firmware discard it (R193). -/
def State.dmaCtrl (c v : Nat) (s : State) : State :=
  if 27 < c then s
  else
    let s := s.onDev (Dev.dmaOwner c (v.testBit 3))
    let s := if v.testBit 2 then s.onDev (Dev.dmaClear c) else s
    let s := if v.testBit 1 then (if (s.dev.chan c).owner then s.onDev (Dev.dmaIgnored c) else s.dmaAbort c) else s
    if v.testBit 0 then s.onDev (Dev.dmaGoReg c) else s

/-- DMA_GO (R203): a write of DMA_CTRL with GO. -/
def execDmaGo (c : Nat) (value : BitVec 32) : State → Host.Outcome State Fault Refusal :=
  inDomainS 4 (State.dmaCtrl c (value ||| 1).toNat)

/-- DMA_CTRL_ABORT (R214): a write of DMA_CTRL with ABORT. -/
def execDmaCtrlAbort (c : Nat) (value : BitVec 32) : State → Host.Outcome State Fault Refusal :=
  inDomainS 4 (State.dmaCtrl c (value ||| 2).toNat)

/-- DMA_CTRL_CLEAR (R213): a write of DMA_CTRL with CLEAR. -/
def execDmaCtrlClear (c : Nat) (value : BitVec 32) : State → Host.Outcome State Fault Refusal :=
  inDomainS 4 (State.dmaCtrl c (value ||| 4).toNat)

/-- A write of a shadow register (R205). -/
def Dev.dmaShadow (c k v : Nat) (d : Dev) : Dev :=
  if 27 < c then d
  else if (d.chan c).armed then d.dmaIgnored c
  else d.modChan c (fun x => { x with shadow := if v = 0 then Tab.erase k x.shadow else Tab.set k v x.shadow })

/-! ## The commands -/

/-- The twelve words of a descriptor payload. -/
def Packet.descWords (p : Packet) : Tab Nat :=
  (List.range 12).foldl (fun t k => let v := p.fld (4 * k) 0 32; if v = 0 then t else Tab.set k v t) []

/-- Checks of STAGE_DMA_START that come before its transfer (R194, R199, R206, R207). -/
def chkStageDmaStart (p : Packet) (d : Dev) : Option Status :=
  let x := d.chan p.target
  firstFail
    [(descReserved p.descWords, .malformed), (!x.owner, .refused), (descLen p.descWords = 0, .doneEmpty),
     (x.armed || x.st = .halted, .busy)]

/-- STAGE_DMA_START: a write of the shadow set followed by GO (R206, R208). -/
def runStageDmaStart (p : Packet) (d : Dev) : Dev :=
  let d := (d.executing p).modChan p.target (fun x => { x with shadow := p.descWords, shadowRef := some p.ref })
  d.dmaGo p.target

/-- STAGE_DMA_START (R206). -/
def execStageDmaStart (r seq : Nat) : State → Host.Outcome State Fault Refusal :=
  opRow 0x0304 chkStageDmaStart (onPkt runStageDmaStart) r seq

/-- Checks of STAGE_DMA_ABORT (R194). -/
def chkStageDmaAbort (p : Packet) (d : Dev) : Option Status := firstFail [(!(d.chan p.target).owner, .refused)]

/-- STAGE_DMA_ABORT (R216). -/
def runStageDmaAbort (p : Packet) (s : State) : State :=
  let x := s.dev.chan p.target
  let acts := x.st = .running || x.armed
  let s := s.dmaAbort p.target
  let res := if x.st = .running then (s.dev.chan p.target).residue else 0
  s.onDev (Dev.complete p.ref (if acts then .done else .doneEmpty) res 0)

/-- STAGE_DMA_ABORT (R216). -/
def execStageDmaAbort (r seq : Nat) : State → Host.Outcome State Fault Refusal :=
  opRow 0x0305 chkStageDmaAbort runStageDmaAbort r seq

/-- Checks of STAGE_REINIT. -/
def chkStageReinit (_ : Packet) (_ : Dev) : Option Status := none

/-- STAGE_REINIT: objects are kept, every channel stops as an abort (R185). -/
def runStageReinit (p : Packet) (s : State) : State :=
  ((List.range 32).foldl (fun s c => State.dmaAbort c s) s).onDev (Dev.complete p.ref .done 0 0)

/-- STAGE_REINIT (R185). -/
def execStageReinit (r seq : Nat) : State → Host.Outcome State Fault Refusal :=
  opRow 0x03FF chkStageReinit runStageReinit r seq

end Sys2Proof.Machine
end

