-- ==== Sys2Proof/Machine/Codec.lean ====
section
/-! DEFINITION. The Halale decodes of imprints and fired-dot capture commands (spec chapter 5). -/

namespace Sys2Proof.Machine

/-! ## Look-ahead decode -/

/-- A look-ahead error of source j of imprint i: latched unless a cause already is, and FLT_CODEC_DATA (R255, R256). The spec
gives no segment, block and offset for a failure of the container header: free values. -/
def Dev.codecError (i j : Nat) (f : HrcFail) (d : Dev) : Dev :=
  let e := d.entry i
  let src := e.desc.sources.getD j Source.reset
  let c := d.codec
  let d := if c.errValid then { d with codec := { c with errOverflow := true } }
    else
      let seg := f.line / segLines src.format
      let open_ := f.block.isNone
      let (v, d) := if open_ then d.takeFree else (0, d)
      let (w, d) := if open_ then d.takeFree else (0, d)
      let (x, d) := if open_ then d.takeFree else (0, d)
      { d with codec := { d.codec with
        errValid := true, errOverflow := c.errOverflow, errCause := f.cause.code, errStream := e.stream, errSource := j,
        errSegment := if open_ then v % 256 else seg, errBlock := if open_ then w % 2 ^ 32 else f.block.getD 0,
        errOffset := if open_ then x % 2 ^ 36 else f.offset, errId := e.desc.id, errHandle := src.handle } }
  (d.modEntry i (fun e => { e with decode := .failed })).raise 81 0

/-- Are all source objects of a descriptor complete (R183)? -/
def Dev.sourcesReady (d : Dev) (x : Desc) : Bool :=
  x.sources.all (fun s => match d.objIndex s.handle with | some k => (d.obj k).complete | none => false)

/-- The look-ahead decode of an accepted imprint starts once its objects are complete (R183, R257). -/
def Dev.lookaheadStart (i : Nat) (d : Dev) : Dev :=
  let e := d.entry i
  if e.st = .accepted && e.decode = .waiting && d.sourcesReady e.desc then d.modEntry i (fun e => { e with decode := .running })
  else d

/-- LOOKAHEAD_DECODE_START (R183). -/
def execLookaheadDecodeStart (index : Nat) : State → Host.Outcome State Fault Refusal := inDomain 4 (Dev.lookaheadStart index)

/-- The result of decoding source j of a descriptor: the records of its segments, or the failure (R223, R254). -/
def Dev.decodeOf (d : Dev) (x : Desc) (j : Nat) : Except HrcFail (List SegInfo) :=
  let src := x.sources.getD j Source.reset
  let data := match d.objIndex src.handle with | some k => (d.obj k).data | none => []
  (decodeSource data src.format ((d.nst x.stream).sourceWidth src.portMask) x.length).map (fun r => segInfos src.format r.1 r.2)

/-- The first source that fails, with its failure, or the records of every source. -/
def Dev.decodeAll (d : Dev) (x : Desc) : Except (Nat × HrcFail) (List (List SegInfo)) :=
  (List.range x.sources.length).foldl (fun acc j =>
    match acc with
    | .error e => .error e
    | .ok l => match d.decodeOf x j with
      | .ok r => .ok (l ++ [r])
      | .error f => .error (j, f)) (.ok [])

/-- The look-ahead decode of an imprint ends (R223, R255, R257). -/
def Dev.lookaheadEnd (i : Nat) (d : Dev) : Dev :=
  let e := d.entry i
  if !(e.decode = .running && e.live) then d
  else match d.decodeAll e.desc with
    | .ok l => d.modEntry i (fun e => { e with decode := .ok, segs := l })
    | .error (j, f) => d.codecError i j f

/-- LOOKAHEAD_DECODE_END (R223). -/
def execLookaheadDecodeEnd (index : Nat) : State → Host.Outcome State Fault Refusal := inDomain 4 (Dev.lookaheadEnd index)

/-! ## Staging decode -/

/-- A function reset of the codec: COMMITTED and FIRING imprints of every stream are spoiled, the others staged again (R258,
R259, R79). -/
def Dev.codecReset (d : Dev) : Dev := forN 4 (fun s d => (d.spoilAll s 0x0B).discardScreened s) d

/-- A staging decode finds an error: FLT_CODEC_STAGE and a function reset of the codec (R258). -/
def Dev.stagingFails (d : Dev) : Dev :=
  let d := { d with codec := { d.codec with stageErrs := satInc 32 d.codec.stageErrs } }
  (d.raise 82 0).codecReset

/-- STAGING_DECODE_END (R258): verified data decodes as before, so only an uncorrectable memory error fails. -/
def execStagingDecodeEnd (index _source _segment : Nat) (eccBad : Bool) : State → Host.Outcome State Fault Refusal :=
  inDomain 4 (fun d => if eccBad && (d.entry index).live && (d.entry index).decode = .ok then d.stagingFails else d)

/-! ## Capture -/

/-- Checks of STAGE_CAPTURE (R267 to R269). -/
def chkStageCapture (p : Packet) (d : Dev) : Option Status :=
  let mask := p.fld 0 0 16
  let ports := (d.nst p.target).ports.map (·.port)
  firstFail
    [(!p.resvOk [(2, 2, 6), (3, 0, 8), (4, 0, 32)], .malformed),
     ((List.range 16).any (fun k => mask.testBit k && !ports.contains k), .badField),
     (p.flag 2 0 && !(d.capq p.target).enable, .busy),
     (p.flag 2 0 && mask = 0, .doneEmpty)]

/-- STAGE_CAPTURE: the new port set and the flush wait for the next line boundary (R266, R270, R271). -/
def runStageCapture (p : Packet) (d : Dev) : Dev :=
  let s := p.target
  let d := d.modCapq s (fun q => { q with newPorts := some (if p.flag 2 0 then p.fld 0 0 16 else 0) })
  if !p.flag 2 1 then d.complete p.ref .done 0 0
  else if !d.captureAny s then d.complete p.ref .doneEmpty 0 0
  else (d.modCapq s (fun q => { q with flush := some p.ref, flushDue := true })).executing p

/-- STAGE_CAPTURE (R266). -/
def execStageCapture (r seq : Nat) : State → Host.Outcome State Fault Refusal :=
  opRow 0x0306 chkStageCapture (onPkt runStageCapture) r seq

/-- CAPQ_HEAD_WRITE (R285). -/
def execCapqHeadWrite (st : Nat) (value : BitVec 32) : State → Host.Outcome State Fault Refusal :=
  inDomain 4 (Dev.modCapq st (fun q => { q with head := value.toNat }))

/-- Does a record fit in the host's capture queue (R285, R286)? -/
def CapQ.fits (q : CapQ) (n : Nat) : Bool :=
  q.enable && decide (16 ≤ q.log2) && decide (q.log2 ≤ 30) && decide ((q.tail + 2 ^ 32 - q.head) % 2 ^ 32 + n ≤ 2 ^ q.log2)

/-- The oldest record of stream s moves to the host once it fits; one held uncompressed waits for shedding stage 2 to clear
(R277, R279, R286). -/
def Dev.deliverRecord (s : Nat) (d : Dev) : Dev :=
  match d.codec.store.find? (fun (r : CapRec) => r.stream = s) with
  | none => d
  | some r =>
    if !(d.capq s).fits r.bytes || (r.raw && decide (2 ≤ d.sched.stage)) then d
    else
      let (v, d) := d.takeFree
      let d := { d with codec := { d.codec with store := d.codec.store.erase r } }
      let d := d.modCapq s (fun q => { q with tail := (q.tail + r.bytes) % 2 ^ 32 })
      (d.send (.capture s (r.header (v % 2 = 1) ++ r.block.lines.flatten))).flushEnd s true

/-- CAPTURE_RECORD_DELIVER (R286). -/
def execCaptureRecordDeliver (st : Nat) : State → Host.Outcome State Fault Refusal := inDomain 4 (Dev.deliverRecord st)

end Sys2Proof.Machine
end

