-- ==== Sys2Proof/Machine/Flash.lean ====
section
/-! DEFINITION. The NOR flash (spec chapter 15, R785 to R793): the directory, the calibration record, image headers and the
bytes of a checkpoint record (R70). -/

namespace Sys2Proof.Machine

/-- n bytes of the flash from address a, as numbers. -/
def Mems.flashBytes (m : Mems) (a n : Nat) : List Nat := (Memory.readList flashDefault m.flash a n).map (·.toNat)

/-- Bytes are programmed from address a: a byte programmed twice holds the bitwise AND (R791). -/
def Mems.program (a : Nat) (b : List Nat) (m : Mems) : Mems :=
  let new := (b.zip (m.flashBytes a b.length)).map (fun x => BitVec.ofNat 8 (x.1 % 256 &&& x.2))
  { m with flash := Memory.writeList flashDefault a new m.flash }

/-- n bytes from address a are erased. -/
def Mems.eraseFlash (a n : Nat) (m : Mems) : Mems := { m with flash := Memory.clear a n m.flash }

/-! ## The directory -/

/-- A flash directory (R786). -/
structure Directory where
  /-- ACTIVE -/
  active : Nat
  /-- TRIAL -/
  trial : Bool
  /-- base and size of image slot A -/
  a : Nat × Nat
  /-- base and size of image slot B -/
  b : Nat × Nat
  /-- base and size of the calibration record region -/
  cal : Nat × Nat
  /-- base and size of the checkpoint ring -/
  ckpt : Nat × Nat
  /-- SEQ -/
  seq : Nat
  /-- the copy it was read from -/
  copy : Nat
  deriving DecidableEq, Repr

/-- Do two regions overlap? -/
def regionsMeet (x y : Nat × Nat) : Bool := decide (x.1 < y.1 + y.2) && decide (y.1 < x.1 + x.2)

/-- Does a directory's layout break R786: regions that overlap one another or the directory copies, or that extend beyond the
flash? -/
def Directory.bad (d : Directory) : Bool :=
  let l := [((0, 0x2000) : Nat × Nat), d.a, d.b, d.cal, d.ckpt]
  l.any (fun x => decide (Config.flashSize < x.1 + x.2)) ||
  (List.range l.length).any (fun i => (List.range i).any (fun j => regionsMeet (l.getD i (0, 0)) (l.getD j (0, 0))))

/-- Copy c of the directory; none where its MAGIC, VERSION or CRC does not match or its layout is invalid (R786). -/
def Mems.dirCopy (m : Mems) (c : Nat) : Option Directory :=
  let b := m.flashBytes (0x1000 * c) 48
  let w (i : Nat) : Nat := leNat ((b.drop i).take 4)
  if w 0 = 0x52444845 && b.getD 4 0 = 1 && w 44 = crc32 (b.take 44) then
    let d : Directory :=
      { active := bits (b.getD 5 0) 0 1, trial := bits (b.getD 5 0) 1 1 = 1, a := (w 8, w 12), b := (w 16, w 20),
        cal := (w 24, w 28), ckpt := (w 32, w 36), seq := w 40, copy := c }
    if d.bad then none else some d
  else none

/-- The directory in use: the valid copy, the later one where both are valid (R786). -/
def Mems.directory (m : Mems) : Option Directory :=
  match m.dirCopy 0, m.dirCopy 1 with
  | some x, some y => if later 32 y.seq x.seq then some y else some x
  | some x, none => some x
  | none, y => y

/-- The bytes of a directory (R786). -/
def Directory.bytes (d : Directory) : List Nat :=
  let b := leBytes 4 0x52444845 ++ [1, d.active + 2 * b2n d.trial, 0, 0] ++
    [d.a, d.b, d.cal, d.ckpt].flatMap (fun r => leBytes 4 r.1 ++ leBytes 4 r.2) ++ leBytes 4 d.seq
  b ++ leBytes 4 (crc32 b)

/-- A new directory is written into the other copy, one generation later (R786). -/
def Mems.writeDirectory (d : Directory) (m : Mems) : Mems :=
  let a := 0x1000 * (1 - d.copy)
  (m.eraseFlash a 0x1000).program a { d with seq := (d.seq + 1) % 2 ^ 32 }.bytes

/-- Base and size of an image slot. -/
def Directory.slot (d : Directory) (k : Nat) : Nat × Nat := if k = 0 then d.a else d.b

/-! ## Images -/

/-- The image of a slot: its header and body; none where MAGIC does not match or LENGTH is outside the slot (R787). -/
def Mems.image (m : Mems) (slot : Nat × Nat) : Option (List Nat) :=
  let h := m.flashBytes slot.1 12
  let n := leNat ((h.drop 8).take 4)
  if leNat (h.take 4) = 0x57464845 && decide (1 ≤ n) && decide (n + 256 ≤ slot.2) then
    some (m.flashBytes slot.1 (256 + n)) else none

/-- Does an image of header and body verify (R787): its form, its reserved fields aside, and its key and signature (log
entry 10)? -/
def imageOk (b : List Nat) : Bool :=
  let n := leNat ((b.drop 8).take 4)
  leNat (b.take 4) = 0x57464845 && decide (1 ≤ n) && b.length = 256 + n &&
  Config.imageVerifies (b.map (fun x => BitVec.ofNat 8 x))

/-- FW_VERSION of an image. -/
def imageVersion (b : List Nat) : Nat := leNat ((b.drop 4).take 4)

/-- Does the image of a slot verify? -/
def Mems.slotOk (m : Mems) (slot : Nat × Nat) : Bool := (m.image slot).any imageOk

/-! ## The calibration record -/

/-- The calibration record: 64 bytes where MAGIC, VERSION and CRC match (R788). -/
def Mems.calRecord (m : Mems) : Option (List Nat) :=
  (m.directory.map (fun d => m.flashBytes d.cal.1 64)).filter (fun b =>
    leNat (b.take 4) = 0x4C434845 && b.getD 4 0 = 1 && leNat ((b.drop 60).take 4) = crc32 (b.take 60))

/-- A field of the calibration record, where its VALID bit k is set (R788, R789). -/
def Mems.calField (m : Mems) (k i n : Nat) : Option Nat :=
  (m.calRecord.filter (fun b => (b.getD 5 0).testBit k)).map (fun b => leNat ((b.drop i).take n))

/-- ADDR of the calibration record, 0 to 4,094 (R788). -/
def Mems.calAddr (m : Mems) : Option Nat := ((m.calField 0 8 2).map (· % 4096)).filter (fun a => decide (a ≤ 4094))

/-- DDR_SPEED; 4,800 MT/s (0) where not valid (R789). -/
def Mems.calSpeed (m : Mems) : Nat := ((m.calField 1 10 1).map (· % 4)).getD 0

/-- LONG_SIZE; 32 where not valid or outside 4 to 64 (R789). -/
def Mems.calLong (m : Mems) : Nat :=
  (((m.calField 2 11 1).map (· % 128)).filter (fun n => decide (4 ≤ n) && decide (n ≤ 64))).getD 32

/-! ## The checkpoint ring -/

/-- Base and size of the checkpoint ring: the directory's, or the default layout's (R786). -/
def Mems.ckptRegion (m : Mems) : Nat × Nat := (m.directory.map (·.ckpt)).getD (0xA00000, 0x400000)

/-- Sectors of the checkpoint ring (R72). -/
def Mems.ckptSectors (m : Mems) : Nat := max 1 (m.ckptRegion.2 / 4096)

/-- CRC-16/CCITT-FALSE (R70). -/
def crc16 (b : List Nat) : Nat :=
  b.foldl (fun c x => (List.range 8).foldl (fun c _ => if c / 2 ^ 15 % 2 = 1 then (2 * c % 2 ^ 16) ^^^ 0x1021 else 2 * c % 2 ^ 16)
    (c ^^^ (x % 256 * 2 ^ 8))) 0xFFFF

/-- The 16 bytes of a checkpoint record (R70). -/
def CkptRec.bytes (r : CkptRec) : List Nat :=
  let b := leBytes 8 r.id ++ leBytes 4 r.acceptNum ++ [r.stream + 4 * r.event + 16 * r.attempt, r.lap]
  b ++ leBytes 2 (crc16 b)

end Sys2Proof.Machine
end

