-- ==== Sys2Proof/Machine/Imprints.lean ====
section
/-! DEFINITION. The IMP commands and the checkpoint ring (spec chapter 2). -/

namespace Sys2Proof.Machine

/-! ## The checkpoint ring -/

/-- Number, counted from the start of the ring, of the next sector to erase: the sectors of an empty ring are erased (R72). -/
def Imp.nextSector (x : Imp) (n : Nat) : Nat := max x.erased n

/-- The records a sector still holds, by its number of the lap before. -/
def Imp.sectorRecords (x : Imp) (n : Nat) : List CkptRec :=
  let first := 256 * (x.nextSector n - n)
  (x.ring.reverse.zipIdx (x.written - x.ring.length)).filterMap (fun e =>
    if first ≤ e.2 && e.2 < first + 256 then some e.1 else none)

/-- The unreleased Cairn entry of an identity, with its index. -/
def Dev.entryOf (d : Dev) (id : Nat) : Option (Nat × Entry) :=
  d.imp.entries.find? (fun e => e.2.desc.id = id && !(e.2.st = .released))

/-- Is the erase of the next sector due: the write point is in the sector before it (R72)? -/
def Imp.eraseDue (x : Imp) (n : Nat) : Bool := decide (x.nextSector n ≤ x.written / 256 + 1)

/-- Does a record of the next sector belong to an unreleased imprint (R72)? -/
def Dev.sectorHeld (d : Dev) (n : Nat) : Bool :=
  (d.imp.sectorRecords n).any (fun r => !(r.event = 3) && (d.entryOf r.id).isSome)

/-- CKPT_FULL: the next sector cannot be erased (R73). -/
def Dev.updCkptFull (n : Nat) (d : Dev) : Dev :=
  { d with imp := { d.imp with ckptFull := d.imp.eraseDue n && d.sectorHeld n } }

/-- Once the record of step 1 of R82 is programmed the imprint may commit, or is cancelled where no attempt is left (R83). -/
def Dev.resolved (j : CkptJob) (d : Dev) : Dev :=
  match j.index with
  | none => d
  | some i =>
    let e := d.entry i
    if e.unresolved && e.acceptNum = j.record.acceptNum && e.desc.id = j.record.id then
      let d := d.modEntry i (fun e => { e with unresolved := false })
      if e.desc.maxAttempts ≤ e.attempt && e.st = .accepted then d.cancel i 0x21 else d
    else d

/-- The oldest waiting record has been programmed and read back: it is in the ring, and its reports are written (R67, R65,
R70). -/
def State.recordDone (s : State) : State :=
  let x := s.dev.imp
  let n := s.mem.ckptSectors
  match x.jobs with
  | [] => s
  | j :: rest =>
    let k := x.written % (256 * n)
    let a := s.mem.ckptRegion.1 + 16 * k
    let r := { j.record with lap := x.written / (256 * n) % 256 }
    let d := { s.dev with imp := { x with jobs := rest, ring := r :: x.ring, written := x.written + 1 } }
    let d := (forL j.reports Dev.dueReport (d.send (.flash 1 a 16))).resolved j
    { s with dev := d.updCkptFull n, mem := s.mem.program a r.bytes }

/-- Can the oldest waiting record be programmed: the ring is scanned, checkpointing has not stopped and the sector at the
write point is erased (R72, R87)? -/
def State.recordReady (s : State) : Bool :=
  let x := s.dev.imp
  x.scanDone && !x.ckptFail && !x.jobs.isEmpty && decide (x.written / 256 < x.nextSector s.mem.ckptSectors)

/-- The record at the front fails its program or its read-back: checkpointing stops (R807, R87). -/
def Dev.recordFails (d : Dev) : Dev := { d with imp := { d.imp with ckptFail := true } }.raise 15 0

/-- The programming of the record at the front ends, intact or not. -/
def State.recordEnds (ok : Bool) (s : State) : State :=
  if s.recordReady then (if ok then s.recordDone else s.onDev Dev.recordFails) else s

/-- CKPT_RECORD_PROGRAMMED (R67). -/
def execCkptRecordProgrammed (ok : Bool) : State → Host.Outcome State Fault Refusal := inDomainS 0 (State.recordEnds ok)

/-- The erase of the sector ahead of the write point ends (R72): its records leave the ring and CKPT_FULL clears. -/
def State.sectorErased (s : State) : State :=
  let x := s.dev.imp
  let n := s.mem.ckptSectors
  if x.scanDone && x.eraseDue n && !s.dev.sectorHeld n then
    let k := x.nextSector n
    let a := s.mem.ckptRegion.1 + 4096 * (k % n)
    let x' := { x with
      ring := x.ring.take (x.written - 256 * (k + 1 - n)), erased := k + 1, ckptFull := false,
      erases := Tab.set (k % n) (Tab.get 0 x.erases (k % n) + 1) x.erases }
    { s with dev := { s.dev with imp := x' }.send (.flash 0 a 4096), mem := s.mem.eraseFlash a 4096 }
  else s

/-- CKPT_SECTOR_ERASED (R72). -/
def execCkptSectorErased : State → Host.Outcome State Fault Refusal := inDomainS 0 State.sectorErased

/-! ## IMP_SUBMIT -/

/-- The raster sources of a descriptor (R35). -/
def Packet.sources (p : Packet) : List Source :=
  (List.range (p.fld 32 0 5)).map (fun j =>
    { handle := p.fld (40 + 8 * j) 0 32, portMask := p.fld (44 + 8 * j) 0 16, format := p.fld (46 + 8 * j) 0 8 })

/-- The descriptor an IMP_SUBMIT carries (R34). -/
def Packet.desc (p : Packet) : Desc :=
  { id := p.fld 0 0 64, length := p.fld 8 0 32, stream := p.fld 12 0 2, startMode := p.fld 13 0 2,
    maxAttempts := p.fld 14 0 4, spoilMark := p.flag 14 4, allowThresh := p.flag 15 0, allowReduce := p.flag 15 1,
    startWp := p.fld 16 0 48, minGap := p.fld 24 0 32, mode := p.fld 28 0 8, set := p.fld 29 0 8, sources := p.sources }

/-- The two checks R885 makes before all the others, then the reserved fields. -/
def Packet.descForm (p : Packet) : List (Bool × Status) :=
  let n := p.fld 32 0 5
  [(n = 0 || decide (16 < n), .badSource),
   (!(p.payload.length = 40 + 8 * n), .badLength),
   (!p.resvOk ([(12, 2, 6), (13, 2, 6), (14, 5, 3), (15, 2, 6), (22, 0, 16), (30, 0, 16), (32, 5, 27), (36, 0, 32)] ++
      (List.range n).map (fun j => (47 + 8 * j, 0, 8))), .malformed)]

/-- Do the sources of a descriptor break the first BAD_SOURCE row on masks and formats (R36)? -/
def NozStream.sourcesBad (n : NozStream) (x : Desc) : Bool :=
  let ports := n.ports.map (·.port)
  x.sources.any (fun q => decide (2 < q.format)) ||
  x.sources.any (fun q => (List.range 16).any (fun b => q.portMask.testBit b && !ports.contains b)) ||
  ports.any (fun b => !((x.sources.filter (fun q => q.portMask.testBit b)).length = 1))

/-- The checks of R36 in table order; a START_WP is compared with the present WP and the commit horizon, and with the planned
last line of the last committed imprint of the stream. -/
def Dev.descRows (d : Dev) (x : Desc) : List (Bool × Status) :=
  let s := x.stream
  let st := d.ist s
  [(x.length = 0 || decide (1048576 < x.length), .badLength),
   (x.id = 0 || x.id = 2 ^ 64 - 1, .badId),
   (!st.configured, .badStream),
   (x.maxAttempts = 0 || (x.spoilMark && st.markLevel = 0), .badPolicy),
   (decide (2 ≤ x.startMode) || (x.startMode = 0 && !(x.minGap = 0)) || (x.startMode = 1 && !(x.startWp = 0)), .badStart),
   (x.startMode = 0 && !later 48 x.startWp (d.presentWp s + 64 * st.horizon), .badStart),
   (x.startMode = 0 && (d.lastPlanned s).any (fun l => !later 48 x.startWp (wpOf l)), .badStart),
   ((d.nst s).sourcesBad x, .badSource),
   (x.sources.any (fun q => if q.format = 0 then !(x.mode = 0) else x.mode = 0), .badSource),
   (decide (16777215 < x.minGap), .badField),
   ((d.entryOf x.id).isSome, .idConflict),
   (decide (1048576 ≤ (d.imp.entries.filter (fun e => !(e.2.st = .released))).length), .cairnFull)]

/-- The checks of R297. -/
def Dev.screenRows (d : Dev) (x : Desc) : List (Bool × Status) :=
  let diff := d.diffSet x.set
  [(decide (2 < x.mode), .badField), (x.mode = 0 && !(x.set = 0), .badField),
   ((x.mode = 1 && (decide (15 < x.set) || (d.thresh x.set).width = 0)) ||
      (x.mode = 2 && (decide (15 < x.set) || !diff.loaded)), .badField),
   (x.mode = 2 && x.allowThresh && (d.thresh diff.fallback).width = 0, .badField),
   (!(x.mode = 0) && d.lanes x.stream = 0, .badField)]

/-- The live entry that an IMP_SUBMIT names again: the same identity with the same descriptor (R78). -/
def Dev.sameEntry (d : Dev) (x : Desc) : Option (Nat × Entry) := (d.entryOf x.id).filter (fun e => e.2.desc = x)

/-- Checks of IMP_SUBMIT (R885, R36, R297); none of those of R36 where the identity and descriptor are already in Cairn (R78), and
none at all before the ring is scanned (R64). -/
def chkImpSubmit (p : Packet) (d : Dev) : Option Status :=
  let x := p.desc
  if !d.imp.scanDone then none
  else firstFail (p.descForm ++ (if (d.sameEntry x).isSome then [] else d.descRows x ++ d.screenRows x))

/-- RESULT of R129. -/
def submitResult (i acceptNum : Nat) : Nat := i + acceptNum * 2 ^ 20

/-- The lowest free Cairn index (R68). -/
def Dev.freeIndex (d : Dev) : Nat :=
  ((List.range (d.imp.entries.length + 1)).find? (fun i => (d.entry i).st = .released)).getD 0

/-- The highest attempt number checkpointed in a SPOILED record of an identity that the scan found (R81). -/
def Imp.spoiledBefore (x : Imp) (id : Nat) : Option Nat :=
  ((x.scanned.filter (fun r => r.id = id && r.event = 2)).map (·.attempt)).max?

/-- The checkpoint PRINTED record of an identity (R78). -/
def Imp.printedRecord (x : Imp) (id : Nat) : Option CkptRec := x.ring.find? (fun r => r.id = id && r.event = 1)

/-- A new Cairn entry, with the next acceptance number of its stream and its place in the deduplication window (R63, R68, R76). -/
def Dev.newEntry (p : Packet) (i : Nat) (d : Dev) : Dev :=
  let x := p.desc
  let a := (d.ist x.stream).nextAccept
  let e : Entry := { Entry.reset with
    desc := x, acceptNum := a, st := .accepted, ring := p.ring, seq := p.seq }
  let d := { d with imp := { d.imp with
      entries := Tab.set i e d.imp.entries, seen := x.id :: d.imp.seen.filter (fun k => !(k = x.id)) } }
  let d := d.modIst x.stream (fun t => { t with nextAccept := (a + 1) % 2 ^ 32, awaiting := t.awaiting ++ [(a, i)] })
  d.modRing p.ring (fun r => { r with windowOf := (p.seq, i + 1) :: r.windowOf.filter (fun q => !(q.1 = p.seq)) })

/-- An IMP_SUBMIT ends with the fields of R129. -/
def Dev.submitDone (p : Packet) (i : Nat) (st : Status) (d : Dev) : Dev :=
  d.complete p.ref st (submitResult i (d.entry i).acceptNum) (d.entry i).attempt

/-- The identity was printed before the power cycle: its entry is created in PRINTED and its report follows (R78). -/
def Dev.acceptPrinted (p : Packet) (i : Nat) (r : CkptRec) (d : Dev) : Dev :=
  let d := (d.newEntry p i).modEntry i (fun e => { e with st := .printed, attempt := r.attempt })
  (d.finalReport p.desc.stream (d.mkReport i 1 0)).submitDone p i .alreadyPrinted

/-- Attempt u of a resent imprint may have fired without a checkpoint: its SPOILED record waits, followed by its UNRESOLVED
and SPOILED reports; the imprint goes on at attempt u + 1 (R82, R84). -/
def Dev.unresolve (i u : Nat) (d : Dev) : Dev :=
  let d := d.modEntry i (fun e => { e with attempt := u, reprint := true, unresolved := true })
  let d := d.checkpoint i 2 u [d.mkReport i 4 0x08, d.mkReport i 2 0x08]
  d.modEntry i (fun e => { e with attempt := u + 1 })

/-- The attempt with which an accepted imprint starts: 0, or for the first acceptance of an identity since power-on what R81 to
R83 give. An empty ring holds no sign of a cut-off attempt. -/
def Dev.startAttempt (i : Nat) (seen : Bool) (d : Dev) : Dev :=
  let x := d.imp
  let e := d.entry i
  if seen then d
  else
    let u := match x.spoiledBefore e.desc.id with | some h => h + 1 | none => 0
    if x.orderly || x.scanned.isEmpty || e.desc.maxAttempts ≤ u then
      let a := min u e.desc.maxAttempts
      let d := d.modEntry i (fun e => { e with attempt := a, reprint := decide (0 < a) })
      if e.desc.maxAttempts ≤ a then d.cancel i 0x21 else d
    else d.unresolve i u

/-- The imprint is accepted: its entry joins the end of its stream (R45, R63). -/
def Dev.acceptNew (p : Packet) (i : Nat) (d : Dev) : Dev :=
  let seen := d.imp.seen.contains p.desc.id
  let d := (d.newEntry p i).modIst p.desc.stream (fun t => { t with queue := t.queue ++ [i] })
  (d.startAttempt i seen).submitDone p i .accepted

/-- IMP_SUBMIT (R36, R78, R64, R81 to R84). -/
def runImpSubmit (p : Packet) (d : Dev) : Dev :=
  let x := p.desc
  if !d.imp.scanDone then d.executing p
  else
    match d.sameEntry x with
    | some e => d.submitDone p e.1 .alreadyAccepted
    | none =>
      match d.imp.printedRecord x.id with
      | some r => d.acceptPrinted p d.freeIndex r
      | none => d.acceptNew p d.freeIndex

/-- IMP_SUBMIT (R36). -/
def execImpSubmit (r seq : Nat) : State → Host.Outcome State Fault Refusal :=
  opRow 0x0200 chkImpSubmit (onPkt runImpSubmit) r seq

/-! ## IMP_CANCEL, IMP_SPOIL, IMP_RELEASE -/

/-- IMPRINT_ID of a command (R128). -/
def Packet.imprint (p : Packet) : Nat := p.fld 0 0 64

/-- Checks of IMP_CANCEL (R51). -/
def chkImpCancel (p : Packet) (d : Dev) : Option Status :=
  match d.entryOf p.imprint with
  | none => some .unknownId
  | some e => firstFail [(e.2.onWeb || e.2.st = .printed, .tooLate), (e.2.st = .cancelled, .doneEmpty)]

/-- IMP_CANCEL (R51). -/
def runImpCancel (p : Packet) (d : Dev) : Dev :=
  match d.entryOf p.imprint with
  | none => d
  | some e => (d.cancel e.1 0x20).complete p.ref .done 0 0

/-- IMP_CANCEL (R51). -/
def execImpCancel (r seq : Nat) : State → Host.Outcome State Fault Refusal :=
  opRow 0x0201 chkImpCancel (onPkt runImpCancel) r seq

/-- Checks of IMP_SPOIL (R52). -/
def chkImpSpoil (p : Packet) (d : Dev) : Option Status :=
  match d.entryOf p.imprint with
  | none => some .unknownId
  | some e => firstFail [(e.2.st = .printed, .tooLate), (!e.2.onWeb, .unknownId)]

/-- IMP_SPOIL (R52): the imprint is spoiled from its stream's first line not yet armed. -/
def runImpSpoil (p : Packet) (d : Dev) : Dev :=
  match d.entryOf p.imprint with
  | none => d
  | some e => (d.spoil e.1 0x09).complete p.ref .done 0 0

/-- IMP_SPOIL (R52). -/
def execImpSpoil (r seq : Nat) : State → Host.Outcome State Fault Refusal :=
  opRow 0x0202 chkImpSpoil (onPkt runImpSpoil) r seq

/-- Checks of IMP_RELEASE (R53). -/
def chkImpRelease (p : Packet) (d : Dev) : Option Status :=
  match d.entryOf p.imprint with
  | none => some .doneEmpty
  | some e => firstFail [(!(e.2.st = .printed || e.2.st = .cancelled), .notFinal)]

/-- Entry i is freed; a later duplicate of its IMP_SUBMIT finds no entry (R68, R76). -/
def Dev.freeEntry (i : Nat) (d : Dev) : Dev :=
  let e := d.entry i
  let d := d.modRing e.ring (fun r => { r with windowOf := r.windowOf.map (fun q => if q.2 = i + 1 then (q.1, 0) else q) })
  { d with imp := { d.imp with entries := Tab.erase i d.imp.entries } }

/-- IMP_RELEASE (R53, R73). -/
def runImpRelease (p : Packet) (s : State) : State :=
  match s.dev.entryOf p.imprint with
  | none => s
  | some e => s.onDev (fun d => ((d.freeEntry e.1).updCkptFull s.mem.ckptSectors).complete p.ref .done 0 0)

/-- IMP_RELEASE (R53). -/
def execImpRelease (r seq : Nat) : State → Host.Outcome State Fault Refusal :=
  opRow 0x0203 chkImpRelease runImpRelease r seq

/-! ## IMP_CONFIG_STREAM, IMP_RECOVER, IMP_REINIT -/

/-- The staging lead of a stream, 0 while it has no NOZ_CONFIG_STREAM in force (R890). -/
def Dev.stageLead (d : Dev) (s : Nat) : Nat :=
  let n := d.nst s
  if n.configured then 8192 + 64 * n.ports.length + 32 else 0

/-- Checks of IMP_CONFIG_STREAM: R43, then R39, R40 and R41. -/
def chkImpConfigStream (p : Packet) (d : Dev) : Option Status :=
  let s := p.target
  let level := p.fld 1 0 3
  let count := p.fld 2 0 16
  let first := p.fld 4 0 16
  let lines := p.fld 6 0 16
  let lead := d.stageLead s
  let stop := p.fld 8 0 24
  let horizon := p.fld 12 0 24
  firstFail
    [(!p.resvOk [(0, 1, 7), (1, 3, 5), (11, 0, 8), (15, 0, 8)], .malformed),
     (!(d.nst s).configured, .refused),
     (level = 0 && !(count = 0 && first = 0 && lines = 0), .badField),
     (!(level = 0) && (count = 0 || decide (256 < count) || lines = 0 || decide (4096 < lines)), .badField),
     (!(level = 0) && decide ((d.nst s).count < first + count), .badField),
     (!(d.onWeb s).isEmpty, .busy),
     (decide (horizon < lead), .badHorizon),
     (decide (horizon < stop + lead) && level = 0, .badHorizon)]

/-- IMP_CONFIG_STREAM (R38, R42); its ring carries the stream's RPT datagrams (R157). -/
def runImpConfigStream (p : Packet) (d : Dev) : Dev :=
  let s := p.target
  let short := p.fld 12 0 24 < p.fld 8 0 24 + d.stageLead s
  let d := d.modIst s (fun x => { x with
    configured := true, policy := p.flag 0 0, markLevel := p.fld 1 0 3, markCount := p.fld 2 0 16, markFirst := p.fld 4 0 16,
    markLines := p.fld 6 0 16, stopDistance := p.fld 8 0 24, horizon := p.fld 12 0 24, shortHorizon := decide short })
  (d.modRptq s (fun q => { q with ring := p.ring })).complete p.ref .done 0 0

/-- IMP_CONFIG_STREAM (R43). -/
def execImpConfigStream (r seq : Nat) : State → Host.Outcome State Fault Refusal :=
  opRow 0x0204 chkImpConfigStream (onPkt runImpConfigStream) r seq

/-- IMP_RECOVER carries nothing to check. -/
def chkImpRecover (_ : Packet) (_ : Dev) : Option Status := none

/-- IMP_RECOVER (R80, R130): the stream's last PRINTED or SPOILED record. -/
def runImpRecover (p : Packet) (d : Dev) : Dev :=
  if !d.imp.scanDone then d.executing p
  else
    let o := 256 * b2n d.imp.orderly
    match d.imp.ring.find? (fun r => r.stream = p.target && !(r.event = 3)) with
    | some r => d.complete p.ref .done r.id (r.attempt + 16 * r.event + o)
    | none => d.complete p.ref .done 0 o

/-- IMP_RECOVER (R130). -/
def execImpRecover (r seq : Nat) : State → Host.Outcome State Fault Refusal :=
  opRow 0x0205 chkImpRecover (onPkt runImpRecover) r seq

/-- IMP_REINIT carries nothing to check. -/
def chkImpReinit (_ : Packet) (_ : Dev) : Option Status := none

/-- IMP_REINIT (R115): spoils, staged lines discarded, STAGED imprints ACCEPTED again. -/
def runImpReinit (p : Packet) (d : Dev) : Dev :=
  let s := p.target
  let d := (d.spoilAll s 0x0B).discardScreened s
  let d := forL (d.ist s).queue (fun i d => d.modEntry i (fun e => if e.st = .staged then { e with st := .accepted } else e)) d
  d.complete p.ref .done 0 0

/-- IMP_REINIT (R115). -/
def execImpReinit (r seq : Nat) : State → Host.Outcome State Fault Refusal :=
  opRow 0x02FF chkImpReinit (onPkt runImpReinit) r seq

/-! ## The scan -/

/-- IMP_NEXT_ACCEPT of a stream after the scan: one above its latest record's, or 0 (R64, R19). -/
def nextAcceptOf (l : List CkptRec) (s : Nat) : Nat :=
  match (l.filter (fun r => r.stream = s && !(r.event = 3))).map (·.acceptNum) with
  | [] => 0
  | a :: t => (t.foldl (fun m x => if later 32 x m then x else m) a + 1) % 2 ^ 32

/-- A command that waited for the scan executes (R64, R80). -/
def Dev.afterScan (p : Packet) (d : Dev) : Dev :=
  if p.op = 0x0205 then runImpRecover p d
  else match chkImpSubmit p d with
    | some st => d.complete p.ref st 0 0
    | none => runImpSubmit p d

/-- The scan of the checkpoint ring ends (R80, R64). -/
def Dev.scanEnd (d : Dev) : Dev :=
  if !d.imp.scanning then d
  else
    let x := d.imp
    let d := { d with imp := { x with
        scanning := false, scanDone := true, scanned := x.ring, orderly := x.ring.head?.any (fun r => r.event = 3) } }
    let d := forN 4 (fun s d => d.modIst s (fun t => { t with nextAccept := nextAcceptOf x.ring s })) d
    forL (d.rings.inflight.filter (fun p => p.phase = .executing && (p.op = 0x0200 || p.op = 0x0205))) Dev.afterScan d

/-- CKPT_SCAN_END (R80). -/
def execCkptScanEnd : State → Host.Outcome State Fault Refusal := inDomain 0 Dev.scanEnd

end Sys2Proof.Machine
end

