-- ==== Sys2Proof/Machine/Memory.lean ====
section
/-! DEFINITION. SDRAM channels and on-chip banks (spec chapter 14): the MEM commands, request scheduling, activate counting,
errors, scrubbing, handovers and Scree. -/

namespace Sys2Proof.Machine

/-! ## Loss of Cairn -/

/-- Cairn is discarded and the device proceeds as after an unorderly power cycle, from the checkpoint ring (R87, R714): no
line of a lost imprint is fired that is not yet armed. -/
def Dev.loseCairn (d : Dev) : Dev :=
  let d := forN 4 (fun s d =>
    let idx := d.onWeb s
    let d := forL (d.portIdx s) (fun q d => d.voidPort s q (d.fst s).nextArm idx) d
    let d := d.closeCaptures s 0 false
    (d.modIst s (fun x => { x with
      queue := [], awaiting := [], finals := [], markStart := none, markWait := false, markReports := [],
      tail := none, nextAccept := nextAcceptOf d.imp.ring s })).modSst s (fun x => { x with cur := none })) d
  let r' (r : Ring) : Ring := { r with windowOf := r.windowOf.map (fun q => (q.1, 0)) }
  { d with
    imp := { d.imp with entries := [], scanned := d.imp.ring, orderly := false, seen := [], ckptFull := false },
    rings := { d.rings with rings := d.rings.rings.map (fun c => (c.1, r' c.2)) } }

/-! ## SDRAM errors -/

/-- A correctable error of channel c at an address (R713): counted, and latched where no uncorrectable one is. -/
def Dev.ddrCe (c a : Nat) (d : Dev) : Dev :=
  (d.modDch c (fun x =>
    let y := { x with ce := satInc 32 x.ce }
    if x.errUe then y else { y with errAddr := a, errRegion := d.ddr.regionOf a })).raise (200 + c) 0

/-- An uncorrectable error of channel c at an address is counted and latched (R714). -/
def Dev.ddrUe (c a : Nat) (d : Dev) : Dev :=
  (d.modDch c (fun x => { x with
    ue := satInc 32 x.ue, errAddr := a, errRegion := d.ddr.regionOf a, errUe := true, ueSeen := true })).raise (202 + c) 0

/-- What an uncorrectable word does by its region and reader (R714). -/
def State.ueOutcome (a : Nat) (reader : DdrReader) (s : State) : State :=
  let r := s.dev.ddr.regionOf a
  match reader with
  | .delay st => if r = 4 then s.onDev (Dev.spoilAll st 0x0B) else s
  | .lookahead i j =>
    if r = 5 && (s.dev.entry i).decode = .running then
      s.onDev (Dev.codecError i j { cause := .ecc, block := none, offset := 0, line := 0 }) else s
  | .staging _ => if r = 5 then s.onDev Dev.stagingFails else s
  | .dma c => if r = 5 || r = 2 then s.dmaFail c 5 false a [] else s
  | .payloadCopy ring seq =>
    if r = 2 && (s.dev.packet? (ring, seq)).any (fun p => p.phase = .payload) then
      s.onDev (Dev.complete (ring, seq) .eccUncorrectable 0 0) else s
  | .capture st =>
    if r = 3 then s.onDev (fun d =>
      match d.codec.store.find? (fun (x : CapRec) => x.stream = st) with
      | none => d
      | some x => ({ d with codec := { d.codec with store := d.codec.store.erase x } }).captureLost st) else s
  | .journal => if r = 1 then s.onDev Dev.loseCairn else s
  | .firmware => if r = 0 then s.onDev (Dev.warmReset 7) else s
  | .none => s

/-- DDR_READ_RETURN (R713, R714): a read meets an error, corrected or not. -/
def execDdrReadReturn (c addr : Nat) (reader : DdrReader) (ue : Bool) : State → Host.Outcome State Fault Refusal :=
  inDomainS 7 (fun s => if ue then (s.onDev (Dev.ddrUe c addr)).ueOutcome addr reader else s.onDev (Dev.ddrCe c addr))

/-! ## Scrubbing -/

/-- Ranges of MEM_SCRUB that have been read to their end complete (R735). -/
def Dev.endScrubs (d : Dev) : Dev :=
  let l := d.ddr.scrubs.filter (fun x => decide (x.stop ≤ x.pos))
  let d := { d with ddr := { d.ddr with scrubs := d.ddr.scrubs.filter (fun x => !decide (x.stop ≤ x.pos)) } }
  forL l (fun x d => d.complete x.ref .done x.ce (min x.ue 65535)) d

/-- Channel c's scrubber reads the word at an address (R709, R715, R735): the next word of a range in progress, or a word of the
patrol. Errors are corrected or latched, without further action. -/
def Dev.scrubRead (c a : Nat) (ce ue : Bool) (d : Dev) : Dev :=
  let mine (x : Scrub) : Bool := decide (x.pos ≤ a) && decide (a < x.pos + 8)
  if !((d.dch c).st = .serving) || !((d.dch c).panicPorts = 0) || !(d.ddr.scrubEn || d.ddr.scrubs.any mine) then d
  else
    let d := { d with ddr := { d.ddr with scrubs := d.ddr.scrubs.map (fun x => if mine x then { x with
        pos := x.pos + 8, ce := x.ce + b2n ce, ue := x.ue + b2n ue } else x) } }
    ((d.when ce (Dev.ddrCe c a)).when ue (Dev.ddrUe c a)).endScrubs

/-- DDR_SCRUB_READ (R715). -/
def execDdrScrubRead (c addr : Nat) (ce ue : Bool) : State → Host.Outcome State Fault Refusal :=
  inDomain 7 (Dev.scrubRead c addr ce ue)

/-! ## Refresh and tracking -/

/-- A refresh interval of a rank ends: the refresh is issued with those postponed, or postponed during panic (R705). -/
def Dev.refresh (c rank : Nat) (hot : Bool) (d : Dev) : Dev :=
  let x := d.dch c
  if !(x.st = .serving) then d
  else
    let k := Tab.get 0 x.postponed rank
    d.modDch c (fun x => { x with
      refresh2x := hot, postponed := if x.panicPorts = 0 then Tab.set rank 0 x.postponed else Tab.set rank (min 4 (k + 1)) x.postponed })

/-- DDR_REFRESH_DUE (R705). -/
def execDdrRefreshDue (c rank : Nat) (hot : Bool) : State → Host.Outcome State Fault Refusal :=
  inDomain 7 (Dev.refresh c rank hot)

/-- Every TRACK_MS a serving channel is tracked as a DDR_RETRAIN activity, at once or when nothing blocks it (R703, R548). -/
def Dev.trackTimer (c : Nat) (d : Dev) : Dev :=
  if !((d.dch c).st = .serving) || (d.dch c).trackQueued then d
  else
    match d.openAct 8 c 0 0 none with
    | (_, none, d) => d.pumpActs (d.sched.acts.length + 1)
    | (id, some _, d) => d.modDch c (fun x => { x with trackQueued := true, trackAct := id })

/-- DDR_TRACK_TIMER (R703). -/
def execDdrTrackTimer (c : Nat) : State → Host.Outcome State Fault Refusal := inDomain 7 (Dev.trackTimer c)

/-! ## Activate counting -/

/-- One activate of a row in a bank's table of 64 entries (R710), and whether the row's neighbours are refreshed. -/
def countActivate (threshold row : Nat) (t : List ActEntry) : List ActEntry × Bool :=
  let bump (c : Nat) : Nat × Bool := if threshold ≤ c then (0, true) else (c, false)
  match t.find? (fun e => e.row = row) with
  | some e =>
    let r := bump (e.count + 1)
    (t.map (fun x => if x.row = row then { x with count := r.1 } else x), r.2)
  | none =>
    if t.length < 64 then
      let r := bump 1
      (t ++ [{ row := row, count := r.1 }], r.2)
    else
      let low := (t.map (·.count)).foldl min ((t.head?.map (·.count)).getD 0)
      let k := (t.findIdx? (fun e => e.count = low)).getD 0
      let r := bump (low + 1)
      (t.set k { row := row, count := r.1 }, r.2)

/-- A bank of channel c is activated at a row (R708, R710, R711). -/
def Dev.ddrActivate (c bank row : Nat) (d : Dev) : Dev :=
  d.modDch c (fun x =>
    let r := countActivate d.ddr.threshold row (Tab.get [] x.acts bank)
    { x with
      acts := Tab.set bank r.1 x.acts, openRow := Tab.set bank (row + 1) x.openRow, lastBank := bank,
      neighbours := if r.2 then satInc 32 x.neighbours else x.neighbours })

/-- DDR_ACT_TABLE_CLEAR (R710): every table is cleared. -/
def execDdrActTableClear : State → Host.Outcome State Fault Refusal :=
  inDomain 7 (forN 2 (fun c d => d.modDch c (fun x => { x with acts := [] })))

/-! ## Request scheduling -/

/-- Does a request find its row open? -/
def DdrCh.hit (x : DdrCh) (q : DdrReq) : Bool := Tab.get 0 x.openRow q.bank = q.row + 1

/-- Is a request of a real-time port (ports 0 and 1)? -/
def DdrReq.realTime (q : DdrReq) : Bool := decide (q.port < 2)

/-- May a request start while real-time ports are in panic (R709)? -/
def DdrCh.allowed (x : DdrCh) (q : DdrReq) : Bool := x.panicPorts = 0 || q.realTime || (x.hit q && !q.scrub)

/-- The panic bits of the real-time ports after their leads are measured (R707). -/
def DdrCh.panics' (x : DdrCh) (low high : Nat) (leads : List Nat) : List (Bool × Bool) :=
  (List.range 2).map (fun p =>
    let lead := leads.getD p high
    let was := x.panicPorts.testBit p
    (if was then decide (lead < high) else decide (lead < low), was))

/-- The leads of the real-time ports are measured (R707, R705). -/
def Dev.ddrLeads (c : Nat) (leads : List Nat) (d : Dev) : Dev :=
  d.modDch c (fun x =>
    let l := x.panics' d.ddr.panicLow d.ddr.panicHigh leads
    let bits := (l.zipIdx.map (fun e => if e.1.1 then 2 ^ e.2 else 0)).sum
    { x with
      panicPorts := bits, panics := min (2 ^ 32 - 1) (x.panics + (l.filter (fun e => e.1 && !e.2)).length),
      postponed := if bits = 0 then [] else x.postponed })

/-- Arriving requests enter the bank queues (16 reads a bank) and the write buffer (64 bursts), as far as these take them. -/
def DdrCh.arrive (x : DdrCh) (a : DdrArrival) : DdrCh :=
  let q : DdrReq := { port := a.port, bank := a.bank % 32, row := a.row, write := a.write, scrub := a.scrub }
  if a.write then (if x.wbuf.length < 64 then { x with wbuf := x.wbuf ++ [q] } else x)
  else if (x.reqs.filter (fun r => r.bank = q.bank)).length < 16 then { x with reqs := x.reqs ++ [q] } else x

/-- The request of rule 3 of R708: the first bank with a ready request after the one last activated; in it a row hit first,
or the oldest after 8 consecutive hits. -/
def DdrCh.rotate (x : DdrCh) : Option DdrReq :=
  let ready := x.reqs.filter x.allowed
  match ((List.range 32).map (fun k => (x.lastBank + 1 + k) % 32)).find? (fun b => ready.any (fun q => q.bank = b)) with
  | none => none
  | some b =>
    let l := ready.filter (fun q => q.bank = b)
    if 8 ≤ x.hits then l.head? else (l.find? x.hit).orElse (fun _ => l.head?)

/-- Is a write drain running at this slot (R708)? -/
def DdrCh.draining (x : DdrCh) : Bool := x.drain || decide (48 ≤ x.wbuf.length) || x.reqs.isEmpty

/-- The request a command slot picks (R708, R709). -/
def DdrCh.pick (x : DdrCh) : Option DdrReq :=
  match x.reqs.find? (fun q => q.realTime && x.panicPorts.testBit q.port) with
  | some q => some q
  | none =>
    match (if x.draining then x.wbuf.find? x.allowed else none) with
    | some q => some q
    | none => x.rotate

/-- The picked request leaves its queue; its row is opened where it is not (R708, R710). -/
def Dev.ddrServe (c : Nat) (q : DdrReq) (d : Dev) : Dev :=
  let x := d.dch c
  let hit := x.hit q
  let d := d.modDch c (fun x => { x with
    reqs := if q.write then x.reqs else x.reqs.erase q, wbuf := if q.write then x.wbuf.erase q else x.wbuf,
    drain := if q.write then decide (17 < x.wbuf.length) else x.drain && decide (16 < x.wbuf.length),
    hits := if hit then (if 8 ≤ x.hits then 1 else x.hits + 1) else 0 })
  if hit then d else d.ddrActivate c q.bank q.row

/-- A command slot of channel c (R707 to R710). -/
def Dev.ddrSlot (c : Nat) (arrivals : List DdrArrival) (leads : List Nat) (d : Dev) : Dev :=
  if !((d.dch c).st = .serving) then d
  else
    let d := (d.ddrLeads c leads).modDch c (fun x => arrivals.foldl DdrCh.arrive x)
    match (d.dch c).pick with
    | none => d
    | some q => d.ddrServe c q

/-- DDR_COMMAND_SLOT (R708). -/
def execDdrCommandSlot (c : Nat) (arrivals : List DdrArrival) (leads : List Nat) : State → Host.Outcome State Fault Refusal :=
  inDomain 7 (Dev.ddrSlot c arrivals leads)

/-! ## Retraining -/

/-- A training of channel c outside the boot ends (R702, R704, R735): a MEM_RETRAIN completes, a MEM_REINIT only when the channel
serves; a channel that fails loses Cairn (R87). -/
def Dev.retrained (c : Nat) (ok : Bool) (d : Dev) : Dev :=
  let x := d.dch c
  if !(x.st = .training) then d
  else
    let keep := !ok && x.retrainRef.any (fun q => (d.packet? q).any (fun p => p.op = 0x0DFF))
    let d := d.modDch c (fun x => { x with
      st := if ok then .serving else .failed, trainFail := x.trainFail || !ok, fullRetrain := false, trackAct := 0,
      retrainRef := if keep then x.retrainRef else none })
    let d := if ok then d else (d.raise (204 + c) 0).loseCairn
    let d := if keep then d else d.complete? x.retrainRef .done 0 0
    if x.trackAct = 0 then d else d.endAct x.trackAct .done

/-- Is a stream's work on the web or a DMA transfer running (R734)? -/
def Dev.memBusy (d : Dev) : Bool := d.anyOnWeb || (List.range 32).any (fun c => (d.chan c).st = .running)

/-- Checks of MEM_RETRAIN (R734). -/
def chkMemRetrain (p : Packet) (d : Dev) : Option Status :=
  firstFail
    [(!p.resvOk [(0, 1, 31)], .malformed),
     ((d.dch p.target).st = .unpopulated, .refused),
     (p.flag 0 0 && d.memBusy, .busy)]

/-- MEM_RETRAIN (R703, R704). -/
def runMemRetrain (p : Packet) (d : Dev) : Dev :=
  d.startDeviceAct p 8 p.target (if p.flag 0 0 then 2 else 1)

/-- MEM_RETRAIN (R704). -/
def execMemRetrain (r seq : Nat) : State → Host.Outcome State Fault Refusal :=
  opRow 0x0D01 chkMemRetrain (onPkt runMemRetrain) r seq

/-- Checks of MEM_REINIT (R734); an unpopulated channel declines it. -/
def chkMemReinit (p : Packet) (d : Dev) : Option Status :=
  firstFail [((d.dch p.target).st = .unpopulated, .refused), (d.memBusy, .busy)]

/-- MEM_REINIT (R735). -/
def runMemReinit (p : Packet) (d : Dev) : Dev :=
  let d := (d.spoilEvery 0x0B).executing p
  d.modDch p.target (fun x => { x with
    reqs := [], wbuf := [], drain := false, openRow := [], hits := 0, st := .training, fullRetrain := true,
    retrainRef := some p.ref })

/-- MEM_REINIT (R735). -/
def execMemReinit (r seq : Nat) : State → Host.Outcome State Fault Refusal :=
  opRow 0x0DFF chkMemReinit (onPkt runMemReinit) r seq

/-! ## MEM_SCRUB and MEM_ERR_READ -/

/-- Checks of MEM_SCRUB (R734); a field is held to its range where its command bit is set. -/
def chkMemScrub (p : Packet) (d : Dev) : Option Status :=
  let set := p.flag 0 0
  let range := p.flag 0 1
  let start := p.fld 8 0 40
  let len := p.fld 16 0 40
  firstFail
    [(!p.resvOk [(0, 2, 6), (1, 0, 8), (3, 0, 40), (13, 0, 24), (21, 0, 24)], .malformed),
     (set && (p.fld 2 0 8 = 0 || decide (168 < p.fld 2 0 8)), .badField),
     (range && (!(start % 64 = 0) || !(len % 64 = 0)), .badField),
     ((!set && !range) || (range && len = 0), .doneEmpty),
     (range && decide (d.ddr.totalMiB * 2 ^ 20 < start + len), .badField)]

/-- MEM_SCRUB (R735). -/
def runMemScrub (p : Packet) (d : Dev) : Dev :=
  let d := d.when (p.flag 0 0) (fun d => { d with ddr := { d.ddr with periodH := p.fld 2 0 8 } })
  if p.flag 0 1 then
    let x : Scrub := { Scrub.reset with ref := p.ref, pos := p.fld 8 0 40, stop := p.fld 8 0 40 + p.fld 16 0 40 }
    { d.executing p with ddr := { d.ddr with scrubs := d.ddr.scrubs ++ [x] } }
  else d.complete p.ref .done 0 0

/-- MEM_SCRUB (R735). -/
def execMemScrub (r seq : Nat) : State → Host.Outcome State Fault Refusal :=
  opRow 0x0D02 chkMemScrub (onPkt runMemScrub) r seq

/-- Checks of MEM_ERR_READ (R7). -/
def chkMemErrRead (p : Packet) (_ : Dev) : Option Status := firstFail [(!p.resvOk [(0, 1, 31)], .malformed)]

/-- MEM_ERR_READ (R735). -/
def runMemErrRead (p : Packet) (d : Dev) : Dev :=
  let clear := p.flag 0 0
  if p.target < 16 then
    let x := d.dch p.target
    let d := d.when clear (Dev.modDch p.target (fun x => { x with errAddr := 0, errRegion := 0, errUe := false }))
    d.complete p.ref .done (x.errAddr + 2 ^ 40 * b2n x.errUe) (min 65535 x.ce)
  else
    let n := p.target - 16
    let b := d.bank n
    let d := d.when clear (Dev.modBank n (fun b => { b with errOff := 0, errUe := false }))
    d.complete p.ref .done (b.errOff + 2 ^ 40 * b2n b.errUe) (min 65535 b.ce)

/-- MEM_ERR_READ (R735). -/
def execMemErrRead (r seq : Nat) : State → Host.Outcome State Fault Refusal :=
  opRow 0x0D04 chkMemErrRead (onPkt runMemErrRead) r seq

/-! ## Handovers -/

/-- Is an activity of a kind open on a bank? -/
def Dev.bankAct (d : Dev) (kind n : Nat) : Option Activity := d.sched.acts.find? (fun a => a.kind = kind && a.res = n)

/-- Checks of MEM_BANK_HANDOVER (R734); a bank whose handover is itself an activity queues the next one. -/
def chkMemBankHandover (p : Packet) (d : Dev) : Option Status :=
  let n := p.target
  let owner := p.fld 0 0 2
  let power := p.fld 0 2 2
  let d' := d.when (d.bankAct 7 n).isSome (Dev.modBank n (fun b => { b with busy := false }))
  firstFail
    [(!p.resvOk [(0, 4, 28)], .malformed), (owner = 3 || power = 3, .badField),
     (d.handSame n owner power, .doneEmpty), (d'.handRefused n owner power false, .refused)]

/-- MEM_BANK_HANDOVER (R717). -/
def runMemBankHandover (p : Packet) (d : Dev) : Dev := d.startDeviceAct p 7 p.target (p.fld 0 0 2 + 4 * p.fld 0 2 2)

/-- MEM_BANK_HANDOVER (R733). -/
def execMemBankHandover (r seq : Nat) : State → Host.Outcome State Fault Refusal :=
  opRow 0x0D00 chkMemBankHandover (onPkt runMemBankHandover) r seq

/-- Do the SRAMC registers answer: PD_6 is ON or in RET (R870)? -/
def Dev.sramOn (d : Dev) : Bool := d.sys.powered && (d.dom 6 = .on || d.dom 6 = .ret)

/-- A write of SRAMC_BANK_CTRL (R719, R720, R740). -/
def Dev.bankCtrl (n v : Nat) (d : Dev) : Dev :=
  let owner := bits v 0 2
  let power := bits v 2 2
  let d := d.modBank n (fun b => { b with reqOwner := owner, reqPower := power })
  if d.handSame n owner power then d
  else if d.handRefused n owner power true then d.modBank n (fun b => { b with refused := true })
  else d.handBegin n owner power

/-- SRAMC_BANK_CTRL_WRITE (R719). -/
def execSramcBankCtrlWrite (n : Nat) (value : BitVec 32) (s : State) : Host.Outcome State Fault Refusal :=
  if s.dev.sramOn then .next (s.onDev (Dev.bankCtrl n value.toNat)).settle else .next s

/-- Does the descriptor of a running transfer read or write bank n through BAR2 offsets (R883)? -/
def dmaInBank (t : Tab Nat) (n : Nat) : Option (Bool × Nat) :=
  let len := descLen t
  let src := descFld t 0 0 64
  let dst := descFld t 8 0 64
  if descDst t = 2 && (banksOf dst len).contains n then some (true, dst)
  else if descSrc t = 2 && (banksOf src len).contains n then some (false, src) else none

/-- A bank leaves HOST: transfers that read or write it halt with kind BOUND (R883). -/
def State.bankLeaves (n : Nat) (s : State) : State :=
  (List.range 32).foldl (fun s c =>
    match (if (s.dev.chan c).st = .running then dmaInBank (s.dev.chan c).act n else none) with
    | some (dir, a) => s.dmaFail c 6 dir a []
    | none => s) s

/-- The handover of bank n ends: its contents are cleared and the new owner and power state are set (R719, R883, R735). -/
def State.bankCleared (n : Nat) (s : State) : State :=
  let b := s.dev.bank n
  if !b.busy then s
  else
    let s := if b.owner = 2 && !(b.newOwner = 2) then s.bankLeaves n else s
    let s := { s with mem := { s.mem with sram := Memory.clear (n * bankBytes) bankBytes s.mem.sram } }
    s.onDev (fun d =>
      let d := (d.modBank n (fun b => { b with
        busy := false, owner := b.newOwner, power := b.newPower, handRef := none, handAct := 0 })).complete? b.handRef .done 0 0
      if b.handAct = 0 then d else d.endAct b.handAct .done)

/-- BANK_CLEAR_END (R719). -/
def execBankClearEnd (n : Nat) : State → Host.Outcome State Fault Refusal := inDomainS 6 (State.bankCleared n)

/-- A bank in RET that an access woke is ON (R725). -/
def Dev.bankWoken (n : Nat) (d : Dev) : Dev := d.modBank n (fun b => if b.power = 1 then { b with power := 0 } else b)

/-- BANK_WAKE_END (R725). -/
def execBankWakeEnd (n : Nat) : State → Host.Outcome State Fault Refusal := inDomain 6 (Dev.bankWoken n)

/-! ## Scree -/

/-- Checks of MEM_SCREE (R734); INTERVAL_US is held to its range where ENABLE is 1. -/
def chkMemScree (p : Packet) (d : Dev) : Option Status :=
  let n := p.target
  let b := d.bank n
  let us := p.fld 4 0 32
  let has := b.scree || (d.bankAct 6 n).isSome
  let en := p.flag 0 0
  firstFail
    [(!p.resvOk [(0, 2, 6), (1, 0, 24)], .malformed),
     (en && (decide (us < 10) || decide (100000 < us)), .badField),
     (en && decide (1 ≤ d.sched.stage), .powerShed),
     (en && !(b.power = 0), .refused),
     (en && has, .busy),
     (!en && !has, .doneEmpty)]

/-- Scree on a bank ends, with the activity's outcome (R735). -/
def Dev.screeStop (n : Nat) (d : Dev) : Dev :=
  let d := d.modBank n (fun b => { b with scree := false, screeAct := 0 })
  match d.bankAct 6 n with
  | none => d
  | some a => d.endAct a.id (if a.running then .done else .aborted)

/-- MEM_SCREE (R735). -/
def runMemScree (p : Packet) (d : Dev) : Dev :=
  if p.flag 0 0 then d.startDeviceAct p 6 p.target (p.fld 0 1 1 + 2 * p.fld 4 0 32)
  else (d.screeStop p.target).complete p.ref .done 0 0

/-- MEM_SCREE (R735). -/
def execMemScree (r seq : Nat) : State → Host.Outcome State Fault Refusal :=
  opRow 0x0D03 chkMemScree (onPkt runMemScree) r seq

/-- Scree tests the next region of a bank (R728 to R730): a failing region is counted and remapped while a spare is free. The
pass ends after 8,192 regions. -/
def Dev.screeRegion (n : Nat) (fails : Bool) (d : Dev) : Dev :=
  let b := d.bank n
  if !b.scree || !(b.power = 0) || 1 ≤ d.sched.stage then d
  else
    let spare := b.remaps.length < 8
    let last := 8191 ≤ b.screePos
    let d := d.modBank n (fun b => { b with
      screePos := if last then 0 else b.screePos + 1, screePass := if last then (b.screePass + 1) % 65536 else b.screePass,
      screeFails := if fails then satInc 32 b.screeFails else b.screeFails,
      remaps := if fails && spare then b.screePos :: b.remaps else b.remaps,
      sparesOut := b.sparesOut || (fails && !spare) })
    let d := d.when fails (Dev.raise 208 0)
    d.when (decide last && !b.screeCont) (Dev.screeStop n)

/-- SCREE_REGION_START (R729). -/
def execScreeRegionStart (n : Nat) (fails : Bool) : State → Host.Outcome State Fault Refusal :=
  inDomain 6 (Dev.screeRegion n fails)

/-! ## Errors in banks -/

/-- Home unit of a bank (R716): 0 DELAY, 1 SCREEN, 2 CODEC, 3 CAIRN. -/
def homeUnit (n : Nat) : Nat := if n ≤ 2 then 0 else if n ≤ 7 then 1 else if n ≤ 9 then 2 else 3

/-- An uncorrectable error acts by the bank's owner; st is the stream whose line or lane read the word (R731). -/
def Dev.bankUe (n st : Nat) (d : Dev) : Dev :=
  if (d.bank n).owner = 1 then
    match homeUnit n with
    | 0 => d.spoilAll st 0x0B
    | 1 => (d.spoilAll st 0x0B).discardScreened st
    | 2 => d.codecReset
    | _ => d.loseCairn
  else d

/-- A bank's ECC finds an error (R731). -/
def Dev.bankError (n offset : Nat) (ue : Bool) (st : Nat) (d : Dev) : Dev :=
  let off := offset % bankBytes / 8 * 8
  if ue then
    ((d.modBank n (fun b => { b with ue := satInc 32 b.ue, errUe := true, errOff := off })).raise 207 0).bankUe n st
  else (d.modBank n (fun b => { b with ce := satInc 32 b.ce, errUe := false, errOff := off })).raise 206 0

/-- SRAM_READ_ERROR (R731). -/
def execSramReadError (n offset : Nat) (ue : Bool) (st : Nat) : State → Host.Outcome State Fault Refusal :=
  inDomain 6 (Dev.bankError n offset ue st)

end Sys2Proof.Machine
end

