-- ==== Sys2Proof/Machine/Sched.lean ====
section
/-! DEFINITION. The device-wide regulators and the arbiter's commands (spec chapter 10): core voltage, AVSBus, die temperature,
shedding stages, the orderly stop, external budgets and models, head bias and maintenance activities. -/

namespace Sys2Proof.Machine

/-! ## Core voltage -/

/-- The AVS target is set: a Voltage write is started on the AVSBus (R535). -/
def Dev.setTarget (v : Nat) (d : Dev) : Dev :=
  if d.sched.target = v then d
  else ({ d with sched := { d.sched with target := v, avsBusy := d.sched.avsBusy ++ [0] } }).send (.avs 0 v)

/-- The measured line rate, lines a second (R433, R437). -/
def Dev.lineRate (d : Dev) : Rat := (((d.enc d.fire.src).v * 1000000000 : Nat) : Rat) / ((2 ^ 30 : Nat) : Rat)

/-- The voltages that the streams' COMMITTED and FIRING screened work needs at the measured line rate; VMAX where no step
suffices (R532). -/
def Dev.rateVoltages (d : Dev) : List Nat :=
  (List.range 4).flatMap (fun s => ((d.onWeb s).filter (fun i => !((d.entry i).desc.mode = 0))).map (fun i =>
    let e := d.entry i
    (d.voltageFor s (e.desc.threshWork e.degrade) d.lineRate).getD d.sched.vMaxMv))

/-- V_floor is computed, and a target below it is raised to it at once (R532 to R534). -/
def Dev.updFloor (d : Dev) : Dev :=
  let c := d.sched
  let v := (d.rateVoltages.foldl max (max c.vMinMv c.needV))
  let d := { d with sched := { c with vFloor := v } }
  if d.sched.target < v then d.setTarget v else d

/-- Does the core voltage loop run: the device sends no AVSBus command before it is operational (R744)? -/
def Dev.coreRuns (d : Dev) : Bool := d.sys.stage = .operational

/-- CORE_VFLOOR_UPDATE (R532). -/
def execCoreVfloorUpdate : State → Host.Outcome State Fault Refusal :=
  inDomain 5 (fun d => if d.coreRuns then d.updFloor else d)

/-- The least slack and its monitor (R533). -/
def Dev.setSlack (slack monitor : Nat) (d : Dev) : Dev :=
  { d with sched := { d.sched with slack := min 255 slack, slackMon := monitor % 64 } }

/-- The least slack is no longer below SLACK_LOW with the target at VMAX: FLT_SLACK ends. -/
def Dev.slackEnds (d : Dev) : Dev :=
  if d.sched.slackFault then ({ d with sched := { d.sched with slackFault := false } }).lower 91 else d

/-- Each 20 µs: a least slack below SLACK_LOW raises the target by 5 mV, or FLT_SLACK at VMAX (R533). -/
def Dev.slackRaise (slack monitor : Nat) (d : Dev) : Dev :=
  let d := d.setSlack slack monitor
  let c := d.sched
  if slack < c.slackLow then
    if c.target < c.vMaxMv then d.setTarget (min c.vMaxMv (c.target + 5))
    else if c.slackFault then d
    else ({ d with sched := { c with slackFault := true } }).raise 91 0
  else d.slackEnds

/-- CORE_SLACK_RAISE_TICK (R533). -/
def execCoreSlackRaiseTick (slack monitor : Nat) : State → Host.Outcome State Fault Refusal :=
  inDomain 0 (fun d => if d.coreRuns then d.slackRaise slack monitor else d)

/-- After 10 ms with the least slack above SLACK_HIGH the target falls by 5 mV, not below V_floor (R533). -/
def Dev.slackLower (slack monitor : Nat) (d : Dev) : Dev :=
  let d := (d.setSlack slack monitor).when (decide (d.sched.slackLow ≤ slack)) Dev.slackEnds
  let c := d.sched
  if c.slackHigh < slack && c.vFloor + 5 ≤ c.target then d.setTarget (c.target - 5) else d

/-- CORE_SLACK_LOWER_TIMER (R533). -/
def execCoreSlackLowerTimer (slack monitor : Nat) : State → Host.Outcome State Fault Refusal :=
  inDomain 0 (fun d => if d.coreRuns then d.slackLower slack monitor else d)

/-- Voltage, Current and Status are read over AVSBus (R535). -/
def Dev.avsRead (d : Dev) : Dev :=
  let d := { d with sched := { d.sched with avsBusy := d.sched.avsBusy ++ [1, 2, 3] } }
  ((d.send (.avs 1 0)).send (.avs 2 0)).send (.avs 3 0)

/-- AVS_POLL (R535). -/
def execAvsPoll : State → Host.Outcome State Fault Refusal := inDomain 0 (fun d => if d.coreRuns then d.avsRead else d)

/-- AVS_ALERT (R535). -/
def execAvsAlert : State → Host.Outcome State Fault Refusal := inDomain 0 (fun d => if d.coreRuns then d.avsRead else d)

/-- The oldest AVSBus transaction ends. A Voltage read gives the measured voltage, which is confirmed; three failures in a row
raise FLT_AVS, which ends with a transaction that succeeds (R535, R536). -/
def Dev.avsEnd (ok : Bool) (value : Nat) (d : Dev) : Dev :=
  let c := d.sched
  match c.avsBusy with
  | [] => d
  | k :: rest =>
    let c := { c with avsBusy := rest }
    if ok then
      let c := if k = 1 then { c with measured := value, confirmed := value } else c
      ({ d with sched := { c with avsErrRun := 0, avsFail := false } }).when c.avsFail (Dev.lower 92)
    else
      ({ d with sched := { c with avsErrRun := min 3 (c.avsErrRun + 1), avsFail := c.avsFail || decide (2 ≤ c.avsErrRun) } }).when
        (!c.avsFail && decide (2 ≤ c.avsErrRun)) (fun d => d.raise 92 0)

/-- AVS_TRANSACTION_END (R536). -/
def execAvsTransactionEnd (ok : Bool) (value : Nat) : State → Host.Outcome State Fault Refusal :=
  inDomain 0 (Dev.avsEnd ok value)

/-! ## Die temperature -/

/-- The die temperature, 1/16 °C: the highest sensor (R537). -/
def Sched.die (c : Sched) : Int := c.therm.foldl max (c.therm.headD 0)

/-- The token fraction f in units of 1/256, 255 standing for 1 (R538, R560). -/
def Sched.throttle (c : Sched) : Nat :=
  let t := c.die
  let lo : Int := 16 * c.throttleC
  let hi : Int := 16 * c.limitC
  if t < lo then 255
  else if hi ≤ t then 64
  else (256 - roundOpen 32 (192 * (t - lo)) (hi - lo)).toNat.min 255

/-- The die sensors are sampled (R537, R538). -/
def Dev.thermSample (temps : List Int) (d : Dev) : Dev :=
  let d := { d with sched := { d.sched with therm := (List.range 8).map (fun i => sInt 16 (twos 16 (temps.getD i 0))) } }
  let t := d.sched.die
  let d := if ((16 * d.sched.limitC : Nat) : Int) ≤ t then d.raise 93 0 else d.lower 93
  if (1760 : Int) ≤ t then d.raise 94 0 else d.lower 94

/-- THERM_SAMPLE (R538). -/
def execThermSample (temps : List Int) : State → Host.Outcome State Fault Refusal := inDomain 0 (Dev.thermSample temps)

/-! ## The orderly stop -/

/-- Can the device still write a checkpoint record (R80, R87)? -/
def Dev.ckptWrites (d : Dev) : Bool := d.imp.scanDone && !d.imp.ckptFail

/-- The wear history is written into the calibration region (R833). -/
def Dev.saveWear (d : Dev) : Dev := { d with wear := { d.wear with saved := some (d.wear.inds, d.wear.stored) } }

/-- The orderly stop begins: no further line is armed, CTRL BLANK follows the last armed line, every COMMITTED and FIRING imprint
is spoiled, the CLOSE record waits behind the SPOILED ones, every open capture block is flushed and the pending INCREMENT units
are written (R542, R74, R272, R499). -/
def Dev.orderlyStop (d : Dev) : Dev :=
  if d.sched.stopping then d
  else
    let d := { d with sched := { d.sched with stopping := true, stopDone := false } }
    let d := d.blankWhenFired.spoilEvery 0x0C
    let close : CkptJob := { record := { CkptRec.reset with event := 3 }, reports := [], index := none }
    let d := if d.ckptWrites then { d with imp := { d.imp with jobs := d.imp.jobs ++ [close] } } else d
    let d := forN 4 (fun s d => d.closeCaptures s 0 true) d
    forN 16 Dev.increment d

/-- SDRAM channels that serve are placed in self-refresh (R706). -/
def Dev.selfRefresh (d : Dev) : Dev :=
  forN 2 (fun c d => d.modDch c (fun x => if x.st = .serving then { x with st := .selfRefresh } else x)) d

/-- Core margin: VDD_CORE as the housekeeping ADC measured it through its divider of 1/2, against a bound on measured − target in
mV (R540, R767). -/
def Dev.marginAtMost (d : Dev) (mv : Int) : Bool :=
  decide ((Tab.get 0 d.pwr.hkInt 0 : Nat) * (3600 : Int) ≤ ((d.sched.target : Nat) + mv) * 4096)

/-- Is the input supply at its converter input at most so many per mille of IN_NOM, the monitor in use (R540, R557, R766)? -/
def Dev.supplyAtMost (d : Dev) (perMille : Nat) : Bool :=
  d.sched.inEn && decide (Tab.get 0 d.pwr.hkExt d.sched.inCh * 180 * 1000 ≤ perMille * d.sched.inNom * 4096)

/-- Do the last round's values call for stage k (R540)? -/
def Dev.stageCalled (d : Dev) (k : Nat) : Bool :=
  d.supplyAtMost (d.sched.shedIn.getD (k - 1) 0) || d.marginAtMost (d.sched.shedCm.getD (k - 1) 0)

/-- Do both values lie above stage k's thresholds by 1 % of IN_NOM and by 5 mV (R540)? -/
def Dev.stageClear (d : Dev) (k : Nat) : Bool :=
  !d.supplyAtMost (d.sched.shedIn.getD (k - 1) 0 + 10) && !d.marginAtMost (d.sched.shedCm.getD (k - 1) 0 + 5)

/-- Brushless channels hold or leave their present speed with the stage (R687). -/
def Dev.shedMotors (d : Dev) : Dev := forN 4 Dev.blShed d

/-- Stage k is entered (R540). Stages 1 to 4 act where the stage is read; stage 7 only after the orderly stop has ended (R544). -/
def Dev.enterStage (k : Nat) (d : Dev) : Dev :=
  if k = 7 then (if d.sched.stopDone then d.enterStage7 else d)
  else
    let d := { d with sched := { d.sched with stage := k } }
    match k with
    | 5 => (forN 8 Dev.axisShed d).shedMotors
    | 6 => d.orderlyStop
    | _ => d

/-- Every stage up to k is entered in turn (R540). -/
def Dev.shedTo (k : Nat) (d : Dev) : Dev :=
  forL ((List.range 7).map (· + 1)) (fun j d => if d.sched.stage < j && j ≤ k then d.enterStage j else d) d

/-- The deepest stage the last round's values call for. -/
def Dev.calledStage (d : Dev) : Nat := (((List.range 7).map (· + 1)).filter d.stageCalled).foldl max 0

/-- After a round of the housekeeping ADC of the operational device (R540, R767). -/
def Dev.shedUpdate (d : Dev) : Dev := if d.sys.stage = .operational then d.shedTo d.calledStage else d

/-- What follows the end of an orderly stop: the timed shutdown (R763, R782), or stage 7 where the supply calls for it (R544). -/
def Dev.afterStop (d : Dev) : Dev :=
  if d.pwr.cycling || d.pwr.timedDue then d.timedShutdown
  else if d.stageCalled 7 then d.enterStage7 else d

/-- The orderly stop ends: its records are programmed, SDRAM is in self-refresh, STOP_DONE is set and the wear history is written
(R542, R833). -/
def Dev.stopEnd (d : Dev) : Dev :=
  if d.sched.stopping && !d.anyArmed && (d.imp.jobs.isEmpty || !d.ckptWrites) then
    (({ d with sched := { d.sched with stopping := false, stopDone := true } }).selfRefresh.saveWear).afterStop
  else d

/-- ORDERLY_STOP_END (R542). -/
def execOrderlyStopEnd : State → Host.Outcome State Fault Refusal := inDomain 0 Dev.stopEnd

/-! ## External budgets and models -/

/-- Checks of PWR_SET_CAP (R524). -/
def chkPwrSetCap (p : Packet) (_ : Dev) : Option Status :=
  firstFail [(decide (p.fld 0 0 32 < 4000) || decide (15000 < p.fld 0 0 32), .badField)]

/-- PWR_SET_CAP (R524, R522). -/
def runPwrSetCap (p : Packet) (d : Dev) : Dev :=
  ({ d with sched := { d.sched with capMw := p.fld 0 0 32 } }).complete p.ref .done 0 0

/-- PWR_SET_CAP (R524). -/
def execPwrSetCap (r seq : Nat) : State → Host.Outcome State Fault Refusal :=
  opRow 0x0C03 chkPwrSetCap (onPkt runPwrSetCap) r seq

/-- A loop field names a loop from 0 to 31, or none (R525). -/
def loopFieldBad (n : Nat) : Bool := decide (32 ≤ n) && decide (n ≤ 254)

/-- Checks of PWR_SET_EXT_BUDGET (R525, R526). -/
def chkPwrSetExtBudget (p : Packet) (_ : Dev) : Option Status :=
  let kind := p.fld 0 0 2
  let size := if kind = 0 then 16 else if kind = 1 then 40 else 32
  let resv := [(0, 2, 6), (1, 0, 24)] ++
    (if kind = 0 then [(14, 0, 16)] else if kind = 1 then [(29, 0, 8)]
     else [(4, 4, 4), (6, 0, 16), (13, 0, 24), (30, 0, 16)])
  firstFail
    [(kind = 3, .badField),
     ((kind = 0 && !(p.target = 0)) || (kind = 2 && decide (7 < p.target)), .badTarget),
     (!(p.payload.length = size), .badLength),
     (!p.resvOk resv, .malformed),
     (kind = 1 && (loopFieldBad (p.fld 6 0 8) || loopFieldBad (p.fld 7 0 8) || p.fld 32 0 16 = 0 ||
       !(p.sfld 38 0 16 < p.sfld 34 0 16) || !(p.sfld 34 0 16 < p.sfld 36 0 16)), .badField),
     (kind = 2 && (loopFieldBad (p.fld 5 0 8) || decide (p.fld 20 0 32 < p.fld 16 0 32)), .badField)]

/-- A port's model is replaced; a heater loop that R530 holds at 0 follows the model's HEATER_LOOP. -/
def Dev.setPortModel (p : Packet) (d : Dev) : Dev :=
  let old := d.pmodel p.target
  let d := d.when old.warn (Dev.forceHeat old.heaterLoop false)
  let d := d.modPmodel p.target (fun m => { m with
    idleMw := p.fld 4 0 16, heaterLoop := p.fld 6 0 8, pumpLoop := p.fld 7 0 8,
    eDrop := (List.range 7).map (fun k => p.fld (8 + 2 * k) 0 16), vol := (List.range 7).map (fun k => p.fld (22 + k) 0 8),
    rTh := p.fld 30 0 16, tauMs := p.fld 32 0 16, warnT := p.sfld 34 0 16, critT := p.sfld 36 0 16, resumeT := p.sfld 38 0 16 })
  d.when old.warn (Dev.forceHeat (p.fld 6 0 8) true)

/-- PWR_SET_EXT_BUDGET (R525). -/
def runPwrSetExtBudget (p : Packet) (d : Dev) : Dev :=
  let d := match p.fld 0 0 2 with
    | 0 => { d with sched := { d.sched with headMw := p.fld 4 0 32, dryerMw := p.fld 8 0 32, maxSpacing := p.fld 12 0 16 } }
    | 1 => d.setPortModel p
    | _ => d.modZone p.target (fun z => { z with
        mask := p.fld 4 0 4, loop := p.fld 5 0 8, dist := p.fld 8 0 40, idleMw := p.fld 16 0 32, maxMw := p.fld 20 0 32,
        k := p.fld 24 0 32, leadMs := p.fld 28 0 16 })
  d.complete p.ref .done 0 0

/-- PWR_SET_EXT_BUDGET (R526). -/
def execPwrSetExtBudget (r seq : Nat) : State → Host.Outcome State Fault Refusal :=
  opRow 0x0C04 chkPwrSetExtBudget (onPkt runPwrSetExtBudget) r seq

/-! ## Head bias and held attempts -/

/-- The drop power of port p on the lines that fire now, mW (R512). -/
def Dev.dropNow (d : Dev) (p : Nat) : Rat :=
  match d.streamOf p with
  | none => 0
  | some s => ((workAt (d.committedWork.filter (fun x => x.stream = s)) (d.fire.s / 2 ^ 16)).map (fun x =>
      x.power.getD ((d.nst s).indexOf p) 0)).sum

/-- Each 100 ms the BIAS of an UP port moves towards the measured temperature minus the predicted one with a time constant of 1 s,
between 0 and 10 °C; a measurement more than 2 °C above the prediction for 1 s raises FLT_SCHED_MODEL (R531). -/
def Dev.heatBias (p : Nat) (d : Dev) : Dev :=
  if !((d.hp p).st = .up) then d
  else
    let t := (d.hp p).temp
    let m := d.pmodel p
    let diff := t - m.pred
    let high := if 32 < diff then min 1100 (m.overMs + 100) else 0
    let bias := clampI (m.bias + roundOpen 31 ((diff - m.bias) * Config.expRise 1 10) (2 ^ 32)) 0 160
    let d := d.modPmodel p (fun m => { m with bias := bias.toNat, overMs := high })
    let d := d.modPmodel p (fun m => { m with pred := d.heatStep p 10 t 1 (d.dropNow p) })
    d.when (high = 1000) (fun d => d.raise 90 0)

/-- HEAT_BIAS_UPDATE (R531). -/
def execHeatBiasUpdate : State → Host.Outcome State Fault Refusal := inDomain 5 (fun d => forN 16 Dev.heatBias d)

/-- The first imprint of a stream that is not COMMITTED or FIRING. -/
def Dev.candidate (d : Dev) (s : Nat) : Option Nat := (d.ist s).queue.find? (fun i => !(d.entry i).onWeb)

/-- A held attempt that has waited 100 ms and would fit with a stronger permitted set is screened again with it (R520). -/
def Dev.restage (s : Nat) (d : Dev) : Dev :=
  match d.candidate s with
  | none => d
  | some i =>
    let e := d.entry i
    let now : Degrade := { thresh := e.degThresh, reduce := e.degReduce }
    let waited := e.held && e.heldAt.any (fun t => decide (t + 100000000 ≤ d.ns))
    match (((e.desc.sets.dropWhile (fun g => !(g = now))).drop 1).find? (fun g => d.fits e g)).filter (fun _ => waited) with
    | none => d
    | some g =>
      let d := match (d.sst s).cur with
        | some j => d.modEntry j (fun e => { e with lines := [], carry := [], staged := false })
        | none => d
      let d := d.adopt s
      let d := d.modEntry i (fun e => { e with
        degThresh := g.thresh, degReduce := g.reduce, shedFallback := false, lines := [], staged := false, held := false,
        heldAt := none, carry := List.replicate (d.nst s).width 0 })
      d.modSst s (fun x => { x with
        cur := some i, degraded := if now.thresh || now.reduce then x.degraded else satInc 32 x.degraded })

/-- HELD_ATTEMPT_TIMER (R520). -/
def execHeldAttemptTimer (st : Nat) : State → Host.Outcome State Fault Refusal := inDomain 5 (Dev.restage st)

/-! ## Maintenance activities -/

/-- Has a stream of a port in the mask an imprint on the web (R551)? -/
def Dev.portsOnWeb (d : Dev) (mask : Nat) : Bool := (List.range 16).any (fun p => mask.testBit p && (d.streamOf p).any (fun s =>
  !(d.onWeb s).isEmpty))

/-- Checks of MAINT_START (R549, R551). -/
def chkMaintStart (p : Packet) (d : Dev) : Option Status :=
  let kind := p.fld 0 0 4
  let mask := p.fld 2 0 16
  let ms := p.fld 4 0 32
  firstFail
    [(!p.resvOk [(0, 4, 4), (1, 0, 8)], .malformed),
     (kind = 0 || decide (4 < kind) || mask = 0 || ms = 0 || decide (600000 < ms), .badField),
     (decide (64 ≤ d.sched.acts.length), .noResource),
     (decide (kind ≤ 3) && d.portsOnWeb mask, .refused)]

/-- MAINT_START: the activity runs, or is queued behind its first blocker (R548, R549). -/
def runMaintStart (p : Packet) (d : Dev) : Dev :=
  match d.openAct (p.fld 0 0 4) (p.fld 2 0 16) (p.fld 4 0 32) 0 none with
  | (id, none, d) => (d.pumpActs (d.sched.acts.length + 1)).complete p.ref .done 0 id
  | (id, some b, d) => d.complete p.ref .queued b id

/-- MAINT_START (R549). -/
def execMaintStart (r seq : Nat) : State → Host.Outcome State Fault Refusal :=
  opRow 0x0F00 chkMaintStart (onPkt runMaintStart) r seq

/-- Checks of MAINT_END (R553). -/
def chkMaintEnd (p : Packet) (d : Dev) : Option Status :=
  let id := p.fld 0 0 16
  firstFail
    [(!p.resvOk [(2, 0, 48)], .malformed),
     ((d.act? id).any (fun a => decide (5 ≤ a.kind)), .refused),
     ((d.act? id).isNone && (d.endedAct id).isSome, .doneEmpty),
     ((d.act? id).isNone, .unknownId)]

/-- MAINT_END (R553). -/
def runMaintEnd (p : Packet) (d : Dev) : Dev :=
  let id := p.fld 0 0 16
  let outcome := if (d.act? id).any (·.running) then Status.done else Status.aborted
  (d.endAct id outcome).complete p.ref .done 0 0

/-- MAINT_END (R553). -/
def execMaintEnd (r seq : Nat) : State → Host.Outcome State Fault Refusal :=
  opRow 0x0F01 chkMaintEnd (onPkt runMaintEnd) r seq

/-- The present first blocker of an activity (R548, R554). -/
def Dev.blockerOf (d : Dev) (id : Nat) : Nat := ((d.act? id).bind (blocker d.sched.acts)).elim 0 (·.id)

/-- Checks of MAINT_QUERY (R554). -/
def chkMaintQuery (p : Packet) (d : Dev) : Option Status :=
  let id := p.fld 0 0 16
  firstFail
    [(!p.resvOk [(2, 0, 16)], .malformed),
     (decide (16000000 < p.fld 4 0 32), .badField),
     ((d.act? id).isNone && (d.endedAct id).isNone, .unknownId)]

/-- MAINT_QUERY: answers a running or ended activity at once and waits for a queued one (R554). -/
def runMaintQuery (p : Packet) (d : Dev) : Dev :=
  let id := p.fld 0 0 16
  match d.act? id with
  | some a =>
    if a.running then d.complete p.ref .done 0 1
    else if p.fld 4 0 32 = 0 then d.complete p.ref .timeout (d.blockerOf id) 0
    else d.modPacket p.ref (fun q => { q with phase := .executing, activity := id })
  | none => d.complete p.ref .done 0 (2 + 2 ^ 8 * ((d.endedAct id).elim 0 Status.code))

/-- MAINT_QUERY (R554). -/
def execMaintQuery (r seq : Nat) : State → Host.Outcome State Fault Refusal :=
  opRow 0x0F02 chkMaintQuery (onPkt runMaintQuery) r seq

/-- A MAINT_QUERY has waited TIMEOUT_US (R554). -/
def Dev.queryTimeout (ref : PktRef) (d : Dev) : Dev :=
  match (d.packet? ref).filter (fun p => p.op = 0x0F02 && p.phase = .executing) with
  | none => d
  | some p => d.complete ref .timeout (d.blockerOf p.activity) 0

/-- MAINT_QUERY_TIMEOUT (R554). -/
def execMaintQueryTimeout (r seq : Nat) : State → Host.Outcome State Fault Refusal := inDomain 5 (Dev.queryTimeout (r, seq))

/-- A host activity has run MAX_MS (R552). -/
def Dev.actTimeout (id : Nat) (d : Dev) : Dev :=
  if (d.act? id).any (fun a => a.running && decide (a.kind ≤ 4)) then d.endAct id .timeout else d

/-- MAINT_ACTIVITY_TIMEOUT (R552). -/
def execMaintActivityTimeout (id : Nat) : State → Host.Outcome State Fault Refusal := inDomain 5 (Dev.actTimeout id)

/-- Checks of MAINT_REINIT. -/
def chkMaintReinit (_ : Packet) (_ : Dev) : Option Status := none

/-- MAINT_REINIT: every host activity ends with ABORTED (R115). -/
def runMaintReinit (p : Packet) (d : Dev) : Dev :=
  let host := (d.sched.acts.filter (fun a => decide (a.kind ≤ 4))).map (·.id)
  (forL host (fun id d => d.endAct id .aborted) d).complete p.ref .done 0 0

/-- MAINT_REINIT (R115). -/
def execMaintReinit (r seq : Nat) : State → Host.Outcome State Fault Refusal :=
  opRow 0x0FFF chkMaintReinit (onPkt runMaintReinit) r seq

end Sys2Proof.Machine
end

