-- ==== Sys2Proof/Machine/Power.lean ====
section
/-! DEFINITION. Rails, power domains, system reset outputs, the housekeeping ADC, clocks and bridges (spec chapter 15). -/

namespace Sys2Proof.Machine

/-! ## Rails -/

/-- Is rail n in a power-up step? -/
def Rail.inStep (r : Rail) : Bool := r.st = .rising || r.st = .qualifying

/-- A rail's sense voltage has changed (R752, R759, R801): it enters or leaves its good range, or exceeds OV during its step. -/
def Dev.railSense (n mv : Nat) (d : Dev) : Dev :=
  let r := d.rail n
  let good := decide (r.uv < mv) && decide (mv < r.ov)
  let d := d.modRail n (fun r => { r with good := good })
  if r.inStep && decide (r.ov < mv) then d.railFails n 3
  else if r.st = .rising && good then d.modRail n (fun r => { r with st := .qualifying })
  else if r.st = .qualifying && !good then
    let d := d.modRail n (fun r => { r with st := .rising, chatter := r.chatter + 1 })
    if r.chatterLimit < r.chatter + 1 then d.railFails n 2 else d
  else d

/-- RAIL_GOOD_CHANGE (R752). -/
def execRailGoodChange (n mv : Nat) : State → Host.Outcome State Fault Refusal := inDomain 0 (Dev.railSense n mv)

/-- A rail has been good for QUAL: it is UP and the sequence goes on (R752). -/
def Dev.railUp (n riseUs : Nat) (d : Dev) : Dev :=
  if (d.rail n).st = .qualifying then (d.modRail n (fun r => { r with st := .up, riseUs := riseUs % 2 ^ 32 })).seqGo else d

/-- RAIL_QUAL_END (R752). -/
def execRailQualEnd (n riseUs : Nat) : State → Host.Outcome State Fault Refusal := inDomain 0 (Dev.railUp n riseUs)

/-- RAIL_RISE_TIMEOUT (R759): the rail is not good RISE_MS after PEN_n was asserted. -/
def execRailRiseTimeout (n : Nat) : State → Host.Outcome State Fault Refusal :=
  inDomain 0 (fun d => if (d.rail n).st = .rising then d.railFails n 1 else d)

/-- A released rail has fallen below OFF: its step of the shutdown ends (R753). -/
def Dev.railOff (n : Nat) (d : Dev) : Dev :=
  if (d.rail n).st = .falling then (d.modRail n (fun r => { r with st := .off, good := false })).seqGo else d

/-- RAIL_BELOW_OFF (R753). -/
def execRailBelowOff (n : Nat) : State → Host.Outcome State Fault Refusal := inDomain 0 (Dev.railOff n)

/-- A released rail has not fallen below OFF within FALL_MS: the shutdown goes on all the same (R753). -/
def Dev.railStuck (n : Nat) (d : Dev) : Dev :=
  if (d.rail n).st = .falling then
    ((((d.railCause n 5).modRail n (fun r => { r with st := .off })).raise (225 + n) 0)).seqGo else d

/-- RAIL_FALL_TIMEOUT (R753). -/
def execRailFallTimeout (n : Nat) : State → Host.Outcome State Fault Refusal := inDomain 0 (Dev.railStuck n)

/-- The device goes down as for PFW_n: stage 6 with every stage below it, the orderly stop, and the timed shutdown after it; at
once where a stop has ended already (R543, R760, R762, R763). -/
def Dev.powerFail (d : Dev) : Dev :=
  if d.goingDown then d
  else
    let d := { d with pwr := { d.pwr with timedDue := true } }
    if d.sched.stopDone then d.timedShutdown else (d.shedTo 6).orderlyStop

/-- An UP rail has been outside its good range for 10 µs (R760). -/
def Dev.runFault (n : Nat) (d : Dev) : Dev :=
  let r := d.rail n
  if r.st = .up && !r.good && !r.warning then
    let d := (((d.railCause n 4).modRail n (fun r => { r with fails := satInc 32 r.fails })).raise (209 + n) 0).msix 1
    if r.failDevice then d.powerFail else d.modRail n (fun r => { r with warning := true })
  else d

/-- RAIL_RUN_FAULT (R760). -/
def execRailRunFault (n : Nat) : State → Host.Outcome State Fault Refusal := inDomain 0 (Dev.runFault n)

/-- Enabled rails of a mask and their enabled dependants (R755, R760, R818). -/
def Dev.enabledWith (d : Dev) (mask : Nat) : List Nat := (d.dependants 16 (railsOf mask)).filter (fun n => (d.rail n).en)

/-- RAIL_WARN has passed: the failed rail's dependants and the rail itself are shut down (R760). -/
def Dev.warnEnd (n : Nat) (d : Dev) : Dev :=
  if (d.rail n).warning then
    let d := d.modRail n (fun r => { r with warning := false })
    d.seqRequest { kind := .shutdown, mask := maskOf (d.enabledWith (2 ^ n)), ref := none }
  else d

/-- RAIL_WARN_END (R760). -/
def execRailWarnEnd (n : Nat) : State → Host.Outcome State Fault Refusal := inDomain 0 (Dev.warnEnd n)

/-- The boot rails are started (R743); a device in Saddle mode stays there (R828). -/
def Dev.bootRails (d : Dev) : Dev :=
  let g : Stage := if d.sys.stage = .saddle || d.sys.stage = .noImage then d.sys.stage else .rails
  ({ d with sys := { d.sys with stage := g }, pwr := { d.pwr with bootRetry := false } }).seqRequest
    { kind := .boot, mask := 0x1F, ref := none }

/-- BOOT_RAIL_RETRY (R745): once the rails that were on are down. -/
def execBootRailRetry : State → Host.Outcome State Fault Refusal :=
  inDomain 0 (fun d => if d.pwr.bootRetry && d.pwr.seqKind = .idle then d.bootRails else d)

/-! ## Rail commands -/

/-- (ORDER, rail number) of rail a below that of rail b (R750). -/
def Dev.railBefore (d : Dev) (a b order : Nat) : Bool :=
  decide ((d.rail a).order < order) || ((d.rail a).order = order && decide (a < b))

/-- Does a field of PWR_RAIL_CONFIG lie outside its range, or PREREQ break R750? -/
def Dev.railBad (d : Dev) (p : Packet) : Bool :=
  let uv := p.fld 4 0 16
  let ov := p.fld 6 0 16
  let off := p.fld 8 0 16
  let out (x lo hi : Nat) : Bool := decide (x < lo) || decide (hi < x)
  p.fld 1 0 4 = 0 || out uv 50 1790 || out ov (uv + 1) 1800 || decide (off < 10) || decide (uv ≤ off) || out (p.fld 10 0 16) 1 250 ||
  out (p.fld 12 0 16) 1 1000 || out (p.fld 14 0 16) 1 1000 ||
  (railsOf (p.fld 2 0 16)).any (fun m => m = p.target || (decide (5 ≤ m) &&
    (!(d.rail m).configured || !d.railBefore m p.target (p.fld 0 0 4))))

/-- Checks of PWR_RAIL_CONFIG (R746, R750). -/
def chkPwrRailConfig (p : Packet) (d : Dev) : Option Status :=
  let r := d.rail p.target
  firstFail
    [(!p.resvOk [(0, 6, 2), (1, 4, 4)], .malformed),
     (decide (p.target < 5), .refused),
     (d.railBad p, .badField),
     (!(r.st = .off || r.st = .failed), .busy)]

/-- PWR_RAIL_CONFIG (R749). PEN_n is released, at the level the new EN_ACTIVE_HIGH gives. -/
def runPwrRailConfig (p : Packet) (d : Dev) : Dev :=
  let d := d.modRail p.target (fun r => { r with
    configured := true, order := p.fld 0 0 4, failDevice := p.flag 0 4, enActiveHigh := p.flag 0 5, chatterLimit := p.fld 1 0 4,
    prereq := p.fld 2 0 16, uv := p.fld 4 0 16, ov := p.fld 6 0 16, off := p.fld 8 0 16, qual := p.fld 10 0 16,
    riseMs := p.fld 12 0 16, fallMs := p.fld 14 0 16 })
  (d.penOut p.target false).complete p.ref .done 0 0

/-- PWR_RAIL_CONFIG (R750). -/
def execPwrRailConfig (r seq : Nat) : State → Host.Outcome State Fault Refusal :=
  opRow 0x0C00 chkPwrRailConfig (onPkt runPwrRailConfig) r seq

/-- Checks of the payload of PWR_RAIL_ON and PWR_RAIL_OFF (R746, R754). -/
def railMaskRows (p : Packet) : List (Bool × Status) :=
  [(!p.resvOk [(2, 0, 16)], .malformed), (!(p.fld 0 0 5 = 0), .refused)]

/-- Checks of PWR_RAIL_ON that carry no RESULT (R746). -/
def chkPwrRailOn (p : Packet) (_ : Dev) : Option Status := firstFail (railMaskRows p)

/-- How a PWR_RAIL_ON ends at once: each of these outcomes carries the RESULT of R754 (R117, R541, R754). -/
def Dev.railOnEnds (d : Dev) (mask : Nat) : Option Status :=
  let l := railsOf mask
  let isUp (n : Nat) : Bool := (d.rail n).st = .up
  firstFail
    [(l.any (fun n => !(d.rail n).configured), .refused),
     (l.any (fun n => (railsOf (d.rail n).prereq).any (fun m => !isUp m && !mask.testBit m)), .refused),
     (d.flt.held && !l.all isUp, .safeState),
     (decide (5 ≤ d.sched.stage), .powerShed),
     (l.all isUp, .doneEmpty)]

/-- PWR_RAIL_ON (R754). -/
def runPwrRailOn (p : Packet) (d : Dev) : Dev :=
  let mask := p.fld 0 0 16
  match d.railOnEnds mask with
  | some st => d.complete p.ref st (d.onResult mask) 0
  | none => (d.executing p).seqRequest { kind := .powerUp, mask := mask, ref := some p.ref }

/-- PWR_RAIL_ON (R754). -/
def execPwrRailOn (r seq : Nat) : State → Host.Outcome State Fault Refusal :=
  opRow 0x0C01 chkPwrRailOn (onPkt runPwrRailOn) r seq

/-- Checks of PWR_RAIL_OFF (R746). -/
def chkPwrRailOff (p : Packet) (_ : Dev) : Option Status := firstFail (railMaskRows p)

/-- PWR_RAIL_OFF: the enabled rails of MASK and their enabled dependants are shut down; a FAILED rail in MASK becomes OFF
(R755). -/
def runPwrRailOff (p : Packet) (d : Dev) : Dev :=
  let mask := p.fld 0 0 16
  let d := forL (railsOf mask) (fun n d => d.modRail n (fun r => if r.st = .failed then { r with st := .off } else r)) d
  let l := d.enabledWith mask
  if l.isEmpty then d.complete p.ref .doneEmpty 0 0
  else (d.executing p).seqRequest { kind := .shutdown, mask := maskOf l, ref := some p.ref }

/-- PWR_RAIL_OFF (R755). -/
def execPwrRailOff (r seq : Nat) : State → Host.Outcome State Fault Refusal :=
  opRow 0x0C02 chkPwrRailOff (onPkt runPwrRailOff) r seq

/-- Checks of PWR_REINIT. -/
def chkPwrReinit (_ : Packet) (_ : Dev) : Option Status := none

/-- PWR_REINIT: the AVSBus master restarts, the failure count of R536 is cleared, and waiting PWR_RAIL_ON requests complete with
ABORTED (R115). -/
def runPwrReinit (p : Packet) (d : Dev) : Dev :=
  let ups := d.pwr.seqWaiting.filter (fun q => q.kind = .powerUp)
  let d := { d with
    sched := { d.sched with avsBusy := [], avsErrRun := 0 },
    pwr := { d.pwr with seqWaiting := d.pwr.seqWaiting.filter (fun q => !(q.kind = .powerUp)) } }
  (forL ups (fun q d => d.complete? q.ref .aborted (d.onResult q.mask) 0) d).complete p.ref .done 0 0

/-- PWR_REINIT (R115). -/
def execPwrReinit (r seq : Nat) : State → Host.Outcome State Fault Refusal :=
  opRow 0x0CFF chkPwrReinit (onPkt runPwrReinit) r seq

/-! ## Power domains -/

/-- The sources of a domain that no longer runs count as not raised (R806). -/
def Dev.dropSources (k : Nat) (d : Dev) : Dev :=
  forL ((List.range 248).filter (fun n => sourceDomain n = k && ((d.src n).raised || (d.src n).wireErr))) (fun n d =>
    d.modSrc n (fun x => { x with
      raised := false, wireErr := false, softTimer := none, st := if x.st = .active then .quiet else x.st })) d

/-- The units of a switched domain at their reset values (R748): PD_9 holds press time but TB_2, PD_10 the head ports but the
fuses. PD_2, PD_3 and PD_8 hold no register. -/
def Dev.domainReset (k : Nat) (d : Dev) : Dev :=
  match k with
  | 9 => { d with time := { Time.reset with tb2 := d.time.tb2 } }
  | 10 => { d with hl := { Hl.reset with fuses := d.hl.fuses, fuseDone := d.hl.fuseDone } }
  | _ => d

/-- Is switching a domain off refused for a packet of a ring (R747)? -/
def Dev.offRefused (d : Dev) (k ring : Nat) : Bool :=
  match k with
  | 2 => (List.range 4).any (fun g => !(bits d.scr.laneMap (3 * g) 3 = 4))
  | 3 => (List.range 4).any (fun g => !(bits d.scr.laneMap (3 * (g + 4)) 3 = 4))
  | 8 => (d.ring ring).source = 0
  | 9 => (List.range 256).any (fun r => (d.ring r).enable && (d.ring r).source = 1) || (d.tb 0).enable || (d.tb 1).enable
  | 10 => (List.range 16).any (fun p => !((d.hp p).st = .down))
  | _ => false

/-- Checks of PWR_DOMAIN (R747, R748). -/
def chkPwrDomain (p : Packet) (d : Dev) : Option Status :=
  let st := p.fld 0 0 2
  let now := d.dom p.target
  firstFail
    [(!p.resvOk [(0, 2, 6), (1, 0, 24)], .malformed),
     (st = 1 || st = 3, .badField),
     ((st = 0 && now = .on) || (st = 2 && now = .off), .doneEmpty),
     (st = 2 && d.offRefused p.target p.ring, .refused)]

/-- PWR_DOMAIN (R748). -/
def runPwrDomain (p : Packet) (d : Dev) : Dev :=
  let k := p.target
  if p.fld 0 0 2 = 2 then
    let d := ((d.modDom k (fun _ => .off)).domainReset k).dropSources k
    let d := if k = 8 then { d with sys := { d.sys with pcieUp := false } } else d
    d.complete p.ref .done 0 0
  else ((d.modDom k (fun _ => .reset)).executing p)

/-- PWR_DOMAIN (R748). -/
def execPwrDomain (r seq : Nat) : State → Host.Outcome State Fault Refusal :=
  opRow 0x0C05 chkPwrDomain (onPkt runPwrDomain) r seq

/-- The supply of a domain switched on has settled: it leaves RESET and its command completes; PD_8 retrains the PCIe link
(R748). -/
def Dev.settleDomain (k : Nat) (d : Dev) : Dev :=
  match d.rings.inflight.find? (fun p => p.op = 0x0C05 && p.target = k && p.phase = .executing) with
  | none => d
  | some p =>
    if !(d.dom k = .reset) then d
    else
      let d := d.modDom k (fun _ => .on)
      let d := if k = 8 then { d with sys := { d.sys with pcieUp := d.sys.perstReleased } } else d
      d.complete p.ref .done 0 0

/-- DOMAIN_SETTLED (R748). -/
def execDomainSettled (k : Nat) : State → Host.Outcome State Fault Refusal := inDomain 0 (Dev.settleDomain k)

/-! ## Power-fail warning -/

/-- PFW_n has been low for 1 µs with PFW_EN 1 (R762). -/
def Dev.pfwFalls (d : Dev) : Dev :=
  if d.pwr.pfwEn && !d.pwr.pfwLow then
    ((({ d with pwr := { d.pwr with pfwLow := true } }).raise 241 0).powerFail).msix 1
  else d

/-- PFW_ASSERT (R762). -/
def execPfwAssert : State → Host.Outcome State Fault Refusal := inDomain 0 Dev.pfwFalls

/-- BUDGET passes before the orderly stop has ended: the timed shutdown begins and no CLOSE record is written (R763, R764). -/
def Dev.budgetEnd (d : Dev) : Dev :=
  if d.sched.stopping && d.pwr.timedDue then
    ({ d with
      sched := { d.sched with stopping := false },
      imp := { d.imp with jobs := d.imp.jobs.filter (fun j => !(j.record.event = 3)) } }).timedShutdown
  else d

/-- PFW_BUDGET_END (R763). -/
def execPfwBudgetEnd : State → Host.Outcome State Fault Refusal := inDomain 0 Dev.budgetEnd

/-! ## System reset outputs and housekeeping -/

/-- Does a condition assert SRST_k, a pulse left out (R765)? -/
def Dev.srstHeld (d : Dev) (k : Nat) : Bool :=
  let x := d.srst k
  (railsOf x.railMask).any (fun n => !((d.rail n).st = .up)) || (x.onWarm && d.sys.warmStarting)

/-- STRETCH_MS after its last condition ended SRST_k is released (R765). -/
def Dev.srstRelease (k : Nat) (d : Dev) : Dev :=
  if (d.srst k).asserted && !d.srstHeld k then (d.modSrst k (fun x => { x with asserted := false })).pin .srst k false else d

/-- SRST_STRETCH_END (R765). -/
def execSrstStretchEnd (k : Nat) : State → Host.Outcome State Fault Refusal := inDomain 0 (Dev.srstRelease k)

/-- A write of SRST_CFG_k: STRETCH_MS keeps its value when 0 is written; PULSE asserts SRST_k (R765, R800). -/
def Dev.srstWrite (k v : Nat) (d : Dev) : Dev :=
  let ms := bits v 0 10
  let d := (d.modSrst k (fun x => { x with
    stretchMs := if ms = 0 then x.stretchMs else ms, railMask := bits v 10 16, onWarm := bits v 26 1 = 1 })).updSrst
  if bits v 27 1 = 1 then (d.modSrst k (fun x => { x with asserted := true })).pin .srst k true else d

/-- SRST_PULSE (R765). -/
def execSrstPulse (k : Nat) (value : BitVec 32) : State → Host.Outcome State Fault Refusal :=
  inDomain 0 (Dev.srstWrite k value.toNat)

/-- A round's values as a table. -/
def roundTab (n : Nat) (l : List Nat) : Tab Nat := (List.range n).map (fun i => (i, min 4095 (l.getD i 0)))

/-- The housekeeping ADC has converted every channel: the round's values replace the previous ones together, and the shedding
stages follow them (R766, R767, R540). -/
def Dev.hkRound (ext int : List Nat) (d : Dev) : Dev :=
  ({ d with pwr := { d.pwr with hkExt := roundTab 32 ext, hkInt := roundTab 24 int } }).shedUpdate

/-- HK_ROUND (R766). -/
def execHkRound (ext int : List Nat) : State → Host.Outcome State Fault Refusal := inDomain 0 (Dev.hkRound ext int)

/-! ## Clocks -/

/-- VCO of divider settings, over 25 MHz (R769). -/
def vcoOf (ref fb frac : Nat) : Rat :=
  ((fb * 2 ^ 24 + frac : Nat) : Rat) / (((if ref = 0 then 16 else ref) * 2 ^ 24 : Nat) : Rat)

/-- Does the shadow set of a PLL move its VCO by more than one part in n? -/
def Pll.moves (x : Pll) (n : Nat) : Bool :=
  let a := vcoOf x.aRef x.aFb x.aFrac
  let b := vcoOf x.refDiv x.fbDiv x.frac
  decide (a < ((n : Nat) : Rat) * (b - a)) || decide (a < ((n : Nat) : Rat) * (a - b))

/-- A write of PLL_CTRL: LOCK_CNT, and with UPDATE the shadow values take effect together, through bypass where the VCO moves by
more than 0.5 %, or the update is refused (R769 to R772, R774). -/
def Dev.pllWrite (k v : Nat) (d : Dev) : Dev :=
  if 2 ≤ k then d
  else
    let d := d.modPll k (fun x => { x with lockCnt := bits v 16 16, aLock := bits v 16 16 })
    let x := d.pll k
    if !(bits v 0 1 = 1) then d
    else if (k = 0 && x.moves 10000 && (List.range 16).any (fun p => !((d.hp p).st = .down))) ||
        (k = 1 && (List.range 2).any (fun c => (d.dch c).st = .serving || (d.dch c).st = .training)) then
      d.modPll k (fun x => { x with updRefused := true })
    else
      let far := x.moves 200
      d.modPll k (fun x => { x with
        aRef := x.refDiv, aFb := x.fbDiv, aFrac := x.frac, aOut := x.outDiv, locked := x.locked && !far,
        bypass := x.bypass || far })

/-- PLL_UPDATE (R769). -/
def execPllUpdate (k : Nat) (value : BitVec 32) : State → Host.Outcome State Fault Refusal :=
  inDomain 0 (Dev.pllWrite k value.toNat)

/-- PLL k loses lock: its outputs switch to bypass and FLT_PLL_LOCK is raised (R773). -/
def Dev.pllUnlock (k : Nat) (d : Dev) : Dev :=
  (d.modPll k (fun x => { x with locked := false, bypass := true, lolSeen := true })).raise (242 + k) 0

/-- PLL_LOSS_OF_LOCK (R773). -/
def execPllLossOfLock (k : Nat) : State → Host.Outcome State Fault Refusal :=
  inDomain 0 (fun d => if (d.pll k).locked then d.pllUnlock k else d)

/-- PLL_REF_LOSS (R773): REFCLK is lost, the reference of SYSPLL and DDRPLL. -/
def execPllRefLoss : State → Host.Outcome State Fault Refusal :=
  inDomain 0 (fun d => (forN 2 (fun k d => (d.pllUnlock k).modPll k (fun x => { x with refLost := true })) d).raise 246 0)

/-- PLL_REF_RETURN (R773): the PLLs reacquire with their outputs on bypass. -/
def execPllRefReturn : State → Host.Outcome State Fault Refusal :=
  inDomain 0 (fun d => (forN 2 (fun k d => d.modPll k (fun x => { x with refLost := false })) d).lower 246)

/-- A write of CLKOUT_CFG_k; one that changes SRC, DIV or STD while EN is 1 is discarded (R775). -/
def Dev.clkoutWrite (k v : Nat) (d : Dev) : Dev :=
  let old := Tab.get 0 d.clk.clkout k
  if 4 ≤ k || (bits old 12 1 = 1 && !(bits old 0 12 = bits v 0 12)) then d
  else
    let d := { d with clk := { d.clk with clkout := Tab.set k (bits v 0 13) d.clk.clkout } }
    if bits old 12 1 = bits v 12 1 then d else d.pin .clkout k (bits v 12 1 = 1)

/-- CLKOUT_CFG_WRITE (R775). -/
def execClkoutCfgWrite (k : Nat) (value : BitVec 32) : State → Host.Outcome State Fault Refusal :=
  inDomain 0 (Dev.clkoutWrite k value.toNat)

/-- COL_BRIDGE_TIMEOUT (R779): the bridge's number is latched and FLT_COL_TIMEOUT raised with it. -/
def execColBridgeTimeout (b : Nat) : State → Host.Outcome State Fault Refusal :=
  inDomain 0 (fun d => ({ d with clk := { d.clk with colBridge := b % 16, colSeen := true } }).raise 247 b)

end Sys2Proof.Machine
end

