-- ==== Sys2Proof/Machine/Boot.lean ====
section
/-! DEFINITION. Resets, the boot, Saddle mode, and the commands that write flash and images (spec chapters 15 and 16). -/

namespace Sys2Proof.Machine

/-! ## What a cold reset keeps -/

/-- What lies in the NOR flash, the fuses or outside the device: the checkpoint ring, the wear history, the head root keys, the
trace and the free values (R79, R781, R833). -/
def Dev.keptCold (d : Dev) : Dev :=
  { Dev.reset with
    imp := { Imp.reset with ring := d.imp.ring, written := d.imp.written, erased := d.imp.erased, erases := d.imp.erases },
    hl := { Hl.reset with fuses := d.hl.fuses, fuseDone := d.hl.fuseDone },
    wear := { Wear.reset with saved := d.wear.saved },
    out := d.out, free := d.free }

/-- A cold reset with a cause of SYS_RESET_CAUSE: power-on (1) also empties the fault log and clears the failed-start count and
history; a supervisor power cycle keeps them (R780, R781, R816, R874). -/
def Dev.coldReset (cause : Nat) (d : Dev) : Dev :=
  let kept := d.keptCold
  let sys := if cause = 1 then { Sys.reset with perstReleased := d.sys.perstReleased }
    else { Sys.reset with
      resetCause := cause, failedStarts := d.sys.failedStarts, startStages := d.sys.startStages,
      perstReleased := d.sys.perstReleased }
  { kept with sys := sys, flt := { Flt.reset with log := if cause = 1 then [] else (d.logEvent 0xFF 6).flt.log } }

/-- A cold reset and the start of the boot: every SRST output is asserted and the boot rails come up (R743, R765, R794). -/
def State.coldBoot (cause : Nat) (s : State) : State :=
  let d := forN 4 (fun k d => d.pin .srst k true) (s.dev.coldReset cause)
  { s with dev := d.bootRails, mem := { s.mem with sram := [] } }

/-- POWER_ON (R780). -/
def execPowerOn (s : State) : Host.Outcome State Fault Refusal := .next (s.coldBoot 1)

/-- POWER_REMOVED (R30): the whole device loses power; what lies in flash and fuses stays. -/
def execPowerRemoved (s : State) : Host.Outcome State Fault Refusal :=
  let d := s.dev.keptCold
  .next { s with
    dev := { d with
      sys := { Sys.reset with powered := false, perstReleased := s.dev.sys.perstReleased },
      pwr := { Pwr.reset with domains := [(0, .off)] } },
    mem := { s.mem with sram := [] } }

/-! ## From the clocks to the firmware -/

/-- The units of PD_1 to PD_11 at their reset values; PD_0's registers, TB_2 and the safe state go on (R798). -/
def Dev.unitsReset (d : Dev) : Dev :=
  let d := forN 11 (fun k d => (d.modDom (k + 1) (fun _ => .reset)).dropSources (k + 1)) d
  let kept := d.keptCold
  { kept with
    sys := d.sys, pwr := d.pwr, clk := d.clk, flt := d.flt,
    time := { Time.reset with tb2 := d.time.tb2 },
    sched := { Sched.reset with therm := d.sched.therm, throttleC := d.sched.throttleC, limitC := d.sched.limitC } }

/-- FB_DIV of DDRPLL for a speed: VCO 4,800, 5,200 or 5,600 MHz (R695, R768). -/
def ddrFb (speed : Nat) : Nat := if speed = 1 then 208 else if speed = 2 then 224 else 192

/-- The populated SDRAM with the calibration record's speed and long store (R694, R695, R699, R789, log entry 12). -/
def Mems.ddr (m : Mems) : Ddr :=
  let p := Config.ddrPopulation
  let n := if p.1 = 2 then 2 else 1
  { Ddr.reset with
    channels := n, ranks := if p.2.1 = 2 then 2 else 1, width := p.2.2.1 % 2, density := p.2.2.2 % 3, speed := m.calSpeed,
    longSize := m.calLong, chs := (List.range n).map (fun c => (c, { DdrCh.reset with st := .training })) }

/-- MAC address k: the calibration record's, or the default from SYS_UID (R788, R789). -/
def Mems.mac (m : Mems) (k : Nat) : Nat :=
  (m.calField 3 (12 + 6 * k) 6).getD
    (leNat ((if k = 0 then 0x02 else 0x06) :: (leBytes 5 Config.sysUid).reverse))

/-- SYSPLL and DDRPLL are locked: PD_1 to PD_11 leave reset with every bank cleared, the directory and the calibration record are
read, DDRPLL is set and SDRAM training starts (R794, R144, R716). -/
def State.domainsUp (s : State) : State :=
  let d := forN 11 (fun k d => d.modDom (k + 1) (fun _ => .on)) s.dev
  let ddr := s.mem.ddr
  let d := d.modPll 1 (fun x => { x with fbDiv := ddrFb ddr.speed, aFb := ddrFb ddr.speed, frac := 0, aFrac := 0 })
  { s with
    dev := { d with
      sys := { d.sys with
        stage := .ddrTrain, addr := s.mem.calAddr.getD 0, addrValid := s.mem.calAddr.isSome, pcieUp := d.sys.perstReleased,
        mac0 := s.mem.mac 0, mac1 := s.mem.mac 1 },
      ddr := ddr, banks := [] },
    mem := { s.mem with sram := [] } }

/-- In stage CLOCKS the boot goes on once SYSPLL and DDRPLL are locked (R794). -/
def State.clocksDone (s : State) : State :=
  if s.dev.sys.stage = .clocks && (s.dev.pll 0).locked && (s.dev.pll 1).locked then s.domainsUp else s

/-- PLL_LOCK (R772): the outputs return from bypass, and a boot that waits for the clocks goes on. -/
def execPllLock (k : Nat) : State → Host.Outcome State Fault Refusal :=
  inDomainS 0 (fun s => (s.onDev (fun d => if (d.pll k).refLost then d else
    (d.modPll k (fun x => { x with locked := true, bypass := false })).lower (242 + k))).clocksDone)

/-- Saddle mode is entered with a reason: PD_5 and PD_8 run, PD_7 where SDRAM training succeeded, the other domains are off, the
rails from 5 on are shut down and vector 1 is sent (R828 to R830). -/
def Dev.saddle (reason : Nat) (d : Dev) : Dev :=
  let mem := !(reason = 2 || reason = 3)
  let keep (k : Nat) : Bool := k = 5 || k = 8 || (k = 7 && mem)
  let d := forN 11 (fun k d => if keep (k + 1) then d.modDom (k + 1) (fun _ => .on) else
    (d.modDom (k + 1) (fun _ => .off)).dropSources (k + 1)) d
  let l := d.enabledWith 0xFFE0
  let d := if l.isEmpty then d else d.seqRequest { kind := .shutdown, mask := maskOf l, ref := none }
  { d with sys := { d.sys with stage := if reason = 1 then .noImage else .saddle, saddleReason := reason } }.msix 1

/-- STAGE of SYS_BOOT_STATUS (R803). -/
def Stage.code : Stage → Nat
  | .rom => 0 | .rails => 1 | .clocks => 2 | .ddrTrain => 3 | .fwLoad => 4 | .fwInit => 5 | .operational => 6 | .noImage => 7
  | .saddle => 8

/-- SADDLE_REASON after a third failed start (R829); a start that failed before the clocks reports the clocks (log entry 31). -/
def Sys.failReason (x : Sys) : Nat :=
  if x.lockstepSeen then 7 else if x.warmStarting then 6
  else match x.stage with | .ddrTrain => 3 | .fwLoad => 4 | .fwInit => 5 | _ => 2

/-- A slot on trial gives way to the other one (R793). -/
def Mems.dropTrial (m : Mems) : Mems :=
  match m.directory with
  | some d => if d.trial then m.writeDirectory { d with active := 1 - d.active, trial := false } else m
  | none => m

/-- A start fails (R798, R793, R828, R874): it is counted with its stage, a slot on trial gives way to the other one, and the device
boots again from the clocks without cycling the rails, or enters Saddle mode at the third in a row. -/
def State.failedStart (s : State) : State :=
  let x := s.dev.sys
  let ddr := s.dev.ddr
  let d := s.dev.unitsReset
  let sys := { x with
    failedStarts := min 15 (x.failedStarts + 1), startStages := (x.stage.code :: x.startStages).take 3, resetCause := 9,
    lockstepSeen := false, warmStarting := false, bootLoading := false, pcieUp := false }
  let s := { s with mem := { s.mem.dropTrial with sram := [] }, dev := { d with sys := sys } }
  if 3 ≤ sys.failedStarts then s.onDev (fun d => { d with ddr := ddr }.saddle x.failReason)
  else if x.stage = .rails || x.stage = .rom then s
  else (s.onDev (fun d => { d with sys := { d.sys with stage := .clocks } })).clocksDone

/-- BOOT_WATCHDOG_EXPIRE (R798): a start under way has taken too long. -/
def execBootWatchdogExpire : State → Host.Outcome State Fault Refusal :=
  inDomainS 0 (fun s =>
    let g := s.dev.sys.stage
    if g = .operational || g = .saddle || g = .noImage || s.dev.goingDown || s.dev.pwr.offHold then s else s.failedStart)

/-- DDR_TRAINING_END (R702): in the boot, channels that serve let it go on and one that fails makes the start fail; otherwise a
retraining ends. -/
def State.trainingEnds (c : Nat) (ok : Bool) (s : State) : State :=
  if !(s.dev.sys.stage = .ddrTrain) then s.onDev (Dev.retrained c ok)
  else if !((s.dev.dch c).st = .training) then s
  else if ok then
    s.onDev (fun d =>
      let d := d.modDch c (fun x => { x with st := .serving })
      if (List.range d.ddr.channels).all (fun k => (d.dch k).st = .serving) then
        { d with sys := { d.sys with stage := .fwLoad } } else d)
  else ((s.onDev (fun d => (d.modDch c (fun x => { x with st := .failed, trainFail := true })).raise (204 + c) 0)).settle).failedStart

/-- DDR_TRAINING_END (R702). -/
def execDdrTrainingEnd (c : Nat) (ok : Bool) : State → Host.Outcome State Fault Refusal := inDomainS 7 (State.trainingEnds c ok)

/-! ## Images -/

/-- BOOT_ERR for a slot that does not verify: 3 where its LENGTH is out of range, else 2 (R787, R803). -/
def Mems.slotErr (m : Mems) (slot : Nat × Nat) : Nat :=
  let h := m.flashBytes slot.1 12
  let n := leNat ((h.drop 8).take 4)
  if leNat (h.take 4) = 0x57464845 && (n = 0 || decide (slot.2 < n + 256)) then 3 else 2

/-- The firmware of slot k starts (R794). -/
def State.startSlot (k : Nat) (dir : Directory) (s : State) : State :=
  s.onDev (fun d => { d with sys := { d.sys with
    stage := .fwInit, slotLoaded := k, trialLoaded := dir.trial && k = dir.active, bootErr := 0, saddleReason := 0,
    fwVersion := ((s.mem.image (dir.slot k)).elim 0 imageVersion) } })

/-- The ACTIVE image has been read and verified; where it does not verify the other slot is tried, and where neither does the
device enters NO_IMAGE (R796). -/
def State.loadImage (s : State) : State :=
  match s.mem.directory with
  | none => s.onDev (fun d => { d with sys := { d.sys with bootErr := 1 } }.saddle 1)
  | some dir =>
    let a := dir.active
    if s.mem.slotOk (dir.slot a) then s.startSlot a dir
    else if s.mem.slotOk (dir.slot (1 - a)) then s.startSlot (1 - a) dir
    else s.onDev (fun d => { d with sys := { d.sys with bootErr := s.mem.slotErr (dir.slot a) } }.saddle 1)

/-- Must a warm reset load the firmware afresh: the directory's ACTIVE slot is not the one loaded (R783)? -/
def State.mustReload (s : State) : Bool :=
  s.dev.sys.warmStarting && s.mem.directory.any (fun d => !(d.active = s.dev.sys.slotLoaded))

/-- FW_IMAGE_LOAD_END (R796). -/
def execFwImageLoadEnd : State → Host.Outcome State Fault Refusal :=
  inDomainS 0 (fun s =>
    if s.dev.sys.stage = .fwLoad || (s.dev.sys.stage = .fwInit && s.mustReload) then s.loadImage else s)

/-- The heads, the loops and the memories after a warm reset (R485, R685, R706). -/
def Dev.warmResume (d : Dev) : Dev :=
  let d := forN 2 (fun c d => d.modDch c (fun x => if x.st = .selfRefresh then { x with st := .serving } else x)) d
  let d := forN 32 (fun l d => if d.flt.held then d else d.modLp l (fun x => { x with safeOff := false })) d
  forN 16 (fun p d => if (d.hp p).wasUp then d.retrainOrWait p 1 else d) d

/-- The wear history as read from the calibration region at boot (R833, R877). -/
def Dev.loadWear (d : Dev) : Dev :=
  match d.wear.saved with
  | some (l, n) =>
    let old (w : Nat × WearInd) : Nat × WearInd := (w.1, { WearInd.resetOf w.1 with
      latest := w.2.latest, samples := w.2.samples, uid := w.2.uid, first := w.2.first })
    { d with wear := { d.wear with inds := l.map old, stored := n, valid := true, sampleNs := d.ns } }
  | none => d

/-- The device is operational (R794, R793): TRIAL and the failed-start count are cleared and vector 1 is sent; after a cold boot the
scan of the checkpoint ring starts, after a warm reset the heads are retrained. -/
def State.operational (s : State) : State :=
  let mem := match s.mem.directory with
    | some d => if d.trial then s.mem.writeDirectory { d with trial := false } else s.mem
    | none => s.mem
  let warm := s.dev.sys.warmStarting
  let d := { s.dev with sys := { s.dev.sys with
    stage := .operational, failedStarts := 0, warmStarting := false, lockstepSeen := false, saddleReason := 0, trialLoaded := false } }
  let d := if warm then d.warmResume else { d.loadWear with imp := { d.imp with scanning := true } }
  { s with dev := d.msix 1, mem := mem }

/-- BOOT_OPERATIONAL (R794). -/
def execBootOperational : State → Host.Outcome State Fault Refusal :=
  inDomainS 0 (fun s => if s.dev.sys.stage = .fwInit && !s.mustReload then s.operational else s)

/-- A write of SYS_BOOT_CTRL: GO starts reading an image from host memory in NO_IMAGE and in Saddle mode, or sets NO_MEMORY while
PD_7 is not ON (R797). -/
def Dev.bootGo (v : Nat) (d : Dev) : Dev :=
  let x := d.sys
  if !(bits v 0 1 = 1) || !(x.stage = .saddle || x.stage = .noImage) || x.bootLoading then d
  else if !(d.dom 7 = .on) then { d with sys := { x with bootErr := 5 } }
  else ({ d with sys := { x with bootLoading := true, bootErr := 0 } }).send
    (.hostRead (x.bootImgLo + 2 ^ 32 * x.bootImgHi) x.bootImgLen)

/-- BOOT_IMG_GO (R797). -/
def execBootImgGo (value : BitVec 32) : State → Host.Outcome State Fault Refusal := inDomain 0 (Dev.bootGo value.toNat)

/-- The image from host memory has been read, or could not be: it is verified and started, or BOOT_ERR says why not (R797). -/
def Dev.imgLoaded (data : Option (List Nat)) (d : Dev) : Dev :=
  let x := d.sys
  let fail (e : Nat) : Dev := { d with sys := { x with bootLoading := false, bootErr := e } }
  if !x.bootLoading then d
  else match data with
    | none => fail 4
    | some b =>
      if !(b.length = x.bootImgLen) || !(leNat ((b.drop 8).take 4) + 256 = b.length) then fail 3
      else if imageOk b then
        let d := forN 11 (fun k d => d.modDom (k + 1) (fun _ => .on)) d
        { d with sys := { x with
          bootLoading := false, bootErr := 0, stage := .fwInit, saddleReason := 0, fwVersion := imageVersion b,
          warmStarting := false } }
      else fail 2

/-- BOOT_IMG_LOAD_END (R797). -/
def execBootImgLoadEnd (data : Option (List Nat)) : State → Host.Outcome State Fault Refusal := inDomain 0 (Dev.imgLoaded data)

/-- PERST_RELEASE (R795): link training starts; the link is up where PD_8 runs (log entry 32). -/
def execPerstRelease (s : State) : Host.Outcome State Fault Refusal :=
  .next (s.onDev (fun d => { d with sys := { d.sys with perstReleased := true, pcieUp := d.on 8 } }))

/-! ## Ends of stops and cycles -/

/-- PFW_n has been high for 100 ms: stage 6 as it was entered through PFW_n clears, and after a timed shutdown the device boots
(R764, R545). -/
def State.pfwRises (s : State) : State :=
  if !s.dev.pwr.pfwLow then s
  else
    let s := s.onDev (fun d => ({ d with pwr := { d.pwr with pfwLow := false } }).lower 241)
    if s.dev.sched.stage = 7 then s.settle.coldBoot 3 else s

/-- PFW_RELEASE (R764). -/
def execPfwRelease : State → Host.Outcome State Fault Refusal := inDomainS 0 State.pfwRises

/-- The deepest stage clears; when every stage has cleared after an orderly stop the device performs a warm reset, after stage 7 it
boots (R540, R545). What PFW_n or a power cycle brought down does not come back this way before its shutdown has ended (R764). -/
def State.stageClears (s : State) : State :=
  let d := s.dev
  let k := d.sched.stage
  let timed := d.pwr.timedDue || d.pwr.cycling
  if k = 0 || !d.stageClear k || (timed && !(k = 7 && !d.pwr.cycling && !d.pwr.pfwLow)) then s
  else if timed then s.coldBoot 3
  else
    let d := ({ d with sched := { d.sched with stage := k - 1 } }).shedMotors
    let s := { s with dev := d }
    if !(k = 1) then s
    else if d.sys.stage = .rom then s.coldBoot 3
    else if d.sched.stopDone then s.onDev (Dev.warmReset 6) else s

/-- SHED_STAGE_CLEAR (R540). -/
def execShedStageClear : State → Host.Outcome State Fault Refusal := inDomainS 0 State.stageClears

/-- CYCLE_OFF_EXPIRE (R782). -/
def execCycleOffExpire : State → Host.Outcome State Fault Refusal :=
  inDomainS 0 (fun s => if s.dev.pwr.offHold then s.coldBoot 2 else s)

/-! ## Commands -/

/-- Checks of SYS_WARM_RESET. -/
def chkSysWarmReset (_ : Packet) (_ : Dev) : Option Status := none

/-- SYS_WARM_RESET: the completion is written before the reset (R780, R827). -/
def runSysWarmReset (p : Packet) (d : Dev) : Dev := (d.complete p.ref .done 0 0).warmReset 4

/-- SYS_WARM_RESET (R780). -/
def execSysWarmReset (r seq : Nat) : State → Host.Outcome State Fault Refusal :=
  opRow 0x0005 chkSysWarmReset (onPkt runSysWarmReset) r seq

/-- Checks of SYS_POWER_CYCLE. -/
def chkSysPowerCycle (_ : Packet) (_ : Dev) : Option Status := none

/-- SYS_POWER_CYCLE: the completion is written first, then the orderly stop runs; in Saddle mode the failed-start count is cleared
(R782, R827, R831). A stop or shutdown already under way goes on unchanged. -/
def runSysPowerCycle (p : Packet) (d : Dev) : Dev :=
  let d := d.complete p.ref .done 0 0
  let d := if d.sys.stage = .operational then d else { d with sys := { d.sys with failedStarts := 0 } }
  if d.sched.stopping || d.goingDown then d
  else ({ d with pwr := { d.pwr with cycling := true } }).orderlyStop

/-- SYS_POWER_CYCLE (R782). -/
def execSysPowerCycle (r seq : Nat) : State → Host.Outcome State Fault Refusal :=
  opRow 0x0006 chkSysPowerCycle (onPkt runSysPowerCycle) r seq

/-- Base and size of a region of SYS_FW_WRITE: the directory's, or the default layout's where there is none (R786, R790). -/
def Mems.fwRegion (m : Mems) (k : Nat) : Nat × Nat :=
  match m.directory with
  | some d => if k = 2 then d.cal else d.slot k
  | none => if k = 0 then (0x100000, 0x400000) else if k = 1 then (0x500000, 0x400000) else (0x900000, 0x10000)

/-- Checks of SYS_FW_WRITE that need no flash (R790, R791). -/
def chkSysFwWrite (p : Packet) (_ : Dev) : Option Status :=
  firstFail
    [(!p.resvOk [(0, 3, 5), (1, 0, 24), (8, 0, 64)], .malformed),
     (p.fld 0 0 2 = 3 || !(p.fld 4 0 32 % 16 = 0), .badField),
     (!p.flag 0 2 && p.payload.length = 16, .doneEmpty)]

/-- SYS_FW_WRITE: the erase and programming of the region begin, unless R791 forbids them. -/
def runSysFwWrite (p : Packet) (s : State) : State :=
  let k := p.fld 0 0 2
  let reg := s.mem.fwRegion k
  let data := p.payload.drop 16
  let off := p.fld 4 0 32
  let saddle := !(s.dev.sys.stage = .operational)
  if reg.2 < off + data.length then s.onDev (Dev.complete p.ref .badField 0 0)
  else if !saddle && s.mem.directory.any (fun d => d.active = k) then s.onDev (Dev.complete p.ref .refused 0 0)
  else s.onDev (fun d => ({ d with diag := { d.diag with fw := some {
    ref := p.ref, addr := reg.1 + off, erase := p.flag 0 2, len := reg.2, data := data } } }).executing p)

/-- SYS_FW_WRITE (R791). -/
def execSysFwWrite (r seq : Nat) : State → Host.Outcome State Fault Refusal := opRow 0x0007 chkSysFwWrite runSysFwWrite r seq

/-- The region's base: the address less the offset its packet names. -/
def FwWrite.base (w : FwWrite) (off : Nat) : Nat := w.addr - off

/-- Programming has ended: erased, programmed and read back (R791). Where the flash fails, the bytes read back are free values and
the command completes with WRITE_ERROR; erasing the calibration region erases the wear history (R833). -/
def State.fwProgrammed (ok : Bool) (s : State) : State :=
  match s.dev.diag.fw with
  | none => s
  | some w =>
    let off := (s.dev.packet? w.ref).elim 0 (fun p => p.fld 4 0 32)
    let cal := (s.dev.packet? w.ref).any (fun p => p.fld 0 0 2 = 2)
    let base := w.base off
    let m := if w.erase then s.mem.eraseFlash base w.len else s.mem
    let r := if ok then (w.data, s.dev) else s.dev.freeBytes w.data.length
    let m := m.program w.addr r.1
    let good := ok && m.flashBytes w.addr w.data.length = w.data
    let d := r.2.when w.erase (Dev.send (.flash 0 base w.len))
    let d := d.send (.flash 1 w.addr w.data.length)
    let d := { d with diag := { d.diag with fw := none },
                      wear := if w.erase && cal then { d.wear with saved := none } else d.wear }
    { s with dev := d.complete w.ref (if good then .done else .writeError) 0 0, mem := m }

/-- FW_WRITE_PROGRAMMED (R791). -/
def execFwWriteProgrammed (ok : Bool) : State → Host.Outcome State Fault Refusal := inDomainS 0 (State.fwProgrammed ok)

/-- Checks of SYS_FW_ACTIVATE (R792). -/
def chkSysFwActivate (p : Packet) (_ : Dev) : Option Status := firstFail [(!p.resvOk [(0, 2, 6), (1, 0, 24)], .malformed)]

/-- SYS_FW_ACTIVATE (R792, R831): a slot that verifies becomes ACTIVE on trial; with RESTART a warm reset follows. -/
def runSysFwActivate (p : Packet) (s : State) : State :=
  let k := p.fld 0 0 1
  match s.mem.directory.filter (fun d => s.mem.slotOk (d.slot k)) with
  | none => s.onDev (Dev.complete p.ref .signature 0 0)
  | some dir =>
    let s := { s with mem := s.mem.writeDirectory { dir with active := k, trial := true } }
    s.onDev (fun d =>
      let d := d.complete p.ref .done 0 0
      let d := if d.sys.stage = .operational then d else { d with sys := { d.sys with failedStarts := 0 } }
      d.when (p.flag 0 1) (Dev.warmReset 8))

/-- SYS_FW_ACTIVATE (R792). -/
def execSysFwActivate (r seq : Nat) : State → Host.Outcome State Fault Refusal :=
  opRow 0x0008 chkSysFwActivate runSysFwActivate r seq

end Sys2Proof.Machine
end

