-- ==== Sys2Proof/Machine/FireTiming.lean ====
section
/-! DEFINITION. Web position and fire timing (spec chapter 8): encoder counts, deficit, failover, standstill, FSYNC emission
and the FIRE commands. The loop tick is in Tick.lean. -/

namespace Sys2Proof.Machine

/-! ## The source -/

/-- The PRIMARY encoder (R397). -/
def Dev.primary (d : Dev) : Option Nat :=
  if (d.enc 0).role = 1 then some 0 else if (d.enc 1).role = 1 then some 1 else none

/-- FLT_WEB_LOST follows LOST under R402 and R411: raised as it comes to hold, ended as it stops (R402). -/
def Dev.webLost (was : Bool) (d : Dev) : Dev :=
  let now := d.fire.lostSource || d.fire.lostSat
  if now && !was then d.raise 9 0 else if was && !now then d.lower 9 else d

/-- Does FLT_WEB_LOST's condition hold (R402)? -/
def Dev.isWebLost (d : Dev) : Bool := d.fire.lostSource || d.fire.lostSat

/-- Encoder e becomes the WP source: its bases are reset at its first count (R405). Under those bases its latest edge has the WP of
the last count that raised M, so that x_e takes it at once and the loop's p moves with it (log entry 33). -/
def Dev.setSource (e : Nat) (d : Dev) : Dev :=
  ({ d with fire := { d.fire with src := e } }).modEnc e (fun x => { x with
    rebase := true, p := x.p + (d.fire.lastWp - x.xE), xE := d.fire.lastWp })

/-- Encoder e has raised FLT_ENC_LOS, FLT_ENC_ILLEGAL or FLT_ENC_RATE: where it is the WP source, the CHECK encoder takes over
if it can, and otherwise WP stops (R401, R402). -/
def Dev.sourceFails (e : Nat) (d : Dev) : Dev :=
  if !(d.fire.src = e) || d.fire.lostNoPrimary then d
  else
    let o := 1 - e
    let x := d.enc o
    if x.role = 2 && x.signalOk && !x.mismatch then
      { d.setSource o with fire := { (d.setSource o).fire with failedOver := true } }
    else
      let was := d.isWebLost
      ({ d with fire := { d.fire with lostSource := true } }).webLost was

/-! ## Counts -/

/-- Is the step from pair (a, b) to pair (a', b') forward: 00, 10, 11, 01, 00 (R391)? -/
def isForward (a b a' b' : Bool) : Bool :=
  match a, b, a', b' with
  | false, false, true, false => true
  | true, false, true, true => true
  | true, true, false, true => true
  | false, true, false, false => true
  | _, _, _, _ => false

/-- WP under R404 at a value of M, 2^-16 sub-dots, not reduced. -/
def Enc.wpAt (e : Enc) (m : Int) : Int := e.wpBase + 64 * e.ratio * (m - e.mBase) / 2 ^ 16

/-- The bases of an encoder that counts for the first time after a change: WP_BASE is the WP of the last count that raised
M, M_BASE its M before this count (R405). -/
def Enc.rebased (wp : Int) (e : Enc) : Enc := if e.rebase then { e with wpBase := wp, mBase := e.m, rebase := false } else e

/-- One count of an encoder at time t, 2^-16 ns: net count, deficit, M, and the edge the loop updates from when M rises
(R403, R404, R408, R411, R413, R415). -/
def Enc.counted (fwd : Bool) (t : Nat) (e : Enc) : Enc :=
  let e := { e with count := if fwd then e.count + 1 else e.count - 1, edgeNs := t / 2 ^ 16 }
  if !fwd then { e with deficit := satInc 32 e.deficit }
  else if 0 < e.deficit then { e with deficit := e.deficit - 1 }
  else { e with m := e.m + 1, xE := e.wpAt (e.m + 1), tE := t, edgeNew := true, still := false }

/-- FIRE_REINIT packets complete (R412). -/
def Dev.endReinit (d : Dev) : Dev :=
  ({ d with fire := { d.fire with reinits := [] } }).completeAll d.fire.reinits .done

/-- What a count of the source does beyond the encoder: saturation, REVERSED and its spoils, the end of a deficit and the
lines that waited for it, the end of FIRE_REINIT (R409 to R412). -/
def Dev.sourceCounted (before : Enc) (d : Dev) : Dev :=
  let e := d.enc d.fire.src
  let was := d.isWebLost
  let d := if e.m = before.m then d else { d with fire := { d.fire with lastWp := e.xE } }
  let d := if e.deficit = 2 ^ 32 - 1 && !d.fire.lostSat then
      ({ d with fire := { d.fire with lostSat := true } }).webLost was
    else d
  let d := if d.fire.revTol < e.deficit && !d.fire.reversed then
      let d := ({ d with fire := { d.fire with reversed := true, reversals := satInc 32 d.fire.reversals } }).raise 10 0
      forN 4 (fun s d => d.spoilMany s (d.firing s) 0x02) d
    else d
  let d := if e.deficit = 0 && 0 < before.deficit then
      let d := if d.fire.reversed then ({ d with fire := { d.fire with reversed := false } }).lower 10 else d
      forN 4 Dev.arm d
    else d
  d.endReinit

/-- The effect of ENCODER_TRANSITION (R391 to R394, R408): A and B take the given levels, the transition having crossed the threshold ago
units of 2^-16 ns before now. -/
def Dev.onEncoderTransition (e : Nat) (a b : Bool) (ago : Nat) (d : Dev) : Dev :=
  let x := d.enc e
  let t := d.time.tb2 - ago
  let near := match x.lastTrans with
    | some l => decide (t < l + max 40 (x.filterNs + 8) * 2 ^ 16)
    | none => false
  let level (x : Enc) : Enc := { x with a := a, b := b, lastTrans := some t }
  if x.a = a && x.b = b then d
  else if x.role = 0 || !x.signalOk then d.modEnc e (fun x => { x with a := a, b := b })
  else if !(x.a = a) && !(x.b = b) then
    ((d.modEnc e (fun x => { level x with
      illegal := true, illegalCount := satInc 32 x.illegalCount })).raise (2 + e) 0).sourceFails e
  else if near then ((d.modEnc e (fun x => { level x with rateErr := true })).raise (4 + e) 0).sourceFails e
  else
    let fwd := xor (isForward x.a x.b a b) x.invert
    let wp := if d.fire.src = e then d.fire.lastWp else x.xE
    let d := d.modEnc e (fun x => Enc.counted fwd t (Enc.rebased wp (level x)))
    if d.fire.src = e && !d.fire.lost then d.sourceCounted x else d

/-- ENCODER_TRANSITION (R391 to R394, R408). -/
def execEncoderTransition (e : Nat) (a b : Bool) (ago : Nat) : State → Host.Outcome State Fault Refusal :=
  inDomain 11 (Dev.onEncoderTransition e a b ago)

/-- The effect of ENCODER_INDEX_EDGE (R396): the net count since the previous rising edge of Z is held against COUNTS_PER_INDEX. -/
def Dev.onEncoderIndexEdge (e : Nat) (d : Dev) : Dev :=
  let x := d.enc e
  if x.role = 0 then d
  else
    match x.lastIndex with
    | none => d.modEnc e (fun x => { x with lastIndex := some x.count })
    | some l =>
      let span := x.count - l
      let bad := !(x.perIndex = 0) && decide ((x.indexTol : Int) < mag (span - x.perIndex))
      let d := d.modEnc e (fun x => { x with
        lastIndex := some x.count, indexSpan := span, indexErr := x.indexErr || bad })
      d.when bad (fun d => d.raise (6 + e) 0)

/-- ENCODER_INDEX_EDGE (R396). -/
def execEncoderIndexEdge (e : Nat) : State → Host.Outcome State Fault Refusal :=
  inDomain 11 (Dev.onEncoderIndexEdge e)

/-- The effect of ENCODER_LOS (R395): a pair has stayed below the receiver threshold; LOS is set while ROLE is not OFF (R391, R854). -/
def Dev.onEncoderLos (e : Nat) (d : Dev) : Dev :=
  if (d.enc e).role = 0 then d.modEnc e (fun x => { x with signalOk := false })
  else ((d.modEnc e (fun x => { x with signalOk := false, los := true })).raise e 0).sourceFails e

/-- ENCODER_LOS (R395). -/
def execEncoderLos (e : Nat) : State → Host.Outcome State Fault Refusal := inDomain 11 (Dev.onEncoderLos e)

/-- ENCODER_SIGNAL_RESTORE (R440): every pair is above the threshold again, with the given levels of A and B; the condition of
FLT_ENC_LOS ends. -/
def execEncoderSignalRestore (e : Nat) (a b : Bool) : State → Host.Outcome State Fault Refusal :=
  inDomain 11 fun d => (d.modEnc e (fun x => { x with signalOk := true, a := a, b := b })).lower e

/-- Is a speed at least r lines/s (R416)? -/
def rateGe (v r : Nat) : Bool := decide (r * 64 * 2 ^ 24 ≤ v * 1000000000)

/-- Is a speed above r lines/s? -/
def rateAbove (v r : Nat) : Bool := decide (r * 64 * 2 ^ 24 < v * 1000000000)

/-- The effect of ENCODER_COMPARE (R400): ten disagreements in a row raise FLT_ENC_MISMATCH once. -/
def Dev.onEncoderCompare (d : Dev) : Dev :=
  match d.primary with
  | none => { d with fire := { d.fire with mismatchRun := 0 } }
  | some e =>
    let p := d.enc e
    let c := d.enc (1 - e)
    let track := !(c.role = 0) && p.signalOk && c.signalOk && rateGe p.v d.fire.minRate
    let far := decide ((p.v : Int) < 64 * mag ((p.v : Int) - c.v))
    if !(track && far) then { d with fire := { d.fire with mismatchRun := 0 } }
    else
      let n := d.fire.mismatchRun + 1
      let d := { d with fire := { d.fire with mismatchRun := min n 10 } }
      if n = 10 then
        let m (x : Enc) : Enc := { x with mismatch := true }
        ((d.modEnc 0 m).modEnc 1 m).raise 8 0
      else d

/-- ENCODER_COMPARE (R400). -/
def execEncoderCompare : State → Host.Outcome State Fault Refusal := inDomain 11 (Dev.onEncoderCompare)

/-- The effect of STANDSTILL (R415, R412): no count of the source has raised M for STILL_US. -/
def Dev.onStandstill (d : Dev) : Dev :=
  (d.modEnc d.fire.src (fun x => { x with v := 0, p := x.xE, edgeNew := false, still := true })).endReinit

/-- STANDSTILL (R415, R412). -/
def execStandstill : State → Host.Outcome State Fault Refusal := inDomain 11 (Dev.onStandstill)

/-- FSYNC_EMIT (R429). -/
def execFsyncEmit (port : Nat) : State → Host.Outcome State Fault Refusal := inDomain 11 (Dev.emitFsync port)

/-! ## Commands -/

/-- The WP source that a role of encoder e would give (R399, R401, R402). -/
def Dev.sourceUnder (d : Dev) (e role : Nat) : Option Nat :=
  if role = 1 then some e else if (d.enc (1 - e)).role = 1 then some (1 - e) else none

/-- The checks of FIRE_CONFIG_ENCODER (R397, R398). -/
def chkFireConfigEncoder (p : Packet) (d : Dev) : Option Status :=
  let role := p.fld 0 0 2
  let now := if d.fire.lostNoPrimary then none else some d.fire.src
  firstFail [
    (!p.resvOk [(0, 3, 5), (8, 0, 64)], .malformed),
    (role = 3 || (role = 1 && (d.enc (1 - p.target)).role = 1), .badField),
    (d.anyOnWeb && !(d.sourceUnder p.target role = now), .busy)]

/-- The effect of FIRE_CONFIG_ENCODER (R391, R397, R399, R402, R405): an encoder whose ROLE leaves OFF without a signal sets LOS
at once; a PRIMARY with SIGNAL_OK clears LOST. -/
def runFireConfigEncoder (p : Packet) (d : Dev) : Dev :=
  let e := p.target
  let role := p.fld 0 0 2
  let old := d.enc e
  let was := d.isWebLost
  let src := d.sourceUnder e role
  let d := d.modEnc e (fun x => { x with
    role := role, invert := p.flag 0 2, filterNs := p.fld 1 0 8, indexTol := p.fld 2 0 16, perIndex := p.fld 4 0 32,
    lastIndex := if old.role = 0 then none else x.lastIndex, lastTrans := if old.role = 0 then none else x.lastTrans })
  let d := match src with
    | none => { d with fire := { d.fire with lostNoPrimary := true } }
    | some n =>
      let moved := d.fire.lostNoPrimary || !(d.fire.src = n) || (d.fire.lostSource && (d.enc n).signalOk)
      let d := if moved then d.setSource n else d
      { d with fire := { d.fire with
          lostNoPrimary := false, lostSource := d.fire.lostSource && !(d.enc n).signalOk } }
  let d := d.webLost was
  let d := if old.role = 0 && !(role = 0) && !old.signalOk then
      ((d.modEnc e (fun x => { x with los := true })).raise e 0).sourceFails e
    else if role = 0 && !(old.role = 0) then d.lower e
    else if src = some e && !old.signalOk then d.sourceFails e
    else d
  d.complete p.ref .done 0 0

/-- FIRE_CONFIG_ENCODER. -/
def execFireConfigEncoder (r seq : Nat) : State → Host.Outcome State Fault Refusal :=
  opRow 0x0600 chkFireConfigEncoder (onPkt runFireConfigEncoder) r seq

/-- The checks of FIRE_SET_RATIO (R407). -/
def chkFireSetRatio (p : Packet) (d : Dev) : Option Status :=
  let new := p.fld 0 0 64
  let old := (d.enc p.target).ratio
  firstFail [
    (new = 0, .badField),
    (d.fire.src = p.target && !d.fire.lostNoPrimary && d.anyOnWeb && decide ((old : Int) < 64 * mag ((new : Int) - old)),
      .busy)]

/-- The effect of FIRE_SET_RATIO (R405, R407). -/
def runFireSetRatio (p : Packet) (d : Dev) : Dev :=
  (d.modEnc p.target (fun x => { x with ratio := p.fld 0 0 64, rebase := true })).complete p.ref .done 0 0

/-- FIRE_SET_RATIO. -/
def execFireSetRatio (r seq : Nat) : State → Host.Outcome State Fault Refusal :=
  opRow 0x0601 chkFireSetRatio (onPkt runFireSetRatio) r seq

/-- The checks of FIRE_SET_TRACKING (R418, R419). -/
def chkFireSetTracking (p : Packet) (d : Dev) : Option Status :=
  let bw := p.fld 0 0 16
  let z := p.fld 2 0 16
  let lpi := p.fld 4 0 16
  let still := p.fld 8 0 32
  let lo := p.fld 12 0 32
  firstFail [
    (!p.resvOk [(7, 0, 8), (20, 0, 32)], .malformed),
    (bw = 0 || 5000 < bw || z < 128 || 512 < z || lpi < 300 || 2400 < lpi || p.fld 6 0 8 = 0 || still < 1000 ||
      1000000 < still || lo < (500 * lpi + 253) / 254 || p.fld 16 0 32 < lo, .badField),
    (!(lpi = d.fire.lpi) && d.anyOnWeb, .busy)]

/-- The effect of FIRE_SET_TRACKING (R418). -/
def runFireSetTracking (p : Packet) (d : Dev) : Dev :=
  ({ d with fire := { d.fire with
      bwHz := p.fld 0 0 16, zeta := p.fld 2 0 16, lpi := p.fld 4 0 16, revTol := p.fld 6 0 8, stillUs := p.fld 8 0 32,
      minRate := p.fld 12 0 32, resumeRate := p.fld 16 0 32 } }).complete p.ref .done 0 0

/-- FIRE_SET_TRACKING. -/
def execFireSetTracking (r seq : Nat) : State → Host.Outcome State Fault Refusal :=
  opRow 0x0602 chkFireSetTracking (onPkt runFireSetTracking) r seq

/-- Is a datum or lead change of a stream scheduled and not yet in effect (R426)? -/
def Dev.datumBusy (d : Dev) (s : Nat) : Bool :=
  (d.nst s).changes.any (fun c => c.op = 0x0603 || (c.op = 0x0604 && c.fld 0 2 1 = 1))

/-- Is a shift change of a stream scheduled and not yet in effect (R384, R426)? -/
def Dev.shiftBusy (d : Dev) (s : Nat) : Bool :=
  (d.nst s).changes.any (fun c => (c.op = 0x0504 && c.fld 0 2 1 = 1) || (c.op = 0x0604 && c.fld 0 3 1 = 1))

/-- The checks of FIRE_SET_DATUM (R422, R426). -/
def chkFireSetDatum (p : Packet) (d : Dev) : Option Status :=
  let s := p.target
  let lead := p.fld 4 0 20
  let wp := p.fld 16 0 48
  firstFail [
    (!p.resvOk [(0, 4, 4), (1, 0, 24), (4, 20, 12), (13, 0, 24), (22, 0, 16)], .malformed),
    (!(d.nst s).configured, .refused),
    (whenBad (p.fld 0 0 2) wp || 500000 < lead || (!p.flag 0 3 && !(lead = 0)) || (!p.flag 0 2 && !(p.fld 8 0 40 = 0)),
      .badField),
    (!p.flag 0 2 && !p.flag 0 3, .doneEmpty),
    (d.datumBusy s, .busy),
    (p.fld 0 0 2 = 0 && d.tooNear s wp && !p.lateOk, .late)]

/-- The effect of FIRE_SET_DATUM: the change is scheduled (R422, R424, R378). -/
def runFireSetDatum (p : Packet) (d : Dev) : Dev := d.schedule p.target p (p.fld 0 0 2) (p.fld 16 0 48) []

/-- FIRE_SET_DATUM. -/
def execFireSetDatum (r seq : Nat) : State → Host.Outcome State Fault Refusal :=
  opRow 0x0603 chkFireSetDatum (onPkt runFireSetDatum) r seq

/-- The checks of FIRE_REGISTER (R423, R426). -/
def chkFireRegister (p : Packet) (d : Dev) : Option Status :=
  let s := p.target
  let sh := p.sfld 2 0 16
  let wp := p.fld 16 0 48
  firstFail [
    (!p.resvOk [(0, 4, 4), (1, 0, 8), (4, 0, 32), (13, 0, 24), (22, 0, 16)], .malformed),
    (!(d.nst s).configured, .refused),
    (whenBad (p.fld 0 0 2) wp || decide (sh < -255) || decide (255 < sh) || (!p.flag 0 3 && !(sh = 0)) ||
      (!p.flag 0 2 && !(p.fld 8 0 40 = 0)), .badField),
    (!p.flag 0 2 && !p.flag 0 3, .doneEmpty),
    (p.flag 0 2 && d.datumBusy s, .busy),
    (p.flag 0 3 && d.shiftBusy s, .busy),
    (p.fld 0 0 2 = 0 && d.tooNear s wp && !p.lateOk, .late)]

/-- The effect of FIRE_REGISTER: the datum and shift changes take one boundary (R423). -/
def runFireRegister (p : Packet) (d : Dev) : Dev := d.schedule p.target p (p.fld 0 0 2) (p.fld 16 0 48) []

/-- FIRE_REGISTER. -/
def execFireRegister (r seq : Nat) : State → Host.Outcome State Fault Refusal :=
  opRow 0x0604 chkFireRegister (onPkt runFireRegister) r seq

/-- FIRE_REINIT has no check of its own. -/
def chkFireReinit (_p : Packet) (_d : Dev) : Option Status := none

/-- The effect of FIRE_REINIT (R402, R405, R411, R412): every stream spoils, the deficit clears, M takes the net count, the loop
restarts from rest; a PRIMARY with SIGNAL_OK is the source again and LOST clears. -/
def runFireReinit (p : Packet) (d : Dev) : Dev :=
  let was := d.isWebLost
  let d := d.spoilEvery 0x0B
  let d := match d.primary with
    | some e => if (d.enc e).signalOk then
        { d.setSource e with fire := { (d.setSource e).fire with lostNoPrimary := false, lostSource := false } }
      else d
    | none => d
  let rev := d.fire.reversed
  let d := d.modEnc d.fire.src (fun x => { x with
    deficit := 0, m := x.count, rebase := true, v := 0, p := x.xE, edgeNew := false })
  let d := ({ d with fire := { d.fire with
      lostSat := false, reversed := false, reinits := d.fire.reinits ++ [p.ref] } }).webLost was
  (d.when rev (Dev.lower 10)).executing p

/-- FIRE_REINIT. -/
def execFireReinit (r seq : Nat) : State → Host.Outcome State Fault Refusal :=
  opRow 0x06FF chkFireReinit (onPkt runFireReinit) r seq

end Sys2Proof.Machine
end

