-- ==== Sys2Proof/Machine/Flt.lean ====
section
/-! DEFINITION. The fault collector's commands (spec chapter 16): wire errors, timers, the fabric's replays and the FLT opcodes. -/

namespace Sys2Proof.Machine

/-! ## The pairs -/

/-- FAULT_RAISE (R809). -/
def execFaultRaise (n : Nat) : State → Host.Outcome State Fault Refusal := inDomain 0 (fun d => d.raise n 0)

/-- FAULT_LOWER (R815). -/
def execFaultLower (n : Nat) : State → Host.Outcome State Fault Refusal := inDomain 0 (fun d => d.lower n)

/-- Both wires of a pair at one level set WIRE_ERR, which is logged, and the source counts as raised (R805, R806, R816). -/
def Dev.wireBad (n : Nat) (d : Dev) : Dev :=
  let x := d.src n
  if !d.sourceOn n || 248 ≤ n || x.wireErr then d
  else
    let up := isLevel n && (x.raised || d.heldUp n)
    let d := (d.modSrc n (fun x => { x with wireErr := true })).logEvent n 2
    if up then d else d.activate n 0

/-- FAULT_WIRE_ERROR (R805). -/
def execFaultWireError (n : Nat) : State → Host.Outcome State Fault Refusal := inDomain 0 (Dev.wireBad n)

/-- A pair has been sound for 1 ms: WIRE_ERR clears, and a LEVEL source that nothing else holds raised goes QUIET (R805). -/
def Dev.wireSound (n : Nat) (d : Dev) : Dev :=
  if d.injected true n then d else (d.modSrc n (fun x => { x with wireErr := false })).levelEnds n

/-- WIRE_SOUND_END (R805). -/
def execWireSoundEnd (n : Nat) : State → Host.Outcome State Fault Refusal := inDomain 0 (Dev.wireSound n)

/-! ## Timers -/

/-- A SOFT timer expires: the source acts as SAFE and sets ESCALATED (R810, R815, R816). -/
def Dev.softExpire (n : Nat) (d : Dev) : Dev :=
  if (d.src n).softTimer.isNone then d
  else
    let d := d.modSrc n (fun x => { x with
      softTimer := none, escalated := true, st := if isLevel n then x.st else .quiet })
    ((d.logEvent n 3).msix 0).enterSafe n

/-- SOFT_TIMER_EXPIRE (R810). -/
def execSoftTimerExpire (n : Nat) : State → Host.Outcome State Fault Refusal := inDomain 0 (Dev.softExpire n)

/-- QUIET_MS have passed with no raise (R815). -/
def Src.quietEnd (x : Src) : Src :=
  if x.st = .quiet then { x with st := .idle, recoveries := satInc 16 x.recoveries } else x

/-- QUIET_EXPIRE (R815). -/
def execQuietExpire (n : Nat) : State → Host.Outcome State Fault Refusal := inDomain 0 (Dev.modSrc n Src.quietEnd)

/-- LOCKSTEP_MISMATCH (R812). -/
def execLockstepMismatch : State → Host.Outcome State Fault Refusal := inDomain 5 (fun d => d.raise 12 0)

/-- FW_WATCHDOG_EXPIRE (R812): the watchdog is the operational firmware's. -/
def execFwWatchdogExpire : State → Host.Outcome State Fault Refusal :=
  inDomain 5 (fun d => if d.sys.stage = .operational then d.raise 13 0 else d)

/-! ## Fabric parity -/

/-- A function reset of a lane group's streams (R825, regions 2 and 3): the streams whose lanes LANE_MAP places in groups
4 g to 4 g + 3. -/
def Dev.lanesReset (g : Nat) (d : Dev) : Dev :=
  let streams := (List.range 4).filter (fun s => (List.range 4).any (fun k => bits d.scr.laneMap (3 * (4 * g + k)) 3 = s))
  forL streams (fun s d => (d.spoilAll s 0x0B).discardScreened s) d

/-- What a hop that replays one word 256 times in a row causes, by its region (R825). For a bank port the hop is the bank, and
the outcome that of R731 for every stream the bank's owner serves. -/
def State.fabricEffect (region hop : Nat) (s : State) : State :=
  match region with
  | 0 => (List.range 32).foldl (fun s c => State.dmaAbort c s) s
  | 1 => s.onDev Dev.codecReset
  | 2 => s.onDev (Dev.lanesReset 0)
  | 3 => s.onDev (Dev.lanesReset 1)
  | 4 => s.onDev (fun d => forN 4 (fun st d => if (d.nst st).configured then d.spoilAll st 0x0B else d) d)
  | 5 => s.onDev (fun d => ({ d with flt := { d.flt with lastWarmFault := some d.ns } }).warmReset 5)
  | _ => if hop < 12 then s.onDev (forN 4 (fun st d => d.bankUe hop st)) else s

/-- A hop refuses a word; again tells that it is the word of the hop's previous refusal. The replay is counted, the third in a
row raises FLT_FABRIC_REPLAY with the region and hop as DETAIL, and the 256th has its effect (R823 to R825). -/
def State.parityRefuse (region hop : Nat) (again : Bool) (s : State) : State :=
  if 7 ≤ region || 4096 ≤ hop then s
  else
    let f := s.dev.flt
    let key := region * 4096 + hop
    let run := if again then Tab.get 0 f.fabRun key + 1 else 1
    let s := s.onDev (fun d =>
      let d := { d with flt := { d.flt with
        fabReplays := Tab.set region (satInc 32 (Tab.get 0 f.fabReplays region)) d.flt.fabReplays,
        fabRun := Tab.set key run d.flt.fabRun } }
      if run = 3 then d.raise 11 (region + 16 * hop) else d)
    if run = 256 then s.fabricEffect region hop else s

/-- The power domain of a fabric region (R747, R825). -/
def regionDomain (region : Nat) : Nat :=
  match region with | 0 => 4 | 1 => 4 | 2 => 2 | 3 => 3 | 4 => 1 | 5 => 5 | _ => 6

/-- FABRIC_PARITY_REFUSE (R823 to R825). -/
def execFabricParityRefuse (region hop : Nat) (again : Bool) : State → Host.Outcome State Fault Refusal :=
  inDomainS (regionDomain region) (State.parityRefuse region hop again)

/-! ## FLT opcodes -/

/-- Checks of FLT_CONFIG (R837). -/
def chkFltConfig (p : Packet) (_ : Dev) : Option Status :=
  let r := p.fld 0 0 3
  let q := p.fld 2 0 16
  let t := p.fld 4 0 20
  firstFail
    [(decide (248 ≤ p.target), .badTarget),
     (!p.resvOk [(0, 4, 4), (1, 0, 8), (4, 20, 12)], .malformed),
     (decide (4 < r) || q = 0 || decide (60000 < q) || t = 0 || decide (1000000 < t), .badField),
     (!(r = 4) && (p.target = 12 || p.target = 13), .refused)]

/-- REACTION as a payload codes it (R809). -/
def Reaction.ofCode (n : Nat) : Reaction :=
  match n with | 0 => .ignore | 1 => .log | 2 => .soft | 3 => .safe | _ => .reset

/-- REACTION as a register shows it (R809). -/
def Reaction.code : Reaction → Nat
  | .ignore => 0 | .log => 1 | .soft => 2 | .safe => 3 | .reset => 4

/-- FLT_CONFIG (R836); the reaction applies from the source's next raise and a running SOFT timer goes on (R814). -/
def runFltConfig (p : Packet) (d : Dev) : Dev :=
  (d.modSrc p.target (fun x => { x with
    reaction := Reaction.ofCode (p.fld 0 0 3), webStop := p.flag 0 3, quietMs := p.fld 2 0 16, timerUs := p.fld 4 0 20 })).complete
    p.ref .done 0 0

/-- FLT_CONFIG (R837). -/
def execFltConfig (r seq : Nat) : State → Host.Outcome State Fault Refusal :=
  opRow 0x0E00 chkFltConfig (onPkt runFltConfig) r seq

/-- STATE as a register shows it (R838). -/
def SrcSt.code : SrcSt → Nat
  | .idle => 0 | .active => 1 | .quiet => 2

/-- RESULT of FLT_READ (R838). -/
def Src.result (x : Src) : Nat :=
  x.raises + 2 ^ 16 * x.recoveries + 2 ^ 32 * x.reaction.code + 2 ^ 35 * b2n x.webStop + 2 ^ 36 * x.st.code +
  2 ^ 38 * b2n x.wireErr + 2 ^ 39 * b2n x.escalated

/-- Checks of FLT_READ (R838). -/
def chkFltRead (p : Packet) (_ : Dev) : Option Status := firstFail [(decide (248 ≤ p.target), .badTarget)]

/-- FLT_READ (R838). -/
def runFltRead (p : Packet) (d : Dev) : Dev := d.complete p.ref .done (d.src p.target).result (d.src p.target).detail

/-- FLT_READ (R838). -/
def execFltRead (r seq : Nat) : State → Host.Outcome State Fault Refusal :=
  opRow 0x0E01 chkFltRead (onPkt runFltRead) r seq

/-- Does R821 permit the exit: is every source that requested the safe state IDLE? -/
def Dev.exitReady (d : Dev) : Bool := d.flt.causes.all (fun n => (d.src n).st = .idle)

/-- Checks of FLT_CLEAR (R839). -/
def chkFltClear (p : Packet) (d : Dev) : Option Status :=
  firstFail
    [(!p.resvOk [(0, 3, 29)], .malformed), (p.flag 0 2 && d.flt.held && !d.exitReady, .busy)]

/-- The safe state is left (R821, R816): WEB_STOP_n is released and the refusals of R117 end; loops that the safe state held at 0
run again. -/
def Dev.exitSafe (d : Dev) : Dev :=
  let d := if d.flt.webStop then d.pin .webStop 0 true else d
  let d := ({ d with flt := { d.flt with held := false, webStop := false, causes := [] } }).logEvent 0xFF 5
  (forN 32 (fun l d => d.modLp l (fun x => { x with safeOff := false })) d).resumeRetrains

/-- Does ACK have an effect: an ACTIVE EVENT source (R839)? -/
def Dev.ackActs (n : Nat) (d : Dev) : Bool := !isLevel n && (d.src n).st = .active

/-- Does CLEAR_COUNTS change anything? -/
def Src.countsClear (x : Src) : Bool := !(x.raises = 0) || !(x.recoveries = 0) || x.escalated

/-- FLT_CLEAR (R839): the acknowledgement ends the cause of an EVENT source (R810, R815). -/
def runFltClear (p : Packet) (d : Dev) : Dev :=
  let n := p.target
  let ack := p.flag 0 0 && d.ackActs n
  let counts := p.flag 0 1 && (d.src n).countsClear
  let out := p.flag 0 2 && d.flt.held
  let d := d.when ack (Dev.modSrc n Src.ends)
  let d := d.when counts (Dev.modSrc n (fun x => { x with raises := 0, recoveries := 0, escalated := false }))
  (d.when out Dev.exitSafe).complete p.ref (if ack || counts || out then .done else .doneEmpty) 0 0

/-- FLT_CLEAR (R839). -/
def execFltClear (r seq : Nat) : State → Host.Outcome State Fault Refusal :=
  opRow 0x0E02 chkFltClear (onPkt runFltClear) r seq

/-- Checks of FLT_INJECT (R840). -/
def chkFltInject (p : Packet) (d : Dev) : Option Status :=
  let us := p.fld 1 0 24
  firstFail
    [(decide (248 ≤ p.target), .badTarget), (!p.resvOk [(0, 2, 6)], .malformed),
     (decide (1 < p.fld 0 0 2) || us = 0 || decide (10000000 < us), .badField), (!d.flt.injectEn, .refused)]

/-- FLT_INJECT: the pair is driven to raised, or both its wires low, until the injection ends (R840). -/
def runFltInject (p : Packet) (d : Dev) : Dev :=
  let n := p.target
  let wire := p.fld 0 0 2 = 1
  let up := isLevel n && ((d.src n).raised || d.heldUp n)
  let d := { d.executing p with flt := { d.flt with injects := d.flt.injects ++ [{ src := n, wire := wire, ref := p.ref }] } }
  if wire then d.wireBad n else if up || !d.sourceOn n then d else d.activate n 0

/-- FLT_INJECT (R840). -/
def execFltInject (r seq : Nat) : State → Host.Outcome State Fault Refusal :=
  opRow 0x0E03 chkFltInject (onPkt runFltInject) r seq

/-- The injection ends: a LEVEL source that nothing else holds raised goes QUIET, and its command completes (R840). A pair driven to one level
is sound again 1 ms later (R805). -/
def Dev.injectEnd (ref : PktRef) (d : Dev) : Dev :=
  match d.flt.injects.find? (fun i => i.ref = ref) with
  | none => d
  | some i =>
    let d := { d with flt := { d.flt with injects := d.flt.injects.filter (fun j => !(j.ref = ref)) } }
    (d.levelEnds i.src).complete ref .done 0 0

/-- FLT_INJECT_END (R840). -/
def execFltInjectEnd (r seq : Nat) : State → Host.Outcome State Fault Refusal := inDomain 0 (Dev.injectEnd (r, seq))

/-- Checks of FLT_REINIT. -/
def chkFltReinit (_ : Packet) (_ : Dev) : Option Status := none

/-- FLT_REINIT: WIRE_ERR clears on the pairs that no injection holds at one level (R841); no state, counter or reaction changes. -/
def runFltReinit (p : Packet) (d : Dev) : Dev :=
  (forN 248 (fun n d => if (d.src n).wireErr && !d.injected true n then d.modSrc n (fun x => { x with wireErr := false }) else d) d).complete
    p.ref .done 0 0

/-- FLT_REINIT (R841). -/
def execFltReinit (r seq : Nat) : State → Host.Outcome State Fault Refusal :=
  opRow 0x0EFF chkFltReinit (onPkt runFltReinit) r seq

end Sys2Proof.Machine
end

