-- ==== Sys2Proof/Machine/HeadOps.lean ====
section
/-! DEFINITION. The HEAD commands (spec chapter 9). -/

namespace Sys2Proof.Machine

/-- Is the port in training, or between the attempts of a retraining (R481)? -/
def HlPort.inTraining (h : HlPort) : Bool := h.st = .training || h.st = .auth || h.st = .loading || h.retry = 4

/-- Has a port's stream a COMMITTED or FIRING imprint? -/
def Dev.portOnWeb (d : Dev) (p : Nat) : Bool := (d.streamOf p).any (fun s => !(d.onWeb s).isEmpty)

/-- Training of a port that a command cuts short: its command completes with ABORTED, a retraining ends, and so does a
waveform transfer (R491, R501). -/
def Dev.cutTraining (p : Nat) (d : Dev) : Dev :=
  let h := d.hp p
  let busy := h.st = .reset && h.resetRef.isNone || h.inTraining
  let d := d.modHp p (fun h => { h with
    trainRef := none, retry := 0, wasUp := false, failCause := if busy then 5 else h.failCause })
  (d.complete? h.trainRef .aborted 0 0).endReload p

/-- Checks of HEAD_TRAIN (R481). -/
def chkHeadTrain (p : Packet) (d : Dev) : Option Status :=
  let h := d.hp p.target
  let ms := p.fld 2 0 10
  let noReset := p.flag 0 3
  firstFail
    [(!p.resvOk [(0, 4, 4), (1, 6, 2), (2, 10, 6), (4, 0, 32)], .malformed),
     (p.fld 1 0 6 < 4 || 32 < p.fld 1 0 6 || 1000 < ms || (!noReset && ms = 0), .badField),
     (noReset && !(ms = 0), .badField),
     (h.inTraining, .busy),
     (h.st = .up && d.portOnWeb p.target, .busy),
     (d.flt.held, .safeState)]

/-- HEAD_TRAIN (R478, R479): the settings, and training. -/
def runHeadTrain (p : Packet) (d : Dev) : Dev :=
  let t := p.target
  let d := d.cutTraining t
  let d := d.modHp t (fun h => { h with
    authReq := p.flag 0 0, hvFf := p.flag 0 1, autoRetrain := p.flag 0 2, sendAhead := p.fld 1 0 6, hrstMs := p.fld 2 0 10,
    trainRef := some p.ref })
  (d.startTraining t (!p.flag 0 3)).executing p

/-- HEAD_TRAIN (R481). -/
def execHeadTrain (r seq : Nat) : State → Host.Outcome State Fault Refusal :=
  opRow 0x0700 chkHeadTrain (onPkt runHeadTrain) r seq

/-- Checks of HEAD_AUTH (R498). -/
def chkHeadAuth (p : Packet) (d : Dev) : Option Status :=
  let op := p.fld 0 0 2
  let key := p.fld 0 2 2
  firstFail
    [(op = 1 && !(p.target = 0), .badTarget),
     (!p.resvOk [(0, 4, 4), (1, 0, 56)], .malformed),
     (1 < op, .badField),
     (op = 0 && !(p.fld 8 0 128 = 0), .badField),
     (op = 1 && d.hl.fuseDone.testBit key, .refused)]

/-- HEAD_AUTH (R498): RUN authenticates, PROVISION programs a key fuse slot. -/
def runHeadAuth (p : Packet) (d : Dev) : Dev :=
  if p.fld 0 0 2 = 1 then
    let key := p.fld 0 2 2
    ({ d with hl := { d.hl with
        fuses := Tab.set key (p.fld 8 0 128) d.hl.fuses, fuseDone := d.hl.fuseDone ||| 2 ^ key } }).complete p.ref .done 0 0
  else (d.executing p).nextI2c p.target

/-- HEAD_AUTH (R498). -/
def execHeadAuth (r seq : Nat) : State → Host.Outcome State Fault Refusal :=
  opRow 0x0701 chkHeadAuth (onPkt runHeadAuth) r seq

/-- Is slot k of port t named by a scheduled HEAD_SELECT_WAVE? -/
def Dev.selectPending (d : Dev) (t : Nat) (k : Nat → Bool) : Bool :=
  (d.streamOf t).any (fun s => (d.nst s).changes.any (fun (c : Change) => c.op = 0x0703 && c.target = t && k (c.fld 0 2 3)))

/-- Checks of HEAD_LOAD_WAVE (R490, R333). -/
def chkHeadLoadWave (p : Packet) (d : Dev) : Option Status :=
  let h := d.hp p.target
  let slot := p.fld 8 0 3
  let count := p.fld 10 0 16
  d.loadChecks 16 p
    (d.prefixRows 16 p [(8, 3, 13), (12, 0, 32)] ++
      [(count < 1 || 1024 < count, .badField)] ++ d.sizeRows 16 p (2 * count) ++
      [(h.st = .up && (decide (h.waves ≤ slot) || decide (h.waveSamples < count)), .badField),
       (h.slot = slot || d.selectPending p.target (fun k => k = slot), .busy)])
    (fun _ => [])

/-- HEAD_LOAD_WAVE (R489, R491): the slot is replaced; on an UP port WAVE_RELOAD sends it. -/
def runHeadLoadWave (p : Packet) (d : Dev) : Dev :=
  let t := p.target
  let slot := p.fld 8 0 3
  let w : Wave := { loaded := true, count := p.fld 10 0 16, samples := words16 (d.tableBytes 16 p) }
  let d := d.modHp t (fun h => { h with slots := Tab.set slot w h.slots })
  if (d.hp t).st = .up then d.startDeviceAct p 5 (2 ^ t) slot else d.complete p.ref .done 0 0

/-- HEAD_LOAD_WAVE (R491). -/
def execHeadLoadWave (r seq : Nat) : State → Host.Outcome State Fault Refusal :=
  opRow 0x0702 chkHeadLoadWave (onPkt runHeadLoadWave) r seq

/-- Checks of HEAD_SELECT_WAVE (R492, R377, R384). -/
def chkHeadSelectWave (p : Packet) (d : Dev) : Option Status :=
  let when_ := p.fld 0 0 2
  let wp := p.fld 8 0 48
  firstFail
    [(!p.resvOk [(0, 5, 3), (1, 0, 56), (8, 48, 16)], .malformed),
     (!(Tab.get Wave.reset (d.hp p.target).slots (p.fld 0 2 3)).loaded, .badField),
     (d.selectPending p.target (fun _ => true), .busy),
     (whenBad when_ wp, .badField),
     ((d.streamOf p.target).any (fun s => when_ = 0 && d.tooNear s wp) && !p.lateOk, .late)]

/-- HEAD_SELECT_WAVE (R492): scheduled on the port's stream; at once on a port of no stream. -/
def runHeadSelectWave (p : Packet) (d : Dev) : Dev :=
  match d.streamOf p.target with
  | some s => d.schedule s p (p.fld 0 0 2) (p.fld 8 0 48) []
  | none => (d.modHp p.target (fun h => { h with slot := p.fld 0 2 3 })).complete p.ref .done unknownWp 0

/-- HEAD_SELECT_WAVE (R492). -/
def execHeadSelectWave (r seq : Nat) : State → Host.Outcome State Fault Refusal :=
  opRow 0x0703 chkHeadSelectWave (onPkt runHeadSelectWave) r seq

/-- Checks of HEAD_RESET (R501). -/
def chkHeadReset (p : Packet) (_ : Dev) : Option Status :=
  firstFail [(!p.resvOk [(0, 10, 22)], .malformed), (p.fld 0 0 10 < 1 || 1000 < p.fld 0 0 10, .badField)]

/-- HEAD_RESET (R501): spoils, ends training and asserts reset; a reset already in progress is taken over, its command
completing with ABORTED (log entry 27). -/
def runHeadReset (p : Packet) (d : Dev) : Dev :=
  let t := p.target
  let d := (d.spoilPort t 0x0B).cutTraining t
  let old := (d.hp t).resetRef
  let d := (d.modHp t (fun h => { h.cut with st := .reset, resetRef := some p.ref })).complete? old .aborted 0 0
  (d.setHrst t true).executing p

/-- HEAD_RESET (R501). -/
def execHeadReset (r seq : Nat) : State → Host.Outcome State Fault Refusal :=
  opRow 0x0704 chkHeadReset (onPkt runHeadReset) r seq

/-- Checks of HEAD_READ_COUNTER: none of its own (R500). -/
def chkHeadReadCounter (_ : Packet) (_ : Dev) : Option Status := none

/-- HEAD_READ_COUNTER (R500): a fresh authentication, whose end answers. -/
def runHeadReadCounter (p : Packet) (d : Dev) : Dev := (d.executing p).nextI2c p.target

/-- HEAD_READ_COUNTER (R500). -/
def execHeadReadCounter (r seq : Nat) : State → Host.Outcome State Fault Refusal :=
  opRow 0x0705 chkHeadReadCounter (onPkt runHeadReadCounter) r seq

/-- Checks of HEAD_REINIT: it trains a head port (R117). -/
def chkHeadReinit (_ : Packet) (d : Dev) : Option Status := firstFail [(d.flt.held, .safeState)]

/-- HEAD_REINIT (R502): spoils as HEAD_RESET does and retrains without reset. -/
def runHeadReinit (p : Packet) (d : Dev) : Dev :=
  let t := p.target
  let d := (d.spoilPort t 0x0B).cutTraining t
  ((d.modHp t (fun h => { h with trainRef := some p.ref })).startTraining t false).executing p

/-- HEAD_REINIT (R502). -/
def execHeadReinit (r seq : Nat) : State → Host.Outcome State Fault Refusal :=
  opRow 0x07FF chkHeadReinit (onPkt runHeadReinit) r seq

end Sys2Proof.Machine
end

