-- ==== Sys2Proof/Machine/Motion.lean ====
section
/-! DEFINITION. Motion axes and electronic gearing (spec chapter 12). The instants and speeds of a profile's pulses are those
the planner of R608 gives; AXIS_STEP_PULSE brings each pulse, with the commanded velocity and whether it is the profile's
last, and the model keeps position, state and outcome. Geared positions are in 2^-48 microsteps. -/

namespace Sys2Proof.Machine

/-- The first motion on an axis whose AX_n_EN is released asserts it; pulses wait EN_SETUP_MS (R621). -/
def Dev.enableAxis (n : Nat) (d : Dev) : Dev :=
  let a := d.axis n
  if a.en then d
  else (d.modAxis n (fun a => { a with en := true, enWait := true })).pin .axEn n a.enHigh

/-- Is motion in a direction towards an active limit input (R618)? -/
def Axis.towardsLimit (a : Axis) (positive : Bool) : Bool := a.limEn && (if positive then a.limP else a.limN)

/-! ## Gearing -/

/-- The position a geared axis commands at S = w (2^-16 sub-dots), in 2^-48 microsteps (R634, R636). -/
def Axis.gearPos (a : Axis) (w : Int) : Int :=
  match a.blending, a.chg with
  | true, some (p, r1, b) =>
    let xP := a.x0 + a.ratio * (p - a.w0)
    let bw : Int := b * 2 ^ 16
    if w ≤ p + bw then xP + a.ratio * (w - p) + (r1 - a.ratio) * (w - p) * (w - p) / (2 * bw)
    else xP + (a.ratio + r1) * bw / 2 + r1 * (w - p - bw)
  | _, _ => a.x0 + a.ratio * (w - a.w0)

/-- A blend that S has passed becomes plain gearing at the new ratio (R636). -/
def Axis.settleBlend (w : Int) (a : Axis) : Axis :=
  match a.blending, a.chg with
  | true, some (p, r1, b) =>
    let bw : Int := b * 2 ^ 16
    if p + bw < w then
      { a with
        x0 := a.x0 + a.ratio * (p - a.w0) + (a.ratio + r1) * bw / 2, w0 := p + bw, ratio := r1, chg := none,
        blending := false }
    else a
  | _, _ => a

/-- The source's measured speed, 2^-24 sub-dots per ns; 0 at standstill (R415). -/
def Dev.webV (d : Dev) : Nat := (d.enc d.fire.src).v

/-- The axis locks: GEARED, with x0 the axis position and w0 the value of S (R633). -/
def Dev.lockGear (n : Nat) (d : Dev) : Dev :=
  d.modAxis n (fun a => { a with st := .geared, mode := .none, x0 := a.pos * 2 ^ 48, w0 := d.fire.s })

/-- Gearing is lost when the web is lost or |r| × v exceeds V_MAX (R637). -/
def Dev.checkGear (n : Nat) (d : Dev) : Dev :=
  let a := d.axis n
  if a.engaged && (d.fire.lost || decide ((a.plan.vMax : Int) * 2 ^ 56 < mag a.ratio * d.webV * 1000000000)) then
    let d := (d.modAxis n (fun a => { a with gearLost := true, chg := none, blending := false })).raise (136 + n) 0
    if a.fallback then
      d.modAxis n (fun a => { a with
        st := .moving, mode := .velocity, vTarget := clampI a.vel (- a.plan.vMax) a.plan.vMax })
    else d.stopPlanned n false
  else d

/-! ## Commands -/

/-- Largest V_MAX for a STEP_DIV (R606). -/
def vLimit (stepDiv : Nat) : Nat := 2000000 * 2 ^ stepDiv

/-- Is x a multiple of 2^STEP_DIV? -/
def onStep (stepDiv : Nat) (x : Int) : Bool := x % (2 ^ stepDiv : Nat) = 0

/-- The checks of MOT_CONFIG (R605, R643). -/
def chkMotConfig (p : Packet) (d : Dev) : Option Status :=
  let a := d.axis p.target
  firstFail [
    (!p.resvOk [(6, 4, 4), (7, 0, 8), (8, 0, 64)], .malformed),
    (8 < p.fld 0 0 4 || p.fld 1 0 8 < 10 || 25 < p.fld 1 0 8 || p.fld 2 0 16 < 2 || 500 < p.fld 2 0 16 ||
      1000 < p.fld 4 0 16 || vLimit (p.fld 0 0 4) < a.lim.vMax, .badField),
    (!a.atRest, .busy)]

/-- The effect of MOT_CONFIG (R605, R621). -/
def runMotConfig (p : Packet) (d : Dev) : Dev :=
  let n := p.target
  let d := d.modAxis n (fun a => { a with
    configured := true, stepDiv := p.fld 0 0 4, dirInvert := p.flag 0 4, enHigh := p.flag 0 5, safeGear := p.flag 0 6,
    fallback := p.flag 0 7, pulse := p.fld 1 0 8, dirSetup := p.fld 2 0 16, enSetupMs := p.fld 4 0 16,
    homeHigh := p.flag 6 0, limHigh := p.flag 6 1, limEn := p.flag 6 2, noHome := p.flag 6 3, en := false,
    st := .disabled, pos := if p.flag 6 3 then 0 else a.pos, posLost := a.posLost && !p.flag 6 3 })
  (d.pin .axEn n (!p.flag 0 5)).complete p.ref .done 0 0

/-- MOT_CONFIG. -/
def execMotConfig (r seq : Nat) : State → Host.Outcome State Fault Refusal :=
  opRow 0x0900 chkMotConfig (onPkt runMotConfig) r seq

/-- The target a MOT_MOVE names; none for a VELOCITY move and for a RESUME of one (R610, R620). -/
def moveTarget (p : Packet) (a : Axis) : Option Int :=
  match p.fld 0 0 2 with
  | 0 => some (p.sfld 8 0 40)
  | 1 => some (sInt 40 (twos 40 ((if a.mode = .toTarget then a.target else a.pos) + p.sfld 8 0 40)))
  | 2 => a.kept
  | _ => none

/-- The velocity a MOT_MOVE names: of a VELOCITY move, or of a RESUME of one. -/
def moveVel (p : Packet) (a : Axis) : Int :=
  if p.fld 0 0 2 = 3 then p.sfld 8 0 40 else a.keptV.getD 0

/-- Does a MOT_MOVE start in the positive direction? -/
def movePositive (p : Packet) (a : Axis) : Bool :=
  match moveTarget p a with
  | some t => decide (a.pos < t)
  | none => decide (0 < moveVel p a)

/-- The checks of MOT_MOVE, in the order of R643. -/
def chkMotMove (p : Packet) (d : Dev) : Option Status :=
  let a := d.axis p.target
  let kind := p.fld 0 0 2
  let v := p.sfld 8 0 40
  let nothing := (kind = 2 && a.kept = none && a.keptV = none)
  firstFail [
    (!p.resvOk [(0, 2, 6), (1, 0, 56), (13, 0, 24)], .malformed),
    ((kind = 2 && !(v = 0)) || (kind = 3 && (v = 0 || decide ((a.lim.vMax : Int) < mag v))), .badField),
    ((kind = 0 || kind = 1) && !onStep a.stepDiv v, .badField),
    (!a.configured, .refused),
    (d.flt.held, .safeState),
    (5 ≤ d.sched.stage, .powerShed),
    (!nothing && a.towardsLimit (movePositive p a), .refused),
    (a.engaged || a.st = .homing, .busy),
    ((match moveTarget p a with | some t => decide (t < a.softMin) || decide (a.softMax < t) | none => false), .badField),
    ((kind = 1 && v = 0) || (kind = 0 && a.atRest && v = a.pos) || nothing, .doneEmpty)]

/-- The effect of MOT_MOVE: the profile is planned with the limits in force and started (R608, R611 to R613, R620). -/
def runMotMove (p : Packet) (d : Dev) : Dev :=
  let n := p.target
  let a := d.axis n
  let d := d.enableAxis n
  match moveTarget p a with
  | some t =>
    let d := d.modAxis n (fun a => { a with
      plan := a.lim, mode := .toTarget, st := .moving, target := t, kept := none, keptV := none, folPend := [] })
    let d := if t = a.pos && a.vel = 0 then d.axisRest n else d
    d.complete p.ref .done (twos 40 t) 0
  | none =>
    let v := moveVel p a
    (d.modAxis n (fun a => { a with
      plan := a.lim, mode := .velocity, st := .moving, vTarget := v, kept := none, keptV := none,
      folPend := [] })).complete p.ref .done 0 0

/-- MOT_MOVE. -/
def execMotMove (r seq : Nat) : State → Host.Outcome State Fault Refusal :=
  opRow 0x0901 chkMotMove (onPkt runMotMove) r seq

/-- The checks of MOT_STOP (R619, R643). A DISABLE stop of an axis at rest has its effect and then completes with
DONE_EMPTY, so it is no failed check. -/
def chkMotStop (p : Packet) (d : Dev) : Option Status :=
  let a := d.axis p.target
  firstFail [
    (!p.resvOk [(0, 2, 6), (1, 0, 24)], .malformed),
    (p.fld 0 0 2 = 3, .badField),
    (!a.configured, .refused),
    (a.atRest && !(p.fld 0 0 2 = 2), .doneEmpty)]

/-- The effect of MOT_STOP (R616, R619, R638). -/
def runMotStop (p : Packet) (d : Dev) : Dev :=
  let n := p.target
  let a := d.axis n
  let mode := p.fld 0 0 2
  if a.atRest then
    ((d.modAxis n (fun a => { a with disableAfter := true })).axisRest n).complete p.ref .doneEmpty 0 0
  else
    let d := (d.modAxis n (fun a => { a with
      stops := a.stops ++ [p.ref], disableAfter := a.disableAfter || mode = 2 })).executing p
    if mode = 1 then d.stopNow n 3 else d.stopService n

/-- MOT_STOP. -/
def execMotStop (r seq : Nat) : State → Host.Outcome State Fault Refusal :=
  opRow 0x0902 chkMotStop (onPkt runMotStop) r seq

/-- The checks of MOT_HOME (R622, R643). -/
def chkMotHome (p : Packet) (d : Dev) : Option Status :=
  let a := d.axis p.target
  firstFail [
    (!p.resvOk [(0, 1, 7), (1, 0, 24), (21, 0, 24), (28, 0, 32)], .malformed),
    (p.fld 4 0 32 = 0 || a.lim.vMax < p.fld 4 0 32 || p.fld 8 0 32 = 0 || p.fld 4 0 32 < p.fld 8 0 32 ||
      p.fld 12 0 32 = 0 || 2147483647 < p.fld 12 0 32 || p.fld 24 0 32 = 0 || 2147483647 < p.fld 24 0 32, .badField),
    (!onStep a.stepDiv (p.fld 12 0 32) || !onStep a.stepDiv (p.sfld 16 0 40), .badField),
    (!a.configured, .refused),
    (d.flt.held, .safeState),
    (5 ≤ d.sched.stage, .powerShed),
    (!a.atRest, .busy)]

/-- The effect of MOT_HOME: homing starts at step 1 when the home input is active, else at step 2 (R623, R624). -/
def runMotHome (p : Packet) (d : Dev) : Dev :=
  let n := p.target
  let d := d.enableAxis n
  (d.modAxis n (fun a => { a with
    plan := a.lim, st := .homing, mode := .none, homeResult := 2, homeStep := if a.home then 1 else 2, homeBack := none,
    homeRun := 0, homeDir := p.flag 0 0, vFast := p.fld 4 0 32, vSlow := p.fld 8 0 32, backoff := p.fld 12 0 32,
    homePos := p.sfld 16 0 40, maxSearch := p.fld 24 0 32, kept := none, keptV := none })).complete p.ref .done 0 0

/-- MOT_HOME. -/
def execMotHome (r seq : Nat) : State → Host.Outcome State Fault Refusal :=
  opRow 0x0903 chkMotHome (onPkt runMotHome) r seq

/-- The checks of MOT_FOLLOW (R625, R643); the direction of the follow input's present DIR level is the one R618 looks
at (log entry 16). -/
def chkMotFollow (p : Packet) (d : Dev) : Option Status :=
  let a := d.axis p.target
  let en := p.flag 0 0
  let positive := !((d.fol (p.fld 0 1 2)).dir = p.flag 0 3)
  firstFail [
    (!p.resvOk [(0, 4, 4), (1, 0, 8), (2, 9, 7)], .malformed),
    (p.fld 2 0 9 = 0 || 256 < p.fld 2 0 9 || p.fld 4 0 32 < 10 || 1000000 < p.fld 4 0 32, .badField),
    (!a.configured, .refused),
    (en && d.flt.held, .safeState),
    (en && a.towardsLimit positive, .refused),
    (en && !a.atRest && !a.engaged, .busy),
    (a.engaged, .busy),
    (!en && !(a.st = .following), .doneEmpty)]

/-- The effect of MOT_FOLLOW (R625). -/
def runMotFollow (p : Packet) (d : Dev) : Dev :=
  let n := p.target
  if p.flag 0 0 then
    let d := d.enableAxis n
    (d.modAxis n (fun a => { a with
      plan := a.lim, st := .following, mode := .none, folIn := p.fld 0 1 2, folInv := p.flag 0 3, folMult := p.fld 2 0 9,
      folGap := p.fld 4 0 32, folPend := [], folLast := none, kept := none, keptV := none })).complete p.ref .done 0 0
  else (d.stopPlanned n false).complete p.ref .done 0 0

/-- MOT_FOLLOW. -/
def execMotFollow (r seq : Nat) : State → Host.Outcome State Fault Refusal :=
  opRow 0x0904 chkMotFollow (onPkt runMotFollow) r seq

/-- The web speed of R632: 64 × MAX_RATE of the stream, sub-dots per second. -/
def Dev.gearV (d : Dev) (st : Nat) : Nat := 64 * (d.nst st).maxRate

/-- The start of a CHANGE's blend: APPLY_WP + D for AT_WP, S for EARLIEST, in 2^-16 sub-dots not reduced (R635). An AT_WP
position is the first at or after S with the given residue, or the last before it. -/
def Dev.blendAt (p : Packet) (d : Dev) : Int :=
  if p.fld 0 4 2 = 1 then d.fire.s
  else
    let wp : Int := p.fld 16 0 48 + (d.fst (p.fld 0 2 2)).datum
    d.fire.s + sInt 48 (twos 48 (wp - d.fire.s / 2 ^ 16)) * 2 ^ 16 - d.fire.s % 2 ^ 16

/-- The checks of MOT_GEAR (R631, R632, R635, R636, R643). A CHANGE or RELEASE of an axis that is not geared is a DESIGN
CHOICE (log entry 16). -/
def chkMotGear (p : Packet) (d : Dev) : Option Status :=
  let a := d.axis p.target
  let op := p.fld 0 0 2
  let st := p.fld 0 2 2
  let ratio := p.sfld 8 0 64
  let v : Int := d.gearV st
  let change := op = 1
  let atWp := change && p.fld 0 4 2 = 0
  let eng := (List.range 8).countP (fun n => (d.axis n).engaged)
  firstFail [
    (!p.resvOk [(0, 6, 2), (1, 0, 56), (22, 0, 16), (28, 0, 96)], .malformed),
    (op = 3 || (change && 1 < p.fld 0 4 2) || (!change && !(p.fld 0 4 2 = 0)) ||
      (!(op = 2) && (ratio = 0 || decide ((2 : Int) ^ 48 < mag ratio))) || (!atWp && !(p.fld 16 0 48 = 0)) ||
      (change && p.fld 24 0 32 < 64) || (!change && !(p.fld 24 0 32 = 0)), .badField),
    (!a.configured, .refused),
    (op = 0 && d.flt.held, .safeState),
    (!(d.nst st).configured, .refused),
    (op = 0 && a.towardsLimit (decide (0 < ratio)), .refused),
    (op = 0 && (a.engaged || a.st = .homing), .busy),
    (change && !(a.chg = none), .busy),
    (change && !(a.st = .geared), .refused),
    (!(op = 2) && decide ((a.lim.vMax : Int) * 2 ^ 32 < mag ratio * v), .badField),
    (change && decide ((a.lim.aMax : Int) * p.fld 24 0 32 * 2 ^ 32 < mag (ratio - a.ratio) * v * v), .badField),
    (op = 0 && 4 ≤ eng, .noResource),
    (op = 2 && !a.engaged, .doneEmpty),
    (atWp && !p.lateOk && decide (d.blendAt p ≤ d.fire.s), .late)]

/-- The effect of MOT_GEAR (R633 to R636, R638). -/
def runMotGear (p : Packet) (d : Dev) : Dev :=
  let n := p.target
  match p.fld 0 0 2 with
  | 0 =>
    let d := d.enableAxis n
    let d := d.modAxis n (fun a => { a with
      plan := a.lim, st := .engaging, mode := .none, ratio := p.sfld 8 0 64, kept := none,
      keptV := none, folPend := [] })
    let d := if (d.enc d.fire.src).still then d.lockGear n else d
    d.complete p.ref .done 0 0
  | 1 =>
    let at' := d.blendAt p
    let now := decide (at' ≤ d.fire.s)
    let d := d.modAxis n (fun a => { a.settleBlend d.fire.s with
      chg := some (if now then d.fire.s else at', p.sfld 8 0 64, p.fld 24 0 32), blending := now, plan := a.lim })
    let d := d.when (now && p.fld 0 4 2 = 0) (Dev.modPacket p.ref (fun q => { q with late := true }))
    d.complete p.ref .done 0 0
  | _ => (d.stopService n).complete p.ref .done 0 0

/-- MOT_GEAR. -/
def execMotGear (r seq : Nat) : State → Host.Outcome State Fault Refusal :=
  opRow 0x0905 chkMotGear (onPkt runMotGear) r seq

/-- The checks of MOT_SET_LIMITS (R606, R607, R643). -/
def chkMotSetLimits (p : Packet) (d : Dev) : Option Status :=
  let a := d.axis p.target
  let soft := p.flag 0 1
  let lo := p.sfld 24 0 40
  let hi := p.sfld 32 0 40
  firstFail [
    (!p.resvOk [(0, 2, 6), (1, 0, 24), (20, 0, 32), (29, 0, 24), (37, 0, 24)], .malformed),
    (p.fld 4 0 32 = 0 || vLimit a.stepDiv < p.fld 4 0 32 || p.fld 8 0 32 = 0 || p.fld 12 0 32 = 0 || p.fld 16 0 32 = 0 ||
      (!soft && !(lo = 0 && hi = 0)), .badField),
    (!a.configured, .refused),
    (soft && (a.pos < lo || hi < a.pos || (a.mode = .toTarget && (a.target < lo || hi < a.target))), .badField)]

/-- The effect of MOT_SET_LIMITS (R607, R613, R614). -/
def runMotSetLimits (p : Packet) (d : Dev) : Dev :=
  let dm := p.fld 12 0 32
  (d.modAxis p.target (fun a => { a with
    lim := { vMax := p.fld 4 0 32, aMax := p.fld 8 0 32, dMax := dm, jMax := p.fld 16 0 32 },
    plan := if p.flag 0 0 && a.plan.dMax < dm then { a.plan with dMax := dm } else a.plan,
    softMin := if p.flag 0 1 then p.sfld 24 0 40 else a.softMin,
    softMax := if p.flag 0 1 then p.sfld 32 0 40 else a.softMax })).complete p.ref .done 0 0

/-- MOT_SET_LIMITS. -/
def execMotSetLimits (r seq : Nat) : State → Host.Outcome State Fault Refusal :=
  opRow 0x0906 chkMotSetLimits (onPkt runMotSetLimits) r seq

/-- MOT_REINIT has no checks of its own but that of an unconfigured axis (R643). -/
def chkMotReinit (p : Packet) (d : Dev) : Option Status := firstFail [(!(d.axis p.target).configured, .refused)]

/-- The effect of MOT_REINIT (R642). -/
def runMotReinit (p : Packet) (d : Dev) : Dev := (d.stopNow p.target 3).complete p.ref .done 0 0

/-- MOT_REINIT. -/
def execMotReinit (r seq : Nat) : State → Host.Outcome State Fault Refusal :=
  opRow 0x09FF chkMotReinit (onPkt runMotReinit) r seq

/-! ## Pulses and edges -/

/-- A homing step has come to its stop; the next one starts, or homing is done (R623, R624). -/
def Dev.homeNext (n : Nat) (d : Dev) : Dev :=
  let a := d.axis n
  if a.homeStep = 4 then
    (d.modAxis n (fun a => { a with homeResult := 1, homed := true, posLost := false, homeStep := 0 })).axisRest n
  else d.modAxis n (fun a => { a with homeStep := a.homeStep + 1, homeBack := none, homeRun := 0, vel := 0 })

/-- What a pulse means to a homing run: the distance of the step, the way beyond the switch edge, or the end of a ramp. -/
def Dev.homePulse (n : Nat) (final : Bool) (d : Dev) : Dev :=
  let a := d.axis n
  let u := 2 ^ a.stepDiv
  match a.homeBack with
  | some k =>
    if k ≤ u && (0 < k || final) then d.homeNext n
    else d.modAxis n (fun a => { a with homeBack := some (k - u) })
  | none =>
    if a.maxSearch < a.homeRun + u then d.stopNow n 5
    else d.modAxis n (fun a => { a with homeRun := a.homeRun + u })

/-- One microstep group of a following axis is emitted, or discarded at a soft limit (R626, R629). -/
def Dev.followPulse (n : Nat) (d : Dev) : Dev :=
  d.modAxis n (fun a =>
    match a.folPend with
    | [] => a
    | (dir, c, sp) :: rest => { a with
        folPend := if c ≤ 2 ^ a.stepDiv then rest else (dir, c - 2 ^ a.stepDiv, sp) :: rest })

/-- Is a pulse in this direction one that the axis's motion sends now? A following axis sends only pending microsteps
(R626), a geared one only as far as its commanded position (R634), a homing one in the direction of its step and no faster than
its search or latch speed (R623). -/
def Dev.pulseDue (n : Nat) (velocity : Int) (d : Dev) : Bool :=
  let a := d.axis n
  let positive := decide (0 < velocity)
  let next : Int := a.pos + (if positive then 1 else -1) * (2 ^ a.stepDiv : Nat)
  match a.st with
  | .moving => true
  | .stopping => true
  | .homing => decide (positive = if a.homeStep = 2 || a.homeStep = 4 then a.homeDir else !a.homeDir) &&
    decide (mag velocity ≤ (if a.homeStep = 2 then a.vFast else a.vSlow))
  | .engaging => true
  | .following => match a.folPend with
    | (dir, c, _) :: _ => dir = positive && decide (2 ^ a.stepDiv ≤ c)
    | [] => false
  | .geared =>
    let x := a.gearPos d.fire.s
    if positive then decide (next * 2 ^ 48 ≤ x) else decide (x ≤ next * 2 ^ 48)
  | _ => false

/-- The effect of AXIS_STEP_PULSE (R609, R615, R619, R623, R626, R629, R634): a pulse of the axis's motion, in the direction of the
commanded velocity and no faster than its V_MAX, moves the position by 2^STEP_DIV microsteps; the last one ends the move,
the stop or the homing step. -/
def Dev.onAxisStepPulse (n : Nat) (velocity : Int) (final : Bool) (d : Dev) : Dev :=
  let d := d.modAxis n (Axis.settleBlend d.fire.s)
  let a := d.axis n
  let positive := decide (0 < velocity)
  if !a.en || a.enWait || velocity = 0 || decide ((a.plan.vMax : Int) < mag velocity) ||
     a.towardsLimit positive || !d.pulseDue n velocity then d
  else
    let pos' := a.pos + (if positive then 1 else -1) * (2 ^ a.stepDiv : Nat)
    if a.st = .following && (decide (pos' < a.softMin) || decide (a.softMax < pos')) then
      ((d.followPulse n).modAxis n (fun a => { a with softHit := true })).raise (128 + n) 0
    else
      let d := d.modAxis n (fun a => { a with pos := pos', vel := velocity, pulses := (a.pulses + 1) % 2 ^ 32 })
      let d := (d.pin .axDir n (!(positive = a.dirInvert))).pin .axStep n true
      match a.st with
      | .moving =>
        if a.mode = .toTarget then (if final && pos' = a.target then d.axisRest n else d)
        else if pos' = (if positive then a.softMax else a.softMin) then
          (d.modAxis n (fun a => { a with softHit := true, kept := none, keptV := none })).axisRest n
        else d
      | .stopping => if final then d.axisRest n else d
      | .homing => d.homePulse n final
      | .following => d.followPulse n
      | _ => d

/-- AXIS_STEP_PULSE (R609, R615, R619, R623, R626, R629, R634). -/
def execAxisStepPulse (n : Nat) (velocity : Int) (final : Bool) : State → Host.Outcome State Fault Refusal :=
  inDomain 11 (Dev.onAxisStepPulse n velocity final)

/-- AXIS_ENABLE_SETUP_END (R621). -/
def execAxisEnableSetupEnd (n : Nat) : State → Host.Outcome State Fault Refusal :=
  inDomain 11 fun d => d.modAxis n (fun a => { a with enWait := false })

/-- The effect of AXIS_LIMIT_ACTIVE (R618): a limit input changes; one that becomes active while the axis moves towards it stops the axis
immediately, with LIMIT_HIT and FLT_MOT_LIMIT. -/
def Dev.onAxisLimitActive (n : Nat) (positive active : Bool) (d : Dev) : Dev :=
  let a := d.axis n
  let d := d.modAxis n (fun a => if positive then { a with limP := active } else { a with limN := active })
  if active && a.limEn && !a.atRest && (if positive then decide (0 < a.vel) else decide (a.vel < 0)) then
    ((d.modAxis n (fun a => { a with limitHit := true })).stopNow n 4).raise (128 + n) 0
  else d

/-- AXIS_LIMIT_ACTIVE (R618). -/
def execAxisLimitActive (n : Nat) (positive active : Bool) : State → Host.Outcome State Fault Refusal :=
  inDomain 11 (Dev.onAxisLimitActive n positive active)

/-- The effect of AXIS_HOME_EDGE (R623): an edge of the home input; the edge a homing step waits for starts its way beyond the edge, its
ramp to rest, or in step 4 the latch of the home position. -/
def Dev.onAxisHomeEdge (n : Nat) (active : Bool) (d : Dev) : Dev :=
  let a := d.axis n
  let d := d.modAxis n (fun a => { a with home := active })
  if a.st = .homing && a.homeBack = none then
    if (a.homeStep = 1 || a.homeStep = 3) && !active then d.modAxis n (fun a => { a with homeBack := some a.backoff })
    else if a.homeStep = 2 && active then d.modAxis n (fun a => { a with homeBack := some 0 })
    else if a.homeStep = 4 && active then d.modAxis n (fun a => { a with homeBack := some 0, pos := a.homePos })
    else d
  else d

/-- AXIS_HOME_EDGE (R623). -/
def execAxisHomeEdge (n : Nat) (active : Bool) : State → Host.Outcome State Fault Refusal :=
  inDomain 11 (Dev.onAxisHomeEdge n active)

/-- A coarse step reaches a following axis: MULT microsteps at the spacing of R626, behind pending ones of the other
direction (R627); more than 4 × MULT pending sets FOLLOW_BACKLOG (R628). -/
def Dev.coarse (m n : Nat) (dirHigh : Bool) (d : Dev) : Dev :=
  let a := d.axis n
  if a.st = .following && a.folIn = m then
    let positive := !(dirHigh = a.folInv)
    let t := match a.folLast with | some l => d.ns - l | none => a.folGap * 1000
    let t := min t (a.folGap * 1000)
    let (rest, b) := match a.folPend.reverse with
      | (dir, c, _) :: more => if dir = positive then (more.reverse, c) else (a.folPend, 0)
      | [] => ([], 0)
    let many := decide (4 * a.folMult < b)
    let d := d.modAxis n (fun a => { a with
      folPend := rest ++ [(positive, b + a.folMult, t / (b + a.folMult))], folLast := some d.ns,
      backlog := a.backlog || many })
    if many then d.raise (144 + m) 0 else d
  else d

/-- The effect of FOLLOW_COARSE_STEP (R626): a rising edge of FOL_m_STEP at least 200 ns after the last is counted by the level of
FOL_m_DIR and reaches every axis that follows input m. -/
def Dev.onFollowCoarseStep (m : Nat) (dirHigh : Bool) (d : Dev) : Dev :=
  let f := d.fol m
  if (match f.last with | some l => decide (d.ns - l < 200) | none => false) then d
  else
    let d := d.modFol m (fun f => { f with count := f.count + (if dirHigh then 1 else -1), dir := dirHigh, last := some d.ns })
    forN 8 (fun n d => d.coarse m n dirHigh) d

/-- FOLLOW_COARSE_STEP (R626). -/
def execFollowCoarseStep (m : Nat) (dirHigh : Bool) : State → Host.Outcome State Fault Refusal :=
  inDomain 11 (Dev.onFollowCoarseStep m dirHigh)

/-- The effect of GEAR_LOCK (R633): the axis speed is within 1 microstep/s of RATIO × v. -/
def Dev.onGearLock (n : Nat) (d : Dev) : Dev :=
  let a := d.axis n
  if a.st = .engaging && decide (mag (a.vel * 2 ^ 56 - a.ratio * d.webV * 1000000000) ≤ 2 ^ 56) then d.lockGear n else d

/-- GEAR_LOCK (R633). -/
def execGearLock (n : Nat) : State → Host.Outcome State Fault Refusal := inDomain 11 (Dev.onGearLock n)

/-- The effect of GEAR_BLEND_START (R635): S has reached the position of a scheduled CHANGE. -/
def Dev.onGearBlendStart (n : Nat) (d : Dev) : Dev :=
  d.modAxis n (fun a =>
    match a.chg with
    | some (p, _, _) => if a.st = .geared && decide (p ≤ d.fire.s) then { a with blending := true } else a
    | none => a)

/-- GEAR_BLEND_START (R635). -/
def execGearBlendStart (n : Nat) : State → Host.Outcome State Fault Refusal := inDomain 11 (Dev.onGearBlendStart n)

end Sys2Proof.Machine
end

