-- ==== Sys2Proof/Machine/Motors.lean ====
section
/-! DEFINITION. Brushless channels and control loops (spec chapter 13): the engine's load, the start sequence, speed and
current loops with braking and the chopper, and the thirty-two loops. Speeds are rpm, currents 10 mA, bus voltages 10 mV;
loop quantities are 16.16 as integers. -/

namespace Sys2Proof.Machine

/-! ## The shared engine -/

/-- Updates per second of channel n: F_PWM × 17/16 unless STOPPED (R649). -/
def Dev.chLoad (d : Dev) (n : Nat) : Rat :=
  if (d.bch n).st = .stopped then 0 else ((d.bch n).cfg.fPwm * 1000 * 17 : Nat) / 16

/-- Updates per second of loop l (R649). -/
def Dev.loopLoad (d : Dev) (l : Nat) : Rat := if (d.lp l).enabled then 1000000 / (d.lp l).cfg.periodUs else 0

/-- The engine's committed updates per second (LOOP_ENGINE_LOAD, R650). -/
def Dev.engineLoad (d : Dev) : Rat :=
  ((List.range 4).map d.chLoad).sum + ((List.range 32).map d.loopLoad).sum

/-- Would a further load raise the total above 160,000 (R650)? -/
def Dev.engineFull (d : Dev) (extra : Rat) : Bool := decide (160000 < d.engineLoad + extra)

/-! ## Commands of the channels -/

/-- The checks of BL_CONFIG (R654, R655). -/
def chkBlConfig (p : Packet) (d : Dev) : Option Status :=
  let h (b : Nat) : Nat := p.fld b 0 16
  firstFail [
    (!p.resvOk [(0, 4, 4), (1, 6, 2), (38, 0, 16), (57, 0, 8), (60, 0, 32)], .malformed),
    (p.fld 0 1 2 = 3 || p.fld 1 0 6 = 0 || 32 < p.fld 1 0 6 || p.fld 2 0 8 < 8 || 40 < p.fld 2 0 8 || p.fld 3 0 8 < 5 ||
      200 < p.fld 3 0 8 || h 4 = 0 || h 6 = 0 || h 8 = 0 || h 10 < 100 || 5000 < h 10 || h 12 = 0 || h 14 ≤ h 12 ||
      h 16 = 0 || h 16 ≤ h 18 || h 18 ≤ h 22 || p.fld 24 0 32 = 0 || 1000000 < p.fld 24 0 32 || p.fld 28 0 32 = 0 ||
      1000000 < p.fld 28 0 32 || h 32 = 0 || h 12 < h 32 || h 34 = 0 || 5000 < h 34 || h 52 = 0 || h 54 = 0 ||
      p.fld 56 0 4 = 0 || p.fld 56 4 4 = 0 || h 58 < 10 || 10000 < h 58, .badField),
    (!(h 50 < h 46 && h 46 < h 44 && h 44 < h 48), .badField),
    (!((d.bch p.target).st = .stopped), .busy)]

/-- The effect of BL_CONFIG. -/
def runBlConfig (p : Packet) (d : Dev) : Dev :=
  let h (b : Nat) : Nat := p.fld b 0 16
  let cfg : BlCfg :=
    { blower := p.flag 0 0, safeAction := p.fld 0 1 2, dirInvert := p.flag 0 3, polePairs := p.fld 1 0 6,
      fPwm := p.fld 2 0 8, deadtime := p.fld 3 0 8, rMohm := h 4, lUh := h 6, ke := h 8, curBw := h 10, iMax := h 12,
      iTrip := h 14, maxRpm := h 16, handover := h 18, brakeLim := h 20, restart := h 22, accel := p.fld 24 0 32,
      decel := p.fld 28 0 32, alignCur := h 32, alignMs := h 34, kpSpd := h 36, kiSpd := p.fld 40 0 32, vOn := h 44,
      vOff := h 46, ovLim := h 48, uvLim := h 50, isGain := h 52, vsGain := h 54, tries := p.fld 56 0 4,
      skipMax := p.fld 56 4 4, retryMs := h 58 }
  (d.modBch p.target (fun c => { c with configured := true, cfg := cfg })).complete p.ref .done 0 0

/-- BL_CONFIG. -/
def execBlConfig (r seq : Nat) : State → Host.Outcome State Fault Refusal :=
  opRow 0x0A00 chkBlConfig (onPkt runBlConfig) r seq

/-- SPEED of BL_START and BL_SET_SPEED (R661). -/
def blSpeed (p : Packet) : Int := p.sfld 0 0 32

/-- The checks of SPEED and configuration that BL_START and BL_SET_SPEED share (R668). -/
def blSpeedBad (p : Packet) (c : BlCh) : List (Bool × Status) :=
  [(!p.resvOk [(4, 0, 32)], .malformed),
   (blSpeed p = 0 || (c.configured && decide ((c.cfg.maxRpm : Int) < (if blSpeed p < 0 then - blSpeed p else blSpeed p))),
     .badField),
   (!c.configured, .refused)]

/-- The checks of BL_START (R650, R668). A channel that coasts until BL_START may be started (R672, R686; log entry 17). -/
def chkBlStart (p : Packet) (d : Dev) : Option Status :=
  let c := d.bch p.target
  firstFail (blSpeedBad p c ++ [
    (!(c.st = .stopped || (c.st = .coasting && c.coastWhy = 2)), .busy),
    (d.flt.held, .safeState),
    (5 ≤ d.sched.stage, .powerShed),
    (c.st = .stopped && d.engineFull ((c.cfg.fPwm * 1000 * 17 : Nat) / 16), .noResource)])

/-- The effect of BL_START (R661, R662, R679). -/
def runBlStart (p : Packet) (d : Dev) : Dev :=
  let n := p.target
  let dir : Int := if blSpeed p < 0 then -1 else 1
  let d := d.modBch n (fun c => { c with
    set := match c.loopSet with | some o => c.loopRpm dir o | none => blSpeed p
    dir := dir, triesDone := 0, fromRest := false, overvolt := c.overvolt })
  (d.blMeasure n).complete p.ref .done 0 0

/-- BL_START. -/
def execBlStart (r seq : Nat) : State → Host.Outcome State Fault Refusal :=
  opRow 0x0A01 chkBlStart (onPkt runBlStart) r seq

/-- The checks of BL_SET_SPEED (R666, R668, R686, R541). -/
def chkBlSetSpeed (p : Packet) (d : Dev) : Option Status :=
  let c := d.bch p.target
  firstFail (blSpeedBad p c ++ [
    (d.flt.held, .safeState),
    (5 ≤ d.sched.stage, .powerShed),
    (!(c.st = .starting || c.st = .running) || d.loopDriven p.target, .refused),
    (decide (blSpeed p * c.dir < 0), .badField)])

/-- The effect of BL_SET_SPEED (R666). -/
def runBlSetSpeed (p : Packet) (d : Dev) : Dev :=
  (d.modBch p.target (fun c => { c with set := blSpeed p })).complete p.ref .done 0 0

/-- BL_SET_SPEED. -/
def execBlSetSpeed (r seq : Nat) : State → Host.Outcome State Fault Refusal :=
  opRow 0x0A02 chkBlSetSpeed (onPkt runBlSetSpeed) r seq

/-- The checks of BL_STOP (R667, R668). -/
def chkBlStop (p : Packet) (d : Dev) : Option Status :=
  let c := d.bch p.target
  firstFail [(!p.resvOk [(0, 2, 6), (1, 0, 24)], .malformed), (p.fld 0 0 2 = 3, .badField), (!c.configured, .refused),
    (c.st = .stopped, .doneEmpty)]

/-- The effect of BL_STOP (R667, R671): a start ends with ABORTED; a running channel ramps, coasts or brakes. -/
def runBlStop (p : Packet) (d : Dev) : Dev :=
  let n := p.target
  let c := d.bch n
  let mode := p.fld 0 0 2
  let d := (d.modBch n (fun c => { c with stops := c.stops ++ [p.ref], stopMode := mode })).executing p
  let speed := if c.speed < 0 then - c.speed else c.speed
  if c.startResult = 6 && !(c.st = .running) then (d.modBch n (fun c => { c with startResult := 5 })).blStopped n
  else if !(c.st = .running || c.st = .stopping) then d.blStopped n
  else if mode = 1 || (mode = 0 && (c.chopFault || decide (speed ≤ (c.cfg.handover : Int)))) ||
      (mode = 2 && decide (speed < (c.cfg.restart : Int))) then d.blStopped n
  else if mode = 2 then (d.modBch n (fun c => { c with st := .stopping, brake := true })).pin .blBrake n true
  else d.modBch n (fun c => { c with st := .stopping, set := 0, brake := false })

/-- BL_STOP. -/
def execBlStop (r seq : Nat) : State → Host.Outcome State Fault Refusal :=
  opRow 0x0A03 chkBlStop (onPkt runBlStop) r seq

/-- The checks of BL_REINIT (R668). -/
def chkBlReinit (p : Packet) (d : Dev) : Option Status := firstFail [(!(d.bch p.target).configured, .refused)]

/-- The effect of BL_REINIT (R689). -/
def runBlReinit (p : Packet) (d : Dev) : Dev :=
  let d := d.modBch p.target (fun c => { c with
    startResult := if c.startResult = 6 then 5 else c.startResult, overvolt := false, overcurrent := false,
    undervolt := false, skipCapped := false })
  (d.blStopped p.target).complete p.ref .done 0 0

/-- BL_REINIT. -/
def execBlReinit (r seq : Nat) : State → Host.Outcome State Fault Refusal :=
  opRow 0x0AFF chkBlReinit (onPkt runBlReinit) r seq

/-! ## Periods -/

/-- lcm of 8 to 40: PWM periods of every F_PWM_KHZ add up to seconds exactly in units of 1 s / (1,000 × this). -/
def pwmLcm : Nat := 5342931457063200

/-- An overvoltage (R672): the third within 1 s keeps the channel coasting until BL_START. -/
def Dev.blOvervolt (n : Nat) (d : Dev) : Dev :=
  let recent := (d.bch n).ovTimes.filter (fun t => decide (d.ns < t + 1000000000))
  let d := (d.modBch n (fun c => { c with
    overvolt := true, overvolts := satInc 32 c.overvolts, ovTimes := (d.ns :: recent).take 3 })).raise (148 + n) 0
  d.blCoast n (if 2 ≤ recent.length then 2 else 1)

/-- What a RUNNING or ramping channel does with one period's sample (R656, R658 to R660, R670). -/
def Dev.blCurrents (n : Nat) (s : BlSample) (d : Dev) : Dev :=
  d.modBch n (fun c =>
    let cap := !s.valid && decide (c.cfg.skipMax ≤ c.skipRun + 1)
    { c with
      iq := if s.valid then Config.iqOf s.ia s.ib c.iqRef else Config.iqPredict c.iq c.iqRef s.speed
      skips := if s.valid then c.skips else satInc 32 c.skips
      skipRun := if s.valid || cap then 0 else c.skipRun + 1
      skipCapped := c.skipCapped || cap
      limited := if s.limited then true else c.limited && decide (c.below + 1 < 16)
      below := if s.limited then 0 else c.below + 1
      ramped := if s.limited then s.speed * 2 ^ 16 else c.ramped
      runUs := if c.st = .running then c.runUs + pwmLcm / c.cfg.fPwm else c.runUs
      periods := c.periods + 1
      chop := if c.chopCheck then c.chop
        else if c.regenOk && decide (c.cfg.vOn < s.vbus) then true
        else if s.vbus < c.cfg.vOff then false else c.chop })

/-- The effect of BL_PWM_PERIOD (R656, R663, R672, R673): the sample is checked against the trip current and the bus limits; otherwise
the current loop runs, a braking motor is watched, and a ramp or brake that has reached its speed ends. -/
def Dev.onBlPwmPeriod (n : Nat) (s : BlSample) (d : Dev) : Dev :=
  let c := d.bch n
  let top := max (mag' s.ia) (max (mag' s.ib) (mag' (s.ia + s.ib)))
  let speed := mag' s.speed
  if c.st = .stopped then d
  else
    let d := d.modBch n (fun c => { c with vbus := s.vbus, speed := s.speed })
    if c.st = .coasting || c.st = .measuring then d
    else if c.cfg.ovLim < s.vbus then d.blOvervolt n
    else if s.valid && decide ((c.cfg.iTrip : Int) < top) then
      ((d.modBch n (fun c => { c with overcurrent := true })).raise (152 + n) 0).blStopped n
    else if s.vbus < c.cfg.uvLim then
      ((d.modBch n (fun c => { c with undervolt := true })).raise (156 + n) 0).blCoast n 3
    else if c.st = .braking then
      if speed < c.cfg.restart then d.blFromRest n
      else d.modBch n (fun c => { c with brake := decide (top ≤ (c.cfg.iMax : Int)) })
    else if c.st = .stopping && c.stopMode = 2 then
      if speed < c.cfg.restart then d.blStopped n
      else d.modBch n (fun c => { c with brake := decide (top ≤ (c.cfg.iMax : Int)) })
    else
      let d := d.blCurrents n s
      if c.st = .stopping && decide (speed ≤ (c.cfg.handover : Int)) then d.blStopped n else d
where
  /-- Magnitude. -/
  mag' (x : Int) : Int := if x < 0 then -x else x

/-- BL_PWM_PERIOD (R656, R663, R672, R673). -/
def execBlPwmPeriod (n : Nat) (s : BlSample) : State → Host.Outcome State Fault Refusal :=
  inDomain 11 (Dev.onBlPwmPeriod n s)

/-- What BL_SPEED_UPDATE does (R656 to R658, R669, R670, R687): the ramped set-point moves, the speed loop sets iq_ref within ±I_MAX,
and a brake request starts the chopper check; without a passed check iq_ref does not oppose the rotation. -/
def Dev.blSpeedStep (n : Nat) (d : Dev) : Dev :=
  let c := d.bch n
  if !(c.st = .running || (c.st = .stopping && !(c.stopMode = 2))) then d
  else
    let t : Int := c.cfg.fPwm * 1000
    let goal := c.set * 2 ^ 16
    let abs (x : Int) : Int := if x < 0 then -x else x
    let rate : Int := if abs c.ramped < abs goal then c.cfg.accel else c.cfg.decel
    let stepMax := roundOpen 10 (rate * 16 * 2 ^ 16) t
    let ramped := if c.limited || c.holding then c.ramped
      else c.ramped + clampI (goal - c.ramped) (- stepMax) stepMax
    let e := ramped - c.speed * 2 ^ 16
    let integ := if c.limited then c.integ else c.integ + roundOpen 11 (c.cfg.kiSpd * e * 16) (t * 2 ^ 16)
    let want := clampI (roundOpen 12 (c.cfg.kpSpd * e + integ * 2 ^ 8) (2 ^ 24)) (- c.cfg.iMax) c.cfg.iMax
    let opposes := decide (want * c.speed < 0)
    let request := opposes && !c.regen
    let ok := c.regenOk && !request
    let d := d.modBch n (fun c => { c with
      ramped := ramped, integ := integ, regen := opposes, regenOk := ok, iqRef := if opposes && !ok then 0 else want,
      chopCheck := c.chopCheck || request, chop := c.chop || request })
    d.when request (Dev.pin .blChop n true)

/-- BL_SPEED_UPDATE (R656 to R658, R669, R670, R687). -/
def execBlSpeedUpdate (n : Nat) : State → Host.Outcome State Fault Refusal := inDomain 11 (Dev.blSpeedStep n)

/-- The effect of BL_CHOPPER_CHECK_END (R670). -/
def Dev.onBlChopperCheckEnd (n : Nat) (pass : Bool) (d : Dev) : Dev :=
  if !(d.bch n).chopCheck then d
  else
    let d := (d.modBch n (fun c => { c with chopCheck := false, chop := false, chopFault := !pass, regenOk := pass })).pin
      .blChop n false
    if pass then d.lower (160 + n) else d.raise (160 + n) 0

/-- BL_CHOPPER_CHECK_END (R670). -/
def execBlChopperCheckEnd (n : Nat) (pass : Bool) : State → Host.Outcome State Fault Refusal :=
  inDomain 11 (Dev.onBlChopperCheckEnd n pass)

/-- The effect of BL_BUS_SETTLED (R672, R673): the channel catches its motor again once the bus has been normal for 10 ms. -/
def Dev.onBlBusSettled (n : Nat) (d : Dev) : Dev :=
  let c := d.bch n
  if c.st = .coasting && ((c.coastWhy = 1 && decide (c.vbus < c.cfg.vOff)) ||
      (c.coastWhy = 3 && decide (c.cfg.vOff < c.vbus))) then
    (d.modBch n (fun c => { c with triesDone := 0 })).blMeasure n
  else d

/-- BL_BUS_SETTLED (R672, R673). -/
def execBlBusSettled (n : Nat) : State → Host.Outcome State Fault Refusal := inDomain 11 (Dev.onBlBusSettled n)

/-- The effect of BL_MEASURE_END (R662): two complete electrical cycles or not, and the measured speed. -/
def Dev.onBlMeasureEnd (n : Nat) (cycles : Bool) (speed : Int) (d : Dev) : Dev :=
  let c := d.bch n
  let s := speed * c.dir
  if !(c.st = .measuring) then d
  else
    let d := d.modBch n (fun c => { c with speed := if cycles then speed else 0 })
    if !cycles || (decide (- (c.cfg.restart : Int) < s) && decide (s < (c.cfg.restart : Int))) then d.blFromRest n
    else if decide ((c.cfg.handover : Int) ≤ s) && decide (s ≤ (c.cfg.maxRpm : Int)) then d.blRun n 1 speed
    else if decide (0 < s) && decide (s < (c.cfg.handover : Int)) then d.blBrake n
    else if decide (s < 0) && decide (- s < (c.cfg.brakeLim : Int)) then d.blBrake n
    else d.blRetry n

/-- BL_MEASURE_END (R662). -/
def execBlMeasureEnd (n : Nat) (cycles : Bool) (speed : Int) : State → Host.Outcome State Fault Refusal :=
  inDomain 11 (Dev.onBlMeasureEnd n cycles speed)

/-- BL_ALIGN_END (R664). -/
def execBlAlignEnd (n : Nat) : State → Host.Outcome State Fault Refusal :=
  inDomain 11 fun d => d.modBch n (fun c => if c.st = .starting then { c with aligned := true } else c)

/-- The effect of BL_HANDOVER (R664): the observer takes over when its angle lies within 30 electrical degrees of the forced one. -/
def Dev.onBlHandover (n : Nat) (within : Bool) (d : Dev) : Dev :=
  let c := d.bch n
  if !(c.st = .starting && c.aligned) then d
  else if within then d.blRun n (if c.fromRest then 3 else 2) (c.dir * c.cfg.handover)
  else d.blRetry n

/-- BL_HANDOVER (R664). -/
def execBlHandover (n : Nat) (within : Bool) : State → Host.Outcome State Fault Refusal :=
  inDomain 11 (Dev.onBlHandover n within)

/-- The effect of BL_RETRY_END (R665). -/
def Dev.onBlRetryEnd (n : Nat) (d : Dev) : Dev :=
  let c := d.bch n
  if c.st = .coasting && c.coastWhy = 0 then d.blMeasure n else d

/-- BL_RETRY_END (R665). -/
def execBlRetryEnd (n : Nat) : State → Host.Outcome State Fault Refusal := inDomain 11 (Dev.onBlRetryEnd n)

/-! ## Control loops -/

/-- A value in the signed 16.16 format; outside it the result is open (log entry 5). -/
def fit16 (x : Int) : Int := if - 2 ^ 31 ≤ x ∧ x < 2 ^ 31 then x else Config.outOfRange x

/-- A product of two 16.16 numbers, rounded half away from zero. -/
def mul16 (a b : Int) : Int := fit16 (roundHalfAway (a * b) (2 ^ 16))

/-- The raw input of a loop (R674) and whether it is a housekeeping channel. A loop's output enters as 16.16 (log
entry 18). -/
def Dev.loopRaw (d : Dev) (c : LoopCfg) : Int :=
  match c.inKind with
  | 0 => ((Tab.get (0 : Nat) d.pwr.hkExt c.inIndex : Nat) : Int)
  | 1 => ((Tab.get (0 : Nat) d.pwr.hkInt c.inIndex : Nat) : Int)
  | 2 => (d.hp c.inIndex).temp
  | 3 => (d.bch c.inIndex).speed
  | 4 => (d.lp c.inIndex).out
  | _ => (d.hp c.inIndex).hv

/-- y = (raw - IN_OFFSET) × IN_GAIN (R676). -/
def Dev.loopY (d : Dev) (c : LoopCfg) : Int :=
  let x := d.loopRaw c - c.inOffset
  if c.inKind = 4 then mul16 x c.inGain else fit16 (x * c.inGain)

/-- LOOP_STATUS (R693). -/
def Loop.status (x : Loop) : Nat :=
  b2n x.configured + 2 * b2n x.enabled + 4 * b2n (x.enabled && !(x.r = x.set)) + 8 * b2n x.satHi + 16 * b2n x.satLo +
  32 * b2n x.implausible + 64 * b2n x.heatForced + 128 * b2n x.safeOff

/-- The update interval of a loop's input, µs (R675): 16 PWM periods for a channel's speed. -/
def Dev.inputUs (d : Dev) (c : LoopCfg) : Rat :=
  match c.inKind with
  | 0 => 1000
  | 1 => 1000
  | 3 => if (d.bch c.inIndex).cfg.fPwm = 0 then 0 else 16000 / (d.bch c.inIndex).cfg.fPwm
  | 4 => (d.lp c.inIndex).cfg.periodUs
  | _ => 10

/-- Number of units an IN_KIND or OUT_KIND selects among (R674). -/
def inUnits : Nat → Nat
  | 0 => 32 | 1 => 24 | 2 => 16 | 3 => 4 | 4 => 32 | _ => 16

/-- Number of units an OUT_KIND selects among (R674). -/
def outUnits : Nat → Nat
  | 1 => 8 | 3 => 4 | _ => 32

/-- The settings a LOOP_CONFIG payload holds (R674). -/
def loopCfgOf (p : Packet) : LoopCfg :=
  let w (b : Nat) : Int := p.sfld b 0 32
  { inKind := p.fld 0 0 3, inIndex := p.fld 1 0 5, outKind := p.fld 2 0 3, outIndex := p.fld 3 0 5,
    periodUs := p.fld 4 0 32, inOffset := w 8, inGain := w 12, kp := w 16, ki := w 20, kd := w 24, df := p.fld 28 0 16,
    ffSrc := p.fld 30 0 2, supply := p.fld 30 2 2, safeZero := p.flag 30 4, plausAct := p.fld 30 5 2,
    vsCh := p.fld 31 0 5, kff := w 32, outMin := w 36, outMax := w 40, ramp := w 44, vNom := p.fld 48 0 16,
    pwmHz := p.fld 50 0 16, plantK := w 52, plantTau := p.fld 56 0 32, plantY0 := w 60, plausTol := w 64,
    plausMs := p.fld 68 0 32, outInit := w 72 }

/-- The checks of LOOP_CONFIG (R674, R675). -/
def chkLoopConfig (p : Packet) (d : Dev) : Option Status :=
  let c := loopCfgOf p
  let same (l : Nat) : Bool := let x := d.lp l
    !(l = p.target) && x.configured && !(c.outKind = 0) && x.cfg.outKind = c.outKind && x.cfg.outIndex = c.outIndex
  firstFail [
    (!p.resvOk [(0, 3, 5), (1, 5, 3), (2, 3, 5), (3, 5, 3), (30, 7, 1), (31, 5, 3)], .malformed),
    (5 < c.inKind || 4 < c.outKind || inUnits c.inKind ≤ c.inIndex || outUnits c.outKind ≤ c.outIndex ||
      c.periodUs < 50 || 1000000 < c.periodUs || c.df = 0 || 256 < c.df || c.ffSrc = 3 || c.supply = 3 || c.plausAct = 3 ||
      decide (c.outMax ≤ c.outMin) || decide (c.ramp ≤ 0) ||
      (if c.supply = 0 then !(c.vNom = 0) else c.vNom = 0 || 4095 < c.vNom) ||
      (if c.outKind = 2 then c.pwmHz = 0 || 50000 < c.pwmHz else !(c.pwmHz = 0)) || 3600000 < c.plantTau ||
      decide (c.plausTol ≤ 0) || c.plausMs = 0 || 600000 < c.plausMs || decide (c.outInit < c.outMin) ||
      decide (c.outMax < c.outInit), .badField),
    (decide ((c.periodUs : Rat) < d.inputUs c), .badField),
    ((List.range 32).any same, .refused),
    ((d.lp p.target).enabled, .busy)]

/-- The effect of LOOP_CONFIG: the settings, with IMPLAUSIBLE cleared (R684). -/
def runLoopConfig (p : Packet) (d : Dev) : Dev :=
  ((d.modLp p.target (fun x => { x with
    configured := true, cfg := loopCfgOf p, implausible := false, badUs := 0, rawRun := 0 })).lower
    (168 + p.target)).complete p.ref .done 0 0

/-- LOOP_CONFIG. -/
def execLoopConfig (r seq : Nat) : State → Host.Outcome State Fault Refusal :=
  opRow 0x0B00 chkLoopConfig (onPkt runLoopConfig) r seq

/-- The checks of LOOP_SET_POINT (R677). -/
def chkLoopSetPoint (p : Packet) (_ : Dev) : Option Status := firstFail [(!p.resvOk [(4, 0, 32)], .malformed)]

/-- The effect of LOOP_SET_POINT: SET; at the next update r restarts at y (R677). -/
def runLoopSetPoint (p : Packet) (d : Dev) : Dev :=
  (d.modLp p.target (fun x => { x with set := p.sfld 0 0 32, restart := x.enabled })).complete p.ref .done 0 0

/-- LOOP_SET_POINT. -/
def execLoopSetPoint (r seq : Nat) : State → Host.Outcome State Fault Refusal :=
  opRow 0x0B01 chkLoopSetPoint (onPkt runLoopSetPoint) r seq

/-- A loop starts as LOOP_ENABLE and LOOP_REINIT make it: i = OUT_INIT, r, y_prev and the model at the measured y, dm 0
(R678, R682). -/
def Dev.startLoop (l : Nat) (d : Dev) : Dev :=
  let y := d.loopY (d.lp l).cfg
  d.modLp l (fun x => { x with
    i := x.cfg.outInit, r := y, y := y, yPrev := y, dm := 0, model := y, u := x.cfg.outInit, satHi := false,
    satLo := false, restart := false, badUs := 0, rawRun := 0 })

/-- The checks of LOOP_ENABLE (R650, R678). -/
def chkLoopEnable (p : Packet) (d : Dev) : Option Status :=
  let x := d.lp p.target
  firstFail [
    (!p.resvOk [(0, 1, 7), (1, 0, 24)], .malformed),
    (!x.configured, .refused),
    (p.flag 0 0 && !x.enabled && d.engineFull (1000000 / x.cfg.periodUs), .noResource)]

/-- The effect of LOOP_ENABLE (R678, R684). -/
def runLoopEnable (p : Packet) (d : Dev) : Dev :=
  let l := p.target
  let x := d.lp l
  if p.flag 0 0 then
    ((d.startLoop l).modLp l (fun x => { x with enabled := true })).complete p.ref .done 0 0
  else
    let d := (d.modLp l (fun x => { x with enabled := false, implausible := false })).lower (168 + l)
    let d := if x.cfg.outKind = 1 || x.cfg.outKind = 2 then (d.modLp l (fun x => { x with out := 0 })).deliver l else d
    d.complete p.ref .done 0 0

/-- LOOP_ENABLE. -/
def execLoopEnable (r seq : Nat) : State → Host.Outcome State Fault Refusal :=
  opRow 0x0B02 chkLoopEnable (onPkt runLoopEnable) r seq

/-- LOOP_READ has no checks of its own. -/
def chkLoopRead (_ : Packet) (_ : Dev) : Option Status := none

/-- The effect of LOOP_READ (R682). -/
def runLoopRead (p : Packet) (d : Dev) : Dev :=
  let x := d.lp p.target
  d.complete p.ref .done (twos 32 x.y + 2 ^ 32 * twos 32 x.out) (x.status % 2 ^ 16)

/-- LOOP_READ. -/
def execLoopRead (r seq : Nat) : State → Host.Outcome State Fault Refusal :=
  opRow 0x0B03 chkLoopRead (onPkt runLoopRead) r seq

/-- LOOP_REINIT has no checks of its own. -/
def chkLoopReinit (_ : Packet) (_ : Dev) : Option Status := none

/-- The effect of LOOP_REINIT (R682). -/
def runLoopReinit (p : Packet) (d : Dev) : Dev :=
  let l := p.target
  let d := (d.modLp l (fun x => { x with implausible := false })).lower (168 + l)
  (d.when (d.lp l).enabled (Dev.startLoop l)).complete p.ref .done 0 0

/-- LOOP_REINIT. -/
def execLoopReinit (r seq : Nat) : State → Host.Outcome State Fault Refusal :=
  opRow 0x0BFF chkLoopReinit (onPkt runLoopReinit) r seq

/-- The computation of R676 and the model of R683 for a loop with measured y, raw input and supply reading vs. -/
def Loop.compute (y raw : Int) (vs : Nat) (hold : Bool) (x : Loop) : Loop :=
  let c := x.cfg
  let t : Int := c.periodUs
  let stepMax := roundHalfAway (c.ramp * t) 1000000
  let r0 := if x.restart then y else x.r
  let r := r0 + clampI (x.set - r0) (- stepMax) stepMax
  let e := fit16 (r - y)
  let i := if x.heatForced || (x.satHi && decide (0 < e)) || (x.satLo && decide (e < 0)) then x.i
    else clampI (x.i + roundHalfAway (c.ki * t * e) (1000000 * 2 ^ 16)) c.outMin c.outMax
  let dm := fit16 (x.dm + roundHalfAway ((y - x.yPrev - x.dm) * c.df) 256)
  let ff := match c.ffSrc with
    | 1 => mul16 c.kff x.ff
    | 2 => if r = x.set then 0 else mul16 c.kff (if r < x.set then c.ramp else - c.ramp)
    | _ => 0
  let raw' := mul16 c.kp e + i - roundHalfAway (c.kd * dm * 1000000) (t * 2 ^ 16) + ff
  let u := clampI raw' c.outMin c.outMax
  let n : Int := c.vNom
  let out := match c.supply with
    | 0 => u
    | 1 => clampI (if vs = 0 then Config.zeroSupply u else roundHalfAway (u * n) vs) c.outMin c.outMax
    | _ => clampI (if vs = 0 then Config.zeroSupply u else roundHalfAway (u * n * n) (vs * vs)) c.outMin c.outMax
  let model := if c.plantTau = 0 then x.model
    else fit16 (x.model + roundHalfAway ((mul16 c.plantK x.u + c.plantY0 - x.model) *
      Config.expRise c.periodUs (c.plantTau * 1000)) (2 ^ 32))
  let dev := if y < model then model - y else y - model
  let badUs := if c.plantTau = 0 || decide (dev ≤ c.plausTol) then 0 else x.badUs + c.periodUs
  let rail := (c.inKind = 0 || c.inKind = 1) && (raw = 0 || raw = 4095)
  let rawRun := if c.plantTau = 0 || !rail then 0 else min 3 (x.rawRun + 1)
  let bad := decide (c.plausMs * 1000 ≤ badUs) && decide (0 < badUs) || rawRun = 3
  let imp := x.implausible || bad
  let hold' := if bad && !x.implausible then out else x.holdOut
  let zero := x.heatForced || x.safeOff
  { x with
    y := y, yPrev := y, r := r, i := i, dm := dm, u := u, restart := false, model := model, badUs := badUs,
    rawRun := rawRun, implausible := imp, holdOut := hold', satHi := decide (c.outMax ≤ raw'),
    satLo := decide (raw' ≤ c.outMin),
    out := if zero then 0 else if hold then x.out
      else if imp && c.plausAct = 1 then hold'
      else if imp && c.plausAct = 2 then clampI 0 c.outMin c.outMax else out }

/-- The effect of LOOP_UPDATE (R651, R676, R679, R683, R684, R687). -/
def Dev.onLoopUpdate (l : Nat) (d : Dev) : Dev :=
  let x := d.lp l
  if !x.enabled then d
  else
    let hold := x.cfg.outKind = 3 && decide (5 ≤ d.sched.stage)
    let d := d.modLp l (Loop.compute (d.loopY x.cfg) (d.loopRaw x.cfg) (Tab.get 0 d.pwr.hkExt x.cfg.vsCh) hold)
    let d := d.when ((d.lp l).implausible && !x.implausible) (fun d => d.raise (168 + l) 0)
    d.deliver l

/-- LOOP_UPDATE (R651, R676, R679, R683, R684, R687). -/
def execLoopUpdate (l : Nat) : State → Host.Outcome State Fault Refusal := inDomain 11 (Dev.onLoopUpdate l)

end Sys2Proof.Machine
end

