-- ==== Sys2Proof/Machine/Nozzles.lean ====
section
/-! DEFINITION. The NOZ commands (spec chapter 7): stream configuration, status maps, takeover, stitching, placements. -/

namespace Sys2Proof.Machine

/-! ## Stream configuration -/

/-- PORT_COUNT of NOZ_CONFIG_STREAM (R343). -/
def Packet.portCount (p : Packet) : Nat := p.fld 0 0 5

/-- The port entries of NOZ_CONFIG_STREAM (R344). -/
def Packet.portEntries (p : Packet) : List PortEntry :=
  (List.range p.portCount).map (fun i =>
    { port := p.fld (16 + 8 * i) 0 4, nozzles := p.fld (18 + 8 * i) 0 13, col := p.fld (20 + 8 * i) 0 16 })

/-- Do the columns of a port list break the fourth row of R345? -/
def columnsBad (l : List PortEntry) : Bool :=
  let at_ (i : Nat) : PortEntry := l.getD i PortEntry.reset
  let stop (i : Nat) : Nat := (at_ i).col + (at_ i).nozzles
  !((at_ 0).col = 0) || decide (65536 < stop (l.length - 1)) ||
  (List.range (l.length - 1)).any (fun i =>
    decide ((at_ (i + 1)).col ≤ (at_ i).col) || decide (stop (i + 1) ≤ stop i) || decide (256 < stop i - (at_ (i + 1)).col)) ||
  (List.range (l.length - 2)).any (fun i => decide ((at_ (i + 2)).col < stop i))

/-- Do the delay stores hold every other configured stream and a port list with every placement at 0 (R369 to R371)? -/
def Dev.holdsPorts (d : Dev) (s : Nat) (l : List PortEntry) : Bool :=
  let u := d.storesUsed (some s) none
  let own := l.map (fun e => storeUse e.nozzles 0 0)
  decide (u.1 + (own.map (·.1)).sum ≤ d.shortSize) && decide (u.2 + (own.map (·.2)).sum ≤ d.longSize)

/-- Are the short delay store's banks with their home unit (R721)? -/
def Dev.shortHome (d : Dev) : Bool := d.atHome 0 && d.atHome 1 && (!d.noz.shortExtra || d.atHome 2)

/-- Is an imprint of the stream neither PRINTED nor CANCELLED? -/
def Dev.hasLive (d : Dev) (s : Nat) : Bool := !(d.ist s).queue.isEmpty

/-- Checks of NOZ_CONFIG_STREAM (R345, R721). -/
def chkNozConfigStream (p : Packet) (d : Dev) : Option Status :=
  let n := p.portCount
  let rel := p.flag 0 7
  let rate := p.fld 4 0 32
  let l := p.portEntries
  let ports := l.map (·.port)
  firstFail
    [(!(p.payload.length = 16 + 8 * n), .badLength),
     (!p.resvOk ([(0, 5, 2), (1, 0, 24), (8, 0, 64)] ++ (List.range n).flatMap (fun i =>
        [(16 + 8 * i, 4, 4), (17 + 8 * i, 0, 8), (18 + 8 * i, 13, 3), (22 + 8 * i, 0, 16)])), .malformed),
     ((rel && (!(n = 0) || !(rate = 0))) || (!rel && (n = 0 || 16 < n || rate = 0 || 200000 < rate)) ||
        l.any (fun e => e.nozzles = 0 || decide (4096 < e.nozzles)), .badField),
     (!(ports.dedup.length = ports.length) || ports.any (fun q => (d.streamOf q).any (fun s => !(s = p.target))), .badField),
     (!rel && columnsBad l, .badField),
     (decide (100000 < rate) && l.any (fun e => decide (2048 < e.nozzles)), .badField),
     (!rel && !(d.holdsPorts p.target l && d.shortHome), .noResource),
     (d.hasLive p.target, .busy)]

/-- The stream's imprint settings of IMP_CONFIG_STREAM are removed (R346). -/
def ImpStream.unconfigured (x : ImpStream) : ImpStream :=
  { x with
    configured := false, policy := false, markLevel := 0, markCount := 0, markFirst := 0, markLines := 0, stopDistance := 0,
    horizon := 0, shortHorizon := false, markStart := none, markWait := false, markReports := [] }

/-- A port's placements become 0; a head that is UP gets the offsets of it (R346, R366). -/
def Dev.clearPort (s p : Nat) (d : Dev) : Dev :=
  let d := d.modNport p (fun _ => NozPort.reset)
  let d := d.modHp p (fun h => { h with changeover := none, nextSend := (d.fst s).nextArm })
  d.when ((d.hp p).st = .up && (d.streamOf p).isSome) (fun d => d.sendOffsets p (d.hp p).bank [])

/-- NOZ_CONFIG_STREAM: the stream's new configuration with its defaults, or none (R343, R346). -/
def runNozConfigStream (p : Packet) (d : Dev) : Dev :=
  let s := p.target
  let old := (d.nst s).ports
  let d := d.modNst s (fun n => { NozStream.reset with
    configured := !p.flag 0 7, ports := p.portEntries, maxRate := p.fld 4 0 32, skipped := n.skipped, blanked := n.blanked,
    lastApply := n.lastApply })
  let d := forL (old ++ p.portEntries) (fun e d => d.clearPort s e.port) d
  (d.modIst s ImpStream.unconfigured).complete p.ref .done 0 0

/-- NOZ_CONFIG_STREAM (R345). -/
def execNozConfigStream (r seq : Nat) : State → Host.Outcome State Fault Refusal :=
  opRow 0x0500 chkNozConfigStream (onPkt runNozConfigStream) r seq

/-! ## Status maps -/

/-- Is a status swap scheduled and not yet in effect (R354, R356)? -/
def Dev.swapBusy (d : Dev) (s : Nat) : Bool := d.changeBusy s 0x0502 s

/-- Checks of NOZ_LOAD_STATUS (R354, R333). -/
def chkNozLoadStatus (p : Packet) (d : Dev) : Option Status :=
  let n := d.nst p.target
  let first := p.fld 8 0 32
  let count := p.fld 12 0 32
  match firstFail [(p.fromObject && !(p.payload.length = 16), .badLength), (!n.configured, .refused)] with
  | some st => some st
  | none =>
    d.loadChecks 16 p (p.prefixForm 16 prefixResv ++
      [(count = 0 && decide (65535 < first), .badField), (count = 0, .doneEmpty),
       (decide (n.count < first + count), .badField)] ++
      d.sizeThenObject 16 p ((count + 3) / 4) [(d.swapBusy p.target, .busy)])
      (fun b => [(!(count % 4 = 0) && !(b.getLast?.getD 0 / 4 ^ (count % 4) = 0), .malformed)])

/-- A map with the statuses of a load (R354); GOOD entries are not listed. -/
def loadStatus (m : Tab Nat) (first count : Nat) (b : List Nat) : Tab Nat :=
  (List.range count).foldl (fun t i =>
    let v := bits (b.getD (i / 4) 0) (2 * (i % 4)) 2
    if v = 0 then Tab.erase (first + i) t else Tab.set (first + i) v t) m

/-- NOZ_LOAD_STATUS (R355). -/
def runNozLoadStatus (p : Packet) (d : Dev) : Dev :=
  (d.modNst p.target (fun n => { n with
    statusPend := some (loadStatus (n.statusPend.getD n.status) (p.fld 8 0 32) (p.fld 12 0 32) (d.tableBytes 16 p)) })
  ).complete p.ref .done 0 0

/-- NOZ_LOAD_STATUS (R354). -/
def execNozLoadStatus (r seq : Nat) : State → Host.Outcome State Fault Refusal :=
  opRow 0x0501 chkNozLoadStatus (onPkt runNozLoadStatus) r seq

/-- Checks of NOZ_SWAP_STATUS (R356, R384). -/
def chkNozSwapStatus (p : Packet) (d : Dev) : Option Status :=
  let n := d.nst p.target
  let wp := p.fld 8 0 48
  firstFail
    [(!p.resvOk [(0, 2, 6), (1, 0, 56), (14, 0, 16)], .malformed),
     (!n.configured, .refused),
     (whenBad (p.fld 0 0 2) wp, .badField),
     (d.swapBusy p.target, .busy),
     (n.statusPend.isNone, .doneEmpty),
     (p.fld 0 0 2 = 0 && d.tooNear p.target wp && !p.lateOk, .late)]

/-- NOZ_SWAP_STATUS: scheduled for firing; screening takes the map at its next attempt boundary (R357). -/
def runNozSwapStatus (p : Packet) (d : Dev) : Dev :=
  (d.modNst p.target (fun n => { n with statusNext := n.statusPend.getD n.status })).schedule p.target p (p.fld 0 0 2)
    (p.fld 8 0 48) []

/-- NOZ_SWAP_STATUS (R356). -/
def execNozSwapStatus (r seq : Nat) : State → Host.Outcome State Fault Refusal :=
  opRow 0x0502 chkNozSwapStatus (onPkt runNozSwapStatus) r seq

/-! ## Takeover and stitching -/

/-- Checks of NOZ_LOAD_TAKEOVER (R359). -/
def chkNozLoadTakeover (p : Packet) (d : Dev) : Option Status :=
  firstFail
    [(!(d.nst p.target).configured, .refused),
     (!p.resvOk [(3, 1, 7), (4, 9, 23)], .malformed),
     (!(p.fld 0 0 3 = 0) || decide (256 < p.fld 4 0 9), .badField)]

/-- NOZ_LOAD_TAKEOVER (R359, R360). -/
def runNozLoadTakeover (p : Packet) (d : Dev) : Dev :=
  (d.modNst p.target (fun n => { n with
    takeover := (List.range 8).map (fun k => p.fld 0 (3 * k) 3) ++ [p.fld 3 0 1, p.fld 4 0 9] })).complete p.ref .done 0 0

/-- NOZ_LOAD_TAKEOVER (R359). -/
def execNozLoadTakeover (r seq : Nat) : State → Host.Outcome State Fault Refusal :=
  opRow 0x0503 chkNozLoadTakeover (onPkt runNozLoadTakeover) r seq

/-- Columns in the stitch zones of a stream: the sum of Z_q (R341). -/
def NozStream.stitchCols (n : NozStream) : Nat := n.stitchBase (n.ports.length - 1)

/-- Checks of NOZ_SET_STITCH (R365, R384). -/
def chkNozSetStitch (p : Packet) (d : Dev) : Option Status :=
  let n := d.nst p.target
  let wp := p.fld 8 0 48
  let sh := p.sfld 2 0 16
  let w := words16 (p.payload.drop 16)
  firstFail
    [(!p.resvOk [(0, 4, 4), (1, 0, 8), (4, 0, 32), (14, 0, 16)], .malformed),
     (!n.configured, .refused),
     (whenBad (p.fld 0 0 2) wp || decide (sh < -255) || decide (255 < sh) || (!p.flag 0 2 && !(sh = 0)), .badField),
     (!p.flag 0 2 && !p.flag 0 3, .doneEmpty),
     (!(p.payload.length = 16 + (if p.flag 0 3 then 2 * n.stitchCols else 0)), .badLength),
     (w.any (fun x => decide (512 ≤ x)), .malformed),
     (w.any (fun x => decide (256 < x)), .badField),
     (d.changeBusy p.target 0x0504 p.target, .busy),
     (p.fld 0 0 2 = 0 && d.tooNear p.target wp && !p.lateOk, .late)]

/-- NOZ_SET_STITCH: the change is scheduled (R378). -/
def runNozSetStitch (p : Packet) (d : Dev) : Dev := d.schedule p.target p (p.fld 0 0 2) (p.fld 8 0 48) []

/-- NOZ_SET_STITCH (R365). -/
def execNozSetStitch (r seq : Nat) : State → Host.Outcome State Fault Refusal :=
  opRow 0x0504 chkNozSetStitch (onPkt runNozSetStitch) r seq

/-! ## Placements -/

/-- Would a port's placement with these figures overfill a delay store (R371)? -/
def Dev.overfills (d : Dev) (p y short : Nat) : Bool :=
  let u := d.storesUsed none (some (p, y, short))
  decide (d.shortSize < u.1) || decide (d.longSize < u.2)

/-- Stream of a command's port; 4 where it belongs to none. -/
def Dev.streamAt (d : Dev) (p : Nat) : Nat := (d.streamOf p).getD 4

/-- Checks of NOZ_SET_DELAY (R374, R384). -/
def chkNozSetDelay (p : Packet) (d : Dev) : Option Status :=
  let t := p.target
  let s := d.streamAt t
  let wp := p.fld 8 0 48
  firstFail
    [(!p.resvOk [(0, 2, 6), (1, 0, 24), (4, 22, 10), (14, 0, 16)], .malformed),
     ((d.streamOf t).isNone, .refused),
     (whenBad (p.fld 0 0 2) wp, .badField),
     (d.changeBusy s 0x0505 t, .busy),
     (d.overfills t (p.fld 4 0 22) (d.shortLines t), .noResource),
     (p.fld 0 0 2 = 0 && d.tooNear s wp && !p.lateOk, .late)]

/-- NOZ_SET_DELAY: the change is scheduled (R374, R378). -/
def runNozSetDelay (p : Packet) (d : Dev) : Dev := d.schedule (d.streamAt p.target) p (p.fld 0 0 2) (p.fld 8 0 48) []

/-- NOZ_SET_DELAY (R374). -/
def execNozSetDelay (r seq : Nat) : State → Host.Outcome State Fault Refusal :=
  opRow 0x0505 chkNozSetDelay (onPkt runNozSetDelay) r seq

/-- The nozzle placements of a port with a NOZ_LOAD_OFFSETS applied (R375). -/
def Dev.loadedZ (d : Dev) (p : Packet) (b : List Nat) : Tab Nat :=
  placeEntries (d.nport p.target).z (p.fld 8 0 16) (words16 b)

/-- Checks of NOZ_LOAD_OFFSETS (R375, R384, R333). -/
def chkNozLoadOffsets (p : Packet) (d : Dev) : Option Status :=
  let t := p.target
  let s := d.streamAt t
  let wp := p.fld 16 0 48
  let when_ := p.fld 0 1 2
  let first := p.fld 8 0 16
  let count := p.fld 10 0 16
  let nozzles := ((d.nst s).port ((d.nst s).indexOf t)).nozzles
  d.loadChecks 24 p
    ([(p.fromObject && !(p.payload.length = 24), .badLength),
      (!p.resvOk [(0, 3, 5), (1, 0, 24), (12, 0, 32), (22, 0, 16)], .malformed),
      ((d.streamOf t).isNone, .refused),
      (whenBad when_ wp || decide (4095 < first) || decide (4096 < count), .badField),
      (count = 0, .doneEmpty),
      (decide (nozzles < first + count), .badField)] ++
     d.sizeThenObject 24 p (2 * count) [(!p.fromObject && !(p.fld 4 0 32 = 0), .badField)] ++
     [(d.changeBusy s 0x0506 t, .busy)])
    (fun b =>
      [((words16 b).any (fun z => decide (16384 ≤ z)), .malformed),
       (d.overfills t (d.nport t).y (((d.loadedZ p b).map (fun c => c.2 / 64)).foldl max 0), .noResource),
       (when_ = 0 && d.tooNear s wp && !p.lateOk, .late)])

/-- NOZ_LOAD_OFFSETS: the change is scheduled and a head that is UP gets the whole new table in the bank not in use (R375,
R487). -/
def runNozLoadOffsets (p : Packet) (d : Dev) : Dev :=
  let t := p.target
  let b := d.tableBytes 24 p
  let z := d.loadedZ p b
  let d := d.when ((d.hp t).st = .up) (fun d => d.sendOffsets t (1 - (d.hp t).bank) z)
  d.schedule (d.streamAt t) p (p.fld 0 1 2) (p.fld 16 0 48) (words16 b)

/-- NOZ_LOAD_OFFSETS (R375). -/
def execNozLoadOffsets (r seq : Nat) : State → Host.Outcome State Fault Refusal :=
  opRow 0x0506 chkNozLoadOffsets (onPkt runNozLoadOffsets) r seq

/-! ## Function reset -/

/-- Checks of NOZ_REINIT. -/
def chkNozReinit (_ : Packet) (_ : Dev) : Option Status := none

/-- NOZ_REINIT (R385). -/
def runNozReinit (p : Packet) (d : Dev) : Dev := (d.spoilAll p.target 0x0B).complete p.ref .done 0 0

/-- NOZ_REINIT (R385). -/
def execNozReinit (r seq : Nat) : State → Host.Outcome State Fault Refusal :=
  opRow 0x05FF chkNozReinit (onPkt runNozReinit) r seq

end Sys2Proof.Machine
end

