-- ==== Sys2Proof/Machine/Wear.lean ====
section
/-! DEFINITION. Wear indicators and diagnostics (spec chapter 16): daily samples, predictions, and the WEAR and DIAG opcodes. -/

namespace Sys2Proof.Machine

/-! ## Indicators -/

/-- The indicator IDs of R832. -/
def wearIds : List Nat :=
  List.range 0x14 ++ (List.range 0x17).map (· + 0x18) ++ (List.range 0x11).map (· + 0x30)

/-- RAIL_RISE_DRIFT: per mille of change of a rail's rise time against the first sample of it (R832). -/
def riseDrift (first us : Nat) : Nat :=
  if first = 0 then 0 else (roundOpen 33 (1000 * mag ((us : Int) - first)) first).toNat

/-- The value an indicator has at a daily sample: taken from the device's own registers where these give it, else as measured
(R832). -/
def Dev.indValue (d : Dev) (n : Nat) (values : List (Nat × Nat)) : Nat :=
  let given := ((values.find? (fun v => v.1 = n)).map (·.2)).getD (d.wearInd n).latest
  if n < 0x10 then (d.hp n).counter
  else if 0x1C ≤ n && n ≤ 0x1F then (d.bch (n - 0x1C)).starts
  else if 0x30 ≤ n && n ≤ 0x3F then riseDrift ((d.wearInd n).first.getD (d.rail (n - 0x30)).riseUs) (d.rail (n - 0x30)).riseUs
  else if n = 0x40 then (d.imp.erases.map (·.2)).foldl max 0
  else given % 2 ^ 64

/-- Indicator n takes a daily sample; at most 64 are kept (R833). -/
def Dev.sampleInd (values : List (Nat × Nat)) (n : Nat) (d : Dev) : Dev :=
  let v := d.indValue n values
  let rise := (d.rail (n - 0x30)).riseUs
  d.modWearInd n (fun x => { x with
    latest := v, samples := (v :: x.samples).take 64,
    first := if 0x30 ≤ n && n ≤ 0x3F && x.first.isNone && !(rise = 0) then some rise else x.first })

/-! ## Predictions -/

/-- The least-squares line through samples a day apart, newest first, with t in hours and 0 at the newest: its value there and
its slope (R835). -/
def fitLine (l : List Nat) : Rat × Rat :=
  let n : Rat := l.length
  let pts : List (Rat × Rat) := l.zipIdx.map (fun e => (-(24 * (e.2 : Rat)), (e.1 : Rat)))
  let st := (pts.map (·.1)).sum
  let sy := (pts.map (·.2)).sum
  let stt := (pts.map (fun q => q.1 * q.1)).sum
  let sty := (pts.map (fun q => q.1 * q.2)).sum
  let b := (n * sty - st * sy) / (n * stt - st * st)
  ((sy - b * st) / n, b)

/-- H of R835, where the device predicts. -/
def WearInd.predict (x : WearInd) : Option Nat :=
  if x.samples.length < x.window || x.window < 7 || x.limit = 0 then none
  else
    let f := fitLine (x.samples.take x.window)
    if f.2 ≤ 0 then none
    else if (x.limit : Rat) ≤ f.1 then some 0
    else some (((x.limit : Rat) - f.1) / f.2).floor.toNat

/-- Does the prediction lie within the horizon (R835)? -/
def WearInd.due (x : WearInd) : Bool :=
  match x.predict with | some h => decide (h ≤ x.warnH) | none => false

/-- WEAR_ALERT follows the predictions, and FLT_WEAR the alerts (R835, R877). -/
def Dev.wearAlerts (d : Dev) : Dev :=
  let d := forL wearIds (fun n d => if (d.wearInd n).alert = (d.wearInd n).due then d else
    d.modWearInd n (fun x => { x with alert := x.due })) d
  if wearIds.any (fun n => (d.wearInd n).alert) then d.raise 95 0 else d.lower 95

/-- The daily sample of every indicator, written with the running totals into the calibration region; shedding stage 1 pauses it
(R833, R540). -/
def Dev.dailySample (values : List (Nat × Nat)) (d : Dev) : Dev :=
  if 1 ≤ d.sched.stage || !(d.sys.stage = .operational) then d
  else
    let d := forL wearIds (sampleInd values) d
    let d := { d with wear := { d.wear with sampleNs := d.ns, stored := min 64 (d.wear.stored + 1) } }
    d.saveWear.wearAlerts

/-- WEAR_DAILY_SAMPLE (R833). -/
def execWearDailySample (values : List (Nat × Nat)) : State → Host.Outcome State Fault Refusal :=
  inDomain 5 (Dev.dailySample values)

/-! ## WEAR opcodes -/

/-- WEAR_READ carries nothing to check. -/
def chkWearRead (_ : Packet) (_ : Dev) : Option Status := none

/-- WEAR_READ (R842). -/
def runWearRead (p : Packet) (d : Dev) : Dev :=
  d.complete p.ref .done (d.wearInd p.target).latest (d.wearInd p.target).samples.length

/-- WEAR_READ (R842). -/
def execWearRead (r seq : Nat) : State → Host.Outcome State Fault Refusal :=
  opRow 0x1000 chkWearRead (onPkt runWearRead) r seq

/-- Checks of WEAR_PREDICT (R842). -/
def chkWearPredict (p : Packet) (_ : Dev) : Option Status :=
  let win := p.fld 1 0 7
  let warn := p.fld 2 0 16
  firstFail
    [(!p.resvOk [(0, 1, 7), (1, 7, 1), (4, 0, 32)], .malformed),
     (p.flag 0 0 && (decide (win < 7) || decide (64 < win) || warn = 0), .badField),
     (!p.flag 0 0 && !(win = 0 && warn = 0 && p.fld 8 0 64 = 0), .badField)]

/-- RESULT of WEAR_PREDICT; a prediction that does not fit its 32 bits is a free value (R842, log entry 5). -/
def Dev.predictResult (x : WearInd) (d : Dev) : Nat × Dev :=
  match x.predict with
  | none => (0xFFFFFFFF, d)
  | some h =>
    if h < 0xFFFFFFFF then (h + 2 ^ 32 * x.window, d)
    else
      let f := d.takeFree
      (f.1 % 2 ^ 32 + 2 ^ 32 * x.window, f.2)

/-- WEAR_PREDICT (R842). -/
def runWearPredict (p : Packet) (d : Dev) : Dev :=
  let d := if p.flag 0 0 then
      (d.modWearInd p.target (fun x => { x with window := p.fld 1 0 7, warnH := p.fld 2 0 16, limit := p.fld 8 0 64 })).wearAlerts
    else d
  let f := d.predictResult (d.wearInd p.target)
  f.2.complete p.ref .done f.1 0

/-- WEAR_PREDICT (R842). -/
def execWearPredict (r seq : Nat) : State → Host.Outcome State Fault Refusal :=
  opRow 0x1001 chkWearPredict (onPkt runWearPredict) r seq

/-- Checks of WEAR_REINIT. -/
def chkWearReinit (_ : Packet) (_ : Dev) : Option Status := none

/-- WEAR_REINIT: the stored samples are discarded; LIMIT, WINDOW and WARN_H are kept (R115). -/
def runWearReinit (p : Packet) (d : Dev) : Dev :=
  (d.modWearInd p.target (fun x => { x with samples := [], first := none })).wearAlerts.complete p.ref .done 0 0

/-- WEAR_REINIT (R115). -/
def execWearReinit (r seq : Nat) : State → Host.Outcome State Fault Refusal :=
  opRow 0x10FF chkWearReinit (onPkt runWearReinit) r seq

/-! ## DIAG opcodes -/

/-- DIAG_ECHO takes any payload of 0 to 224 bytes. -/
def chkDiagEcho (_ : Packet) (_ : Dev) : Option Status := none

/-- DIAG_ECHO (R843). -/
def runDiagEcho (p : Packet) (d : Dev) : Dev := d.complete p.ref .done (crc32 p.payload) p.payload.length

/-- DIAG_ECHO (R843). -/
def execDiagEcho (r seq : Nat) : State → Host.Outcome State Fault Refusal :=
  opRow 0x1100 chkDiagEcho (onPkt runDiagEcho) r seq

/-- Is a loopback refused: a head port that is not DOWN, an Ethernet port that carries an enabled Ethernet ring or PTP instance,
or a port whose domain is not ON (R844)? -/
def Dev.loopRefused (d : Dev) (t : Nat) : Bool :=
  if t < 16 then !(d.dom 10 = .on) || !((d.hp t).st = .down)
  else !(d.dom 9 = .on) || (d.tb 0).enable || (d.tb 1).enable ||
    (List.range 256).any (fun r => (d.ring r).enable && (d.ring r).source = 1)

/-- Checks of DIAG_LOOPBACK (R843, R844). -/
def chkDiagLoopback (p : Packet) (d : Dev) : Option Status :=
  let ms := p.fld 0 0 32
  firstFail [(ms = 0 || decide (60000 < ms), .badField), (d.loopRefused p.target, .refused)]

/-- DIAG_LOOPBACK starts; it ends after DURATION_MS (R843). -/
def runDiagLoopback (p : Packet) (d : Dev) : Dev :=
  { d.executing p with diag := { d.diag with loops := d.diag.loops ++ [{ target := p.target, ref := p.ref }] } }

/-- DIAG_LOOPBACK (R844). -/
def execDiagLoopback (r seq : Nat) : State → Host.Outcome State Fault Refusal :=
  opRow 0x1101 chkDiagLoopback (onPkt runDiagLoopback) r seq

/-- The loopback has run for DURATION_MS (R843). -/
def Dev.loopbackEnd (ref : PktRef) (errors : Nat) (lock : Bool) (d : Dev) : Dev :=
  if d.diag.loops.any (fun l => l.ref = ref) then
    ({ d with diag := { d.diag with loops := d.diag.loops.filter (fun l => !(l.ref = ref)) } }).complete ref .done
      (errors % 2 ^ 64) (b2n lock)
  else d

/-- DIAG_LOOPBACK_END (R843). -/
def execDiagLoopbackEnd (r seq errors : Nat) (lock : Bool) : State → Host.Outcome State Fault Refusal :=
  inDomain 0 (Dev.loopbackEnd (r, seq) errors lock)

/-- Checks of DIAG_TRACE: the bytes after AGE are reserved (R7). -/
def chkDiagTrace (p : Packet) (_ : Dev) : Option Status := firstFail [(!p.resvOk [(1, 0, 24)], .malformed)]

/-- The 8 bytes of a log entry, as a number (R816). -/
def LogEntry.word (e : LogEntry) : Nat := e.timeUs % 2 ^ 48 + 2 ^ 48 * (e.source % 256) + 2 ^ 56 * (e.kind % 256)

/-- DIAG_TRACE (R843). -/
def runDiagTrace (p : Packet) (d : Dev) : Dev :=
  match d.flt.log[p.fld 0 0 8]? with
  | some e => d.complete p.ref .done e.word 0
  | none => d.complete p.ref .doneEmpty 0 0

/-- DIAG_TRACE (R843). -/
def execDiagTrace (r seq : Nat) : State → Host.Outcome State Fault Refusal :=
  opRow 0x1102 chkDiagTrace (onPkt runDiagTrace) r seq

/-- Checks of DIAG_MEMTEST (R541, R844). -/
def chkDiagMemtest (p : Packet) (d : Dev) : Option Status :=
  let b := d.bank p.target
  firstFail
    [(decide (1 ≤ d.sched.stage) && d.sys.stage = .operational, .powerShed),
     (!(d.dom 6 = .on) || !(b.owner = 0) || !(b.power = 0) || b.busy || b.memtest.isSome, .refused)]

/-- DIAG_MEMTEST starts its march over the bank (R843). -/
def runDiagMemtest (p : Packet) (d : Dev) : Dev := (d.executing p).modBank p.target (fun b => { b with memtest := some p.ref })

/-- DIAG_MEMTEST (R844). -/
def execDiagMemtest (r seq : Nat) : State → Host.Outcome State Fault Refusal :=
  opRow 0x1103 chkDiagMemtest (onPkt runDiagMemtest) r seq

/-- The memory test of bank n ends with a status: the bank is cleared under step 2 of R719, then the command completes (R844). -/
def State.memtestEnd (n : Nat) (st : Status) (failing : Nat) (s : State) : State :=
  match (s.dev.bank n).memtest with
  | none => s
  | some q =>
    let s := { s with mem := { s.mem with sram := Memory.clear (n * bankBytes) bankBytes s.mem.sram } }
    s.onDev (fun d => (d.modBank n (fun b => { b with memtest := none })).complete q st failing 0)

/-- The march over the whole bank has ended (R843). -/
def State.memtestDone (ref : PktRef) (failing : Nat) (s : State) : State :=
  match (List.range 12).find? (fun n => (s.dev.bank n).memtest = some ref) with
  | none => s
  | some n => s.memtestEnd n .done (failing % 2 ^ 64)

/-- DIAG_MEMTEST_END (R843). -/
def execDiagMemtestEnd (r seq failing : Nat) : State → Host.Outcome State Fault Refusal :=
  inDomainS 6 (State.memtestDone (r, seq) failing)

/-- Does a test run? -/
def Dev.testRuns (d : Dev) : Bool := !d.diag.loops.isEmpty || (List.range 12).any (fun n => (d.bank n).memtest.isSome)

/-- Checks of DIAG_REINIT. -/
def chkDiagReinit (_ : Packet) (_ : Dev) : Option Status := none

/-- DIAG_REINIT: the tests in progress complete with ABORTED, a bank under test is cleared (R115). -/
def runDiagReinit (p : Packet) (s : State) : State :=
  let runs := s.dev.testRuns
  let s := s.onDev (fun d =>
    ({ d with diag := { d.diag with loops := [] } }).completeAll (d.diag.loops.map (fun (l : Loopback) => l.ref)) .aborted)
  let s := (List.range 12).foldl (fun s n => State.memtestEnd n .aborted 0 s) s
  s.onDev (Dev.complete p.ref (if runs then .done else .doneEmpty) 0 0)

/-- DIAG_REINIT (R115). -/
def execDiagReinit (r seq : Nat) : State → Host.Outcome State Fault Refusal :=
  opRow 0x11FF chkDiagReinit runDiagReinit r seq

end Sys2Proof.Machine
end

