-- ==== Sys2Proof/Machine/RegRead.lean ====
section
/-! DEFINITION. What the registers of BAR0 read (the register tables of every chapter, placed by R868). -/

namespace Sys2Proof.Machine

/-- A register value from its fields: (value, lowest bit, width). -/
def pack (l : List (Nat × Nat × Nat)) : Nat := (l.map (fun f => f.1 % 2 ^ f.2.2 * 2 ^ f.2.1)).sum

/-- A one-bit field. -/
def fbit (b : Bool) (lo : Nat) : Nat × Nat × Nat := (b2n b, lo, 1)

/-- Unit and offset within it, for an offset in the range of n units of a stride from a base (R868). -/
def unitOf (o base stride n : Nat) : Option (Nat × Nat) :=
  if base ≤ o && o < base + stride * n then some ((o - base) / stride, (o - base) % stride) else none

/-- The k-th 32-bit word of a number. -/
def word (k x : Nat) : Nat := bits x (32 * k) 32

/-! ## SYS -/

/-- STAGE as SYS_BOOT_STATUS shows it is Stage.code; the failed starts' stages, newest first (R874). -/
def Sys.startHist (x : Sys) : Nat :=
  pack [(x.startStages.getD 0 0, 0, 4), (x.startStages.getD 1 0, 4, 4), (x.startStages.getD 2 0, 8, 4), (x.saddleReason, 16, 8)]

/-- Registers of the SYS block but the table aperture (R871 to R874, R803, R2, R143, R167, R168). -/
def Dev.readSys (d : Dev) (o : Nat) : Nat :=
  let x := d.sys
  match o with
  | 0x0000 => 0x3216205D
  | 0x0010 => word 0 Config.sysUid
  | 0x0014 => word 1 Config.sysUid
  | 0x0020 => pack [(x.addr, 0, 12), fbit x.addrValid 16]
  | 0x0100 => word 0 x.irqPending
  | 0x0104 => word 1 x.irqPending
  | 0x0108 => word 0 x.irqMask
  | 0x010C => word 1 x.irqMask
  | 0x0200 => pack [(x.stage.code, 0, 4), (x.slotLoaded, 4, 1), fbit x.trialLoaded 5, (x.bootErr, 8, 4)]
  | 0x0204 => pack [(x.resetCause, 0, 4), (x.failedStarts, 4, 4)]
  | 0x020C => x.bootImgLo
  | 0x0210 => x.bootImgHi
  | 0x0214 => x.bootImgLen
  | 0x0218 => x.fwVersion
  | 0x0220 => x.startHist
  | 0x0300 => pack [fbit x.writeLock 0, (x.misoDrive, 1, 2)]
  | 0x0304 => pack [(x.mspiTimeouts, 0, 16), (x.mspiDiscards, 16, 16)]
  | 0x0310 => pack [(x.tableBase, 12, 16)]
  | _ =>
    match unitOf o 0x4000 4 1024 with
    | some (i, _) => Tab.get 0 x.mbox.slots i
    | none => match unitOf o 0x5000 4 64 with
      | some (i, _) => Tab.get 0 x.mbox.cpls i
      | none => 0

/-! ## RING -/

/-- RING_CTRL (R99). -/
def Ring.ctrl (r : Ring) : Nat :=
  pack [(r.log2Slots, 0, 5), (r.source, 6, 2), (r.priority, 8, 2), (r.weight, 16, 8), fbit r.enable 24]

/-- RING_STATUS (R100); barred tells whether the ring is stalled at a SYS_BARRIER. -/
def Ring.status (r : Ring) (barred : Bool) : Nat :=
  pack [fbit r.active 0, fbit r.cqFull 1, fbit r.fenceWait 2, fbit barred 3, fbit r.trigFull 4, fbit r.overrun 5,
        fbit r.configErr 6, fbit r.fetchErr 7, fbit r.peerLost 8, fbit r.seqValid 9]

/-- Registers of ring n (R98). -/
def Dev.readRing (d : Dev) (n o : Nat) : Nat :=
  let r := d.ring n
  match o with
  | 0x00 => r.baseLo
  | 0x04 => r.baseHi
  | 0x08 => r.ctrl
  | 0x0C => r.tail
  | 0x10 => r.head
  | 0x14 => r.cqBaseLo
  | 0x18 => r.cqBaseHi
  | 0x1C => r.cqHead
  | 0x20 => r.cqTail
  | 0x24 => r.status (d.rings.inflight.any (fun q => q.ring = n && q.op = 0x0001))
  | 0x28 => pack [(r.irqVector, 0, 6), (r.irqCount, 8, 8), (r.holdoff, 16, 16)]
  | 0x2C => r.seqTop
  | 0x30 => (d.rings.inflight.filter (fun p => p.ring = n && p.phase = .parked)).length
  | _ => 0

/-- Registers of a report queue (R163). -/
def RptQ.read (q : RptQ) (o : Nat) : Nat :=
  match o with
  | 0x00 => q.baseLo
  | 0x04 => q.baseHi
  | 0x08 => pack [(q.log2, 0, 5), fbit q.enable 8, fbit q.ethernet 9]
  | 0x0C => q.head
  | 0x10 => q.tail
  | _ => 0

/-- Registers of the RING block (R98, R160, R163). -/
def Dev.readRings (d : Dev) (o : Nat) : Nat :=
  match unitOf o 0 0x80 256 with
  | some (n, x) => d.readRing n x
  | none => match unitOf o 0x9000 0x40 4 with
    | some (s, x) => (d.rptq s).read x
    | none =>
      if o = 0x8000 then d.rings.udpPort
      else if o = 0x8004 then
        pack [(d.rings.ethWindow, 0, 11), fbit d.rings.jumbo 11, (d.rings.rtoMs, 16, 8), (d.rings.maxTries, 24, 4)]
      else 0

/-! ## DMA and CODEC -/

/-- STATE of a channel (R220). -/
def DmaSt.code : DmaSt → Nat
  | .idle => 0 | .running => 1 | .halted => 2

/-- Registers of a DMA channel (R218 to R220). -/
def Dma.read (x : Dma) (o : Nat) : Nat :=
  match unitOf o 0 4 12 with
  | some (k, _) => Tab.get 0 x.shadow k
  | none => match unitOf o 0x80 4 12 with
    | some (k, _) => Tab.get 0 x.act k
    | none => match o with
      | 0x40 => pack [fbit x.owner 3]
      | 0x44 => pack [(x.st.code, 0, 2), fbit x.armed 2, (x.lastResult, 3, 3), fbit x.shadowDropped 6, fbit x.writeIgnored 7]
      | 0x48 => word 0 x.residue
      | 0x4C => bits x.residue 32 8
      | 0x50 => word 0 x.errAddr
      | 0x54 => word 1 x.errAddr
      | 0x58 => pack [fbit x.errDir 0, (x.errSpace, 1, 2), (x.errKind, 3, 4)]
      | 0x60 => word 0 x.cmpOffset
      | 0x64 => bits x.cmpOffset 32 8
      | _ => 0

/-- Registers of the DMA block (R218, R221). -/
def Dev.readDma (d : Dev) (o : Nat) : Nat :=
  match unitOf o 0x1000 0x100 32 with
  | some (c, x) => (d.chan c).read x
  | none => match o with
    | 0x0000 => d.ing.dmaDone
    | 0x0004 => maskOf ((List.range 32).filter (fun c => (d.chan c).st = .halted))
    | 0x0010 => d.ddr.objectExtents
    | 0x0014 => d.extentsFree
    | 0x0018 => d.objsOpen % 65536
    | 0x0020 => 64 - (d.rings.bulks.filter (·.slot)).length
    | 0x0024 => d.ing.stageDrops
    | _ => 0

/-- Registers of a capture queue (R285). -/
def CapQ.read (q : CapQ) (o : Nat) : Nat :=
  match o with
  | 0x00 => q.baseLo
  | 0x04 => q.baseHi
  | 0x08 => pack [(q.log2, 0, 5), fbit q.enable 8]
  | 0x0C => q.head
  | 0x10 => q.tail
  | 0x14 => q.lost
  | _ => 0

/-- Registers of the CODEC block (R283 to R285). -/
def Dev.readCodec (d : Dev) (o : Nat) : Nat :=
  let c := d.codec
  match unitOf o 0x0100 0x40 4 with
  | some (s, x) => (d.capq s).read x
  | none => match o with
    | 0x00 => pack [(c.errCause, 0, 4), (c.errStream, 4, 2), (c.errSource, 6, 4), (c.errSegment, 10, 8), fbit c.errOverflow 30,
                    fbit c.errValid 31]
    | 0x04 => word 0 c.errBlock
    | 0x08 => word 0 c.errId
    | 0x0C => word 1 c.errId
    | 0x10 => c.errHandle
    | 0x14 => word 0 c.errOffset
    | 0x18 => bits c.errOffset 32 4
    | 0x20 => c.stageErrs
    | _ => 0

/-! ## SCR and NOZ -/

/-- A drop-level map in the layout of R332: value m in bits [3m+2:3m]. -/
def mapWord (l : List Nat) : Nat := pack ((List.range 8).map (fun m => (l.getD m 0, 3 * m, 3)))

/-- SCR_STREAM_STATUS (R338). -/
def Dev.scrStatus (d : Dev) (s : Nat) : Nat :=
  let x := d.sst s
  let drop := (d.nst s).ports.any (fun e => (d.dropMap e.port).pend.isSome)
  let work := match x.cur with
    | none => [fbit true 7]
    | some i =>
      let e := d.entry i
      [(e.desc.mode, 8, 2), fbit (e.desc.mode = 2 && (e.degThresh || e.shedFallback)) 10, fbit e.degReduce 11, fbit e.shedFallback 15]
  pack ([(d.lanes s, 0, 7), fbit x.tonePend.isSome 12, fbit x.densityPend.isSome 13, fbit drop 14] ++ work)

/-- Registers of the SCR block (R335 to R338). -/
def Dev.readScr (d : Dev) (o : Nat) : Nat :=
  match o with
  | 0x0000 => d.scr.laneMap
  | 0x0004 => b2n d.scr.laneMapRefused
  | _ =>
    match unitOf o 0x0100 0x40 4 with
    | some (s, x) =>
      let t := d.sst s
      match x with
      | 0x00 => d.scrStatus s
      | 0x04 => pack [(t.capDiff, 0, 16), (t.capThresh, 16, 16)]
      | 0x08 => t.degraded
      | 0x0C => t.saturations
      | 0x10 => pack [(t.phaseCross, 0, 8), (t.phaseWeb, 8, 8)]
      | _ => 0
    | none => match unitOf o 0x0200 0x10 16 with
      | some (n, x) =>
        let m := d.dropMap n
        match x with
        | 0x0 => mapWord m.normal
        | 0x4 => mapWord m.reduced
        | 0x8 => pack [fbit m.pend.isSome 0, fbit m.clamped 1]
        | _ => 0
      | none => match unitOf o 0x0400 4 16 with
        | some (k, _) => pack [((d.thresh k).width, 0, 9), ((d.thresh k).height, 9, 9), (min 16383 (d.setRefs 1 k), 18, 14)]
        | none => match unitOf o 0x0440 4 16 with
          | some (k, _) =>
            let f := d.diffSet k
            pack [fbit f.loaded 0, (f.maxLevel, 1, 3), (f.fallback, 4, 4), (min 16383 (d.setRefs 2 k), 8, 14)]
          | none => 0

/-- Is a change of one of these opcodes scheduled for a target on a stream? -/
def Dev.scheduledOps (d : Dev) (s : Nat) (ops : List Nat) (target : Nat) : Bool :=
  (d.nst s).changes.any (fun c => ops.contains c.op && c.target = target)

/-- Is a shift or weight change (NOZ_SET_STITCH) scheduled on a stream (R388)? -/
def Dev.stitchScheduled (d : Dev) (s : Nat) : Bool := d.scheduledOps s [0x0504] s

/-- Registers of stream s in the NOZ block (R387, R388). -/
def Dev.readNozStream (d : Dev) (s o : Nat) : Nat :=
  let n := d.nst s
  match o with
  | 0x00 => pack [(n.width, 0, 17), (n.ports.length, 17, 5)]
  | 0x04 => pack [fbit n.configured 0, fbit n.statusPend.isSome 1, fbit (d.scheduledOps s [0x0502] s) 2,
                  fbit (d.stitchScheduled s) 3, fbit (n.changes.any (fun c => c.boundary.isNone)) 4]
  | 0x08 => pack [(twos 9 n.shift, 0, 9), (twos 9 n.shiftScreen, 16, 9)]
  | 0x0C => ((List.range n.count).filter (fun i => Tab.get 0 n.status i = 2)).length
  | 0x10 => n.skipped
  | 0x14 => n.blanked
  | 0x18 => word 0 n.lastApply
  | 0x1C => bits n.lastApply 32 16
  | _ => 0

/-- Registers of port n in the NOZ block (R389, R390). -/
def Dev.readNozPort (d : Dev) (n o : Nat) : Nat :=
  match d.streamOf n with
  | none => if o = 4 then (d.nport n).y % 2 ^ 22 else 0
  | some s =>
    let e := (d.nst s).port ((d.nst s).indexOf n)
    match o with
    | 0x0 => pack [(e.nozzles, 0, 13), (e.col, 16, 16)]
    | 0x4 => (d.nport n).y % 2 ^ 22
    | 0x8 => pack [(s, 0, 2), fbit true 2, fbit (d.scheduledOps s [0x0505] n) 3, fbit (d.scheduledOps s [0x0506] n) 4,
                   fbit (decide (0 < (d.hp n).nozzles) && decide ((d.hp n).nozzles < e.nozzles)) 5, (d.shortLines n, 6, 8)]
    | _ => 0

/-- Registers of the NOZ block (R386 to R390). -/
def Dev.readNoz (d : Dev) (o : Nat) : Nat :=
  match unitOf o 0x0100 0x40 4 with
  | some (s, x) => d.readNozStream s x
  | none => match unitOf o 0x0800 0x10 16 with
    | some (n, x) => d.readNozPort n x
    | none => match o with
      | 0x0 => b2n d.noz.shortExtra
      | 0x4 => (d.storesUsed none none).1 / 64 % 2 ^ 17
      | 0x8 => ((d.storesUsed none none).2 + 1023) / 1024 % 2 ^ 23
      | 0xC => d.longSize / 1024 % 2 ^ 23
      | _ => 0

/-! ## FIRE and HLINK -/

/-- FIRE_LINE_RATE; the rounding is open (R437, log entry 7). -/
def Dev.rateField (d : Dev) : Nat :=
  min (2 ^ 20 - 1) (roundOpen 34 ((d.enc d.fire.src).v * 1000000000 : Nat) (2 ^ 30)).toNat

/-- FIRE_STATUS (R438). -/
def Dev.fireStatus (d : Dev) : Nat :=
  let f := d.fire
  let e := d.enc f.src
  pack [(f.src, 0, 1), fbit f.lost 1, fbit e.still 2, fbit (decide (0 < e.deficit)) 3, fbit f.reversed 4, fbit f.failedOver 5,
        fbit f.belowMin 6]

/-- Registers of encoder e (R439, R440). -/
def Enc.read (e : Enc) (o : Nat) : Nat :=
  match o with
  | 0x00 => pack [(e.role, 0, 2), fbit e.invert 2, (e.filterNs, 8, 8), (e.indexTol, 16, 16)]
  | 0x04 => word 0 (twos 64 e.count)
  | 0x08 => word 1 (twos 64 e.count)
  | 0x0C => pack [fbit e.signalOk 0, fbit e.los 1, fbit e.illegal 2, fbit e.rateErr 3, fbit e.indexErr 4, fbit e.mismatch 5]
  | 0x10 => twos 32 e.indexSpan
  | 0x14 => word 0 e.edgeNs
  | 0x18 => word 1 e.edgeNs
  | 0x1C => e.illegalCount
  | 0x20 => word 0 e.ratio
  | 0x24 => word 1 e.ratio
  | _ => 0

/-- Registers of stream s in the FIRE block (R441). -/
def Dev.readFireStream (d : Dev) (s o : Nat) : Nat :=
  let f := d.fst s
  match o with
  | 0x00 => word 0 (twos 40 f.datum)
  | 0x04 => bits (twos 40 f.datum) 32 8
  | 0x08 => word 0 (wpOf f.nextLine)
  | 0x0C => bits (wpOf f.nextLine) 32 16
  | 0x10 => pack [fbit (d.scheduledOps s [0x0603, 0x0604] s) 0, fbit f.rateHigh 1, fbit (!f.armed.isEmpty) 2]
  | 0x14 => f.skipped
  | 0x18 => f.lead % 2 ^ 20
  | _ => 0

/-- Registers of port n in the FIRE block (R442). -/
def FirePort.read (p : FirePort) (o : Nat) : Nat :=
  match o with
  | 0x0 => word 0 p.fsyncNs
  | 0x4 => word 1 p.fsyncNs
  | 0x8 => p.fsyncCount
  | 0xC => p.hblat % 65536
  | _ => 0

/-- Registers of the FIRE block (R437 to R442). -/
def Dev.readFire (d : Dev) (o : Nat) : Nat :=
  match unitOf o 0x0100 0x40 2 with
  | some (e, x) => (d.enc e).read x
  | none => match unitOf o 0x0400 0x40 4 with
    | some (s, x) => d.readFireStream s x
    | none => match unitOf o 0x0800 0x10 16 with
      | some (n, x) => (d.fport n).read x
      | none => match o with
        | 0x00 => word 0 (twos 48 (d.fire.lastWp / 2 ^ 16))
        | 0x04 => bits (twos 48 (d.fire.lastWp / 2 ^ 16)) 32 16
        | 0x08 => min (2 ^ 32 - 1) (d.enc d.fire.src).v
        | 0x0C => min (2 ^ 32 - 1) (d.enc d.fire.src).deficit
        | 0x10 => d.fireStatus
        | 0x14 => d.fire.reversals
        | 0x18 => d.rateField
        | 0x1C => pack [(d.fire.bwHz, 0, 16), (d.fire.lpi, 16, 16)]
        | _ => 0

/-- STATE of a port (R476). -/
def HlSt.code : HlSt → Nat
  | .down => 0 | .reset => 1 | .training => 2 | .auth => 3 | .loading => 4 | .up => 5 | .failed => 6

/-- HL_STATUS (R507). -/
def HlPort.status (h : HlPort) : Nat :=
  pack [(h.st.code, 0, 3), fbit h.hvRange 3, fbit h.halert 4, fbit h.alertSeen 5, fbit h.downSeen 6, (h.alert, 8, 8),
        (h.failCause, 16, 4)]

/-- Registers of head port n (R505 to R507). -/
def Dev.readHead (d : Dev) (n o : Nat) : Nat :=
  let h := d.hp n
  match o with
  | 0x00 => pack [fbit h.authReq 0, fbit h.hvFf 1, fbit h.autoRetrain 2, (h.sendAhead, 8, 6), (h.hrstMs, 16, 10)]
  | 0x04 => h.status
  | 0x08 => pack [(h.nozzles, 0, 13), (h.levels, 16, 4), (h.waves, 20, 4), (h.bufLines, 24, 8)]
  | 0x0C => pack [(h.waveSamples, 0, 11), (h.hvRef, 16, 16)]
  | 0x10 => h.maxRate
  | 0x14 => word 0 h.uid
  | 0x18 => word 1 h.uid
  | 0x1C => h.model
  | 0x20 => pack [(twos 16 h.temp, 0, 16), (h.hv, 16, 16)]
  | 0x24 => pack [(h.scale, 0, 16), (h.hMean, 16, 16)]
  | 0x28 => pack [(d.hl.fuseDone, 0, 4), (h.keyVer, 4, 2), fbit h.authed 6]
  | 0x2C => pack [(maskOf h.loaded, 0, 8), (h.slot, 8, 3),
                  fbit ((List.range 4).any (fun s => d.scheduledOps s [0x0703] n)) 11]
  | 0x30 => h.replays
  | 0x34 => h.crcErrs
  | 0x38 => h.linesLost
  | 0x3C => h.retrains
  | 0x40 => word 0 h.drops
  | 0x44 => word 1 h.drops
  | 0x48 => word 0 h.counter
  | 0x4C => word 1 h.counter
  | _ => 0

/-! ## SCHED and THERM -/

/-- A voltage in the form mV - 500. -/
def mv500 (v : Nat) : Nat := (v - 500) % 1024

/-- Imprint registers of stream s in the SCHED block (R88 to R90, R557). -/
def Dev.readImp (d : Dev) (s o : Nat) : Nat :=
  let x := d.ist s
  match o with
  | 0x00 => pack [fbit x.configured 0, fbit x.policy 1, fbit x.shortHorizon 2, fbit (!(x.hold = 0)) 3,
                  (min 255 (d.onWeb s).length, 8, 8), (x.spoils, 16, 16)]
  | 0x04 => d.stageLead s % 2 ^ 24
  | 0x08 => x.nextAccept
  | 0x0C => x.hold
  | 0x10 => x.spacing
  | _ => 0

/-- Cairn entries that are not released (R91). -/
def Dev.cairnUsed (d : Dev) : Nat := (d.imp.entries.filter (fun e => !(e.2.st = .released))).length

/-- SHED_THR_k (R557). -/
def Sched.shedThr (c : Sched) (k : Nat) : Nat := pack [(c.shedIn.getD (k - 1) 0, 0, 10), (twos 8 (c.shedCm.getD (k - 1) 0), 16, 8)]

/-- Registers of the SCHED block (R557, R558, R88 to R91). -/
def Dev.readSched (d : Dev) (o : Nat) : Nat :=
  let c := d.sched
  match unitOf o 0x0304 4 7 with
  | some (k, _) => c.shedThr (k + 1)
  | none => match unitOf o 0x0400 0x10 16 with
    | some (n, x) =>
      let p := d.pmodel n
      if x = 0 then pack [(twos 16 p.peak, 0, 16), fbit p.warn 16, fbit p.crit 17, fbit p.backoff 18]
      else if x = 4 then p.bias % 256 else 0
    | none => match unitOf o 0x0600 0x10 8 with
      | some (z, x) => if x = 0 then (d.zone z).ff % 2 ^ 32 else 0
      | none => match unitOf o 0x0800 0x40 4 with
        | some (s, x) => d.readImp s x
        | none => match o with
          | 0x0000 => min 65535 c.devPred
          | 0x0004 => c.capMw % 65536
          | 0x0008 => c.headPred % 2 ^ 32
          | 0x000C => c.dryerPred % 2 ^ 32
          | 0x0010 => pack [(c.stage, 0, 3), fbit d.pwr.pfwLow 3, fbit c.stopDone 4]
          | 0x0100 => pack [(c.vMin, 0, 7), (c.vMax, 7, 7), (c.slackLow, 14, 8), (c.slackHigh, 22, 8)]
          | 0x0104 => pack [(mv500 c.target, 0, 10), (mv500 c.vFloor, 10, 10), (mv500 c.measured, 20, 10), fbit c.avsFail 30]
          | 0x0108 => pack [(c.slack, 0, 8), (c.slackMon, 8, 6)]
          | 0x0200 => c.acts.length % 128
          | 0x0300 => pack [(c.inCh, 0, 5), fbit c.inEn 5, (c.inNom, 16, 16)]
          | 0x0900 => pack [(d.cairnUsed, 0, 21), fbit d.imp.scanDone 21, fbit d.imp.orderly 22, fbit d.imp.ckptFull 23]
          | _ => 0

/-- Registers of the THERM block (R560). -/
def Dev.readTherm (d : Dev) (o : Nat) : Nat :=
  let c := d.sched
  match unitOf o 0 4 8 with
  | some (i, _) => twos 16 (c.therm.getD i 0)
  | none => match o with
    | 0x20 => pack [(c.throttleC, 0, 8), (c.limitC, 8, 8)]
    | 0x24 => pack [(twos 16 c.die, 0, 16), (c.throttle, 16, 8), fbit (decide (((16 * c.limitC : Nat) : Int) ≤ c.die)) 24]
    | _ => 0

/-! ## TIME -/

/-- STATE of a base (R599). -/
def TbSt.code : TbSt → Nat
  | .host => 0 | .acquiring => 1 | .locked => 2 | .holdover => 3 | .grandmaster => 4

/-- clockIdentity of a base's grandmaster is Tb.gm; registers of base k (R598, R599), TB_STATUS of TB_2 reads 0. -/
def Dev.readTb (d : Dev) (k o : Nat) : Nat :=
  let b := d.tb k
  match o with
  | 0x00 => if k = 2 then 0 else pack [(b.st.code, 0, 3), fbit b.conv 3, fbit b.stepped 4, fbit b.enable 5, (b.syncPort, 6, 1)]
  | 0x04 => twos 32 b.offset
  | 0x08 => b.mpd % 2 ^ 32
  | 0x0C => twos 32 b.y
  | 0x10 => b.steps
  | 0x14 => word 0 b.gm
  | 0x18 => word 1 b.gm
  | _ => 0

/-- Whole nanoseconds of a time in 2^-16 ns, modulo 2^64. -/
def ns64 (t : Int) : Nat := twos 64 (t / 2 ^ 16)

/-- Registers of input i (R598, R601). -/
def Tin.read (t : Tin) (o : Nat) : Nat :=
  let r := t.queue.headD TinRec.reset
  match o with
  | 0x00 => pack [(t.queue.length, 0, 5), fbit t.overflow 5, (r.edge, 6, 2), (t.edge, 8, 2), (t.filterNs, 16, 8)]
  | 0x04 => word 0 (ns64 r.tb0)
  | 0x08 => word 1 (ns64 r.tb0)
  | 0x0C => word 0 (ns64 r.tb1)
  | 0x10 => word 1 (ns64 r.tb1)
  | 0x14 => word 0 (ns64 r.tb2)
  | 0x18 => word 1 (ns64 r.tb2)
  | 0x1C => pack [(twos 16 r.tb0, 0, 16), (twos 16 r.tb1, 16, 16)]
  | _ => 0

/-- Registers of the TIME block (R598 to R601). -/
def Dev.readTime (d : Dev) (o : Nat) : Nat :=
  match unitOf o 0x0010 0x10 3 with
  | some (k, x) =>
    let s := Tab.get (0, 0, 0) d.time.snap k
    match x with
    | 0x0 => s.2.1
    | 0x4 => word 0 s.1
    | 0x8 => pack [(bits s.1 32 16, 0, 16), (s.2.2, 16, 16)]
    | _ => 0
  | none => match unitOf o 0x0100 0x40 3 with
    | some (k, x) => d.readTb k x
    | none => match unitOf o 0x0400 0x40 2 with
      | some (p, x) =>
        let e := d.eth p
        match x with
        | 0x00 => twos 32 e.asym
        | 0x04 => e.peer % 2 ^ 32
        | 0x08 => e.resMax % 2 ^ 32
        | 0x0C => e.drops
        | 0x10 => e.rxErrs
        | _ => 0
      | none => match unitOf o 0x0800 0x10 8 with
        | some (n, x) =>
          let t := d.tout n
          if x = 0 then pack [(t.cfg.mode, 0, 2), (t.cfg.base, 2, 2), fbit t.active 4, fbit t.missed 5]
          else if x = 4 then t.edges else 0
        | none => match unitOf o 0x0A00 0x40 8 with
          | some (i, x) => (d.tin i).read x
          | none => 0

/-! ## MOT, BL and LOOP -/

/-- STATE of an axis (R648). -/
def AxisSt.code : AxisSt → Nat
  | .disabled => 0 | .idle => 1 | .moving => 2 | .stopping => 3 | .homing => 4 | .following => 5 | .engaging => 6 | .geared => 7

/-- MOT_TARGET: the target or kept target of an axis (R647). -/
def Axis.targetReg (a : Axis) : Int := match a.kept with | some t => t | none => a.target

/-- Pending microsteps b of a following axis (R647). -/
def Axis.backlogOf (a : Axis) : Nat := (a.folPend.map (fun x => x.2.1)).sum

/-- MOT_STATUS (R648). -/
def Axis.status (a : Axis) : Nat :=
  pack [(a.st.code, 0, 3), fbit a.posLost 3, fbit a.homed 4, fbit (a.kept.isSome || a.keptV.isSome) 5,
        fbit (a.chg.isSome || a.blending) 6, (a.homeResult, 7, 3), fbit a.limitHit 10, fbit a.softHit 11, fbit a.gearLost 12,
        fbit a.backlog 13, fbit a.en 14]

/-- Registers of an axis (R647, R648). -/
def Axis.read (a : Axis) (o : Nat) : Nat :=
  let lo (x : Int) : Nat := word 0 (twos 40 x)
  let hi (x : Int) : Nat := bits (twos 40 x) 32 8
  match o with
  | 0x00 => pack [(a.stepDiv, 0, 4), fbit a.dirInvert 4, fbit a.enHigh 5, fbit a.safeGear 6, fbit a.fallback 7, (a.pulse, 8, 8),
                  fbit a.homeHigh 16, fbit a.limHigh 17, fbit a.limEn 18, fbit a.noHome 19, fbit a.configured 31]
  | 0x04 => a.status
  | 0x08 => lo a.pos
  | 0x0C => hi a.pos
  | 0x10 => lo a.targetReg
  | 0x14 => hi a.targetReg
  | 0x18 => twos 32 a.vel
  | 0x1C => a.lim.vMax
  | 0x20 => a.lim.aMax
  | 0x24 => a.lim.dMax
  | 0x28 => a.lim.jMax
  | 0x2C => lo a.softMin
  | 0x30 => hi a.softMin
  | 0x34 => lo a.softMax
  | 0x38 => hi a.softMax
  | 0x3C => word 0 (twos 64 a.ratio)
  | 0x40 => word 1 (twos 64 a.ratio)
  | 0x44 => pack [(a.folIn, 0, 2), fbit a.folInv 2, (a.folMult, 3, 9), (min (2 ^ 20 - 1) a.backlogOf, 12, 20)]
  | 0x48 => a.pulses
  | _ => 0

/-- Registers of the MOT block (R646 to R648). -/
def Dev.readMot (d : Dev) (o : Nat) : Nat :=
  match unitOf o 0x0100 0x80 8 with
  | some (n, x) => (d.axis n).read x
  | none => match unitOf o 0x0010 4 4 with
    | some (m, _) => twos 32 (d.fol m).count
    | none =>
      let of (f : Axis → Bool) : Nat := maskOf ((List.range 8).filter (fun n => f (d.axis n)))
      if o = 0 then of Axis.engaged
      else if o = 4 then
        pack [(of (·.home), 0, 8), (of (·.limP), 8, 8), (of (·.limN), 16, 8),
              (maskOf ((List.range 4).filter (fun m => (d.fol m).dir)), 24, 4)]
      else 0

/-- STATE of a channel (R692). -/
def BlSt.code : BlSt → Nat
  | .stopped => 0 | .measuring => 1 | .braking => 2 | .starting => 3 | .running => 4 | .stopping => 5 | .coasting => 6

/-- Registers of channel n (R691, R692). -/
def Dev.readBl (d : Dev) (n o : Nat) : Nat :=
  let c := d.bch n
  match o with
  | 0x00 => pack [(c.st.code, 0, 3), (c.startResult, 3, 3), fbit c.limited 6, fbit c.chopFault 7, fbit c.regen 8, fbit c.holding 9,
                  fbit c.overvolt 10, fbit c.overcurrent 11, fbit c.undervolt 12, fbit c.skipCapped 13, fbit (d.loopDriven n) 14,
                  fbit c.configured 15]
  | 0x04 => twos 32 c.speed
  | 0x08 => twos 32 c.set
  | 0x0C => pack [(twos 16 c.iq, 0, 16), (twos 16 c.iqRef, 16, 16)]
  | 0x10 => c.vbus % 65536
  | 0x14 => c.skips
  | 0x18 => c.overvolts
  | 0x1C => c.runUs / pwmLcm % 2 ^ 32
  | 0x20 => c.starts
  | _ => 0

/-- Registers of a loop (R693). -/
def Loop.read (x : Loop) (o : Nat) : Nat :=
  match o with
  | 0x00 => pack [fbit x.configured 0, fbit x.enabled 1, fbit (x.enabled && !(x.r = x.set)) 2, fbit x.satHi 3, fbit x.satLo 4,
                  fbit x.implausible 5, fbit x.heatForced 6, fbit x.safeOff 7]
  | 0x04 => twos 32 x.y
  | 0x08 => twos 32 x.r
  | 0x0C => twos 32 x.set
  | 0x10 => twos 32 x.out
  | 0x14 => twos 32 x.i
  | 0x18 => twos 32 x.model
  | _ => 0

/-- Registers of the LOOP block (R693). -/
def Dev.readLoop (d : Dev) (o : Nat) : Nat :=
  match unitOf o 0x0100 0x20 32 with
  | some (l, x) => (d.lp l).read x
  | none => match unitOf o 0x0010 4 8 with
    | some (z, _) => Tab.get 1000 d.bl.dryHz z
    | none => if o = 0 then min (2 ^ 18 - 1) d.engineLoad.floor.toNat else 0

/-! ## DDRC and SRAMC -/

/-- STATE of a channel (R739). -/
def DdrSt.code : DdrSt → Nat
  | .unpopulated => 0 | .training => 1 | .serving => 2 | .selfRefresh => 3 | .failed => 4

/-- Registers of an SDRAM channel (R738, R739). -/
def DdrCh.read (x : DdrCh) (o : Nat) : Nat :=
  match o with
  | 0x00 => pack [(x.st.code, 0, 3), fbit (!(x.panicPorts = 0)) 3, fbit x.refresh2x 4, fbit x.trackQueued 5, fbit x.trainFail 6,
                  fbit x.ueSeen 7]
  | 0x04 => x.ce
  | 0x08 => x.ue
  | 0x0C => word 0 x.errAddr
  | 0x10 => pack [(bits x.errAddr 32 8, 0, 8), (x.errRegion, 8, 3), fbit x.errUe 11]
  | 0x14 => x.panics
  | 0x18 => x.neighbours
  | _ => 0

/-- Registers of the DDRC block (R737 to R739). -/
def Dev.readDdrc (d : Dev) (o : Nat) : Nat :=
  let x := d.ddr
  match unitOf o 0x0100 0x100 2 with
  | some (c, y) => (d.dch c).read y
  | none => match unitOf o 0x0020 4 6 with
    | some (r, _) => x.base r % 2 ^ 17
    | none => match o with
      | 0x00 => pack [(x.channels, 0, 2), (x.ranks, 2, 2), (x.width, 4, 1), (x.density, 5, 2), (x.speed, 7, 2)]
      | 0x04 => x.longSize % 128
      | 0x08 => x.totalMiB % 2 ^ 17
      | 0x0C => pack [(x.periodH, 0, 8), fbit x.scrubEn 8]
      | 0x10 => pack [(x.threshold, 0, 16), (x.radius, 16, 1)]
      | 0x14 => pack [(x.panicLow, 0, 8), (x.panicHigh, 8, 8), (x.trackMs, 16, 14)]
      | _ => 0

/-- Registers of a bank (R740, R741). -/
def Bank.read (b : Bank) (o : Nat) : Nat :=
  match o with
  | 0x00 => pack [(b.reqOwner, 0, 2), (b.reqPower, 2, 2)]
  | 0x04 => pack [(b.owner, 0, 2), (b.power, 2, 2), fbit b.busy 4, fbit b.refused 5, fbit b.scree 6, fbit b.sparesOut 7,
                  (b.remaps.length, 8, 4)]
  | 0x08 => b.ce
  | 0x0C => b.ue
  | 0x10 => pack [fbit b.errUe 0, (b.errOff / 8, 3, 18)]
  | 0x14 => pack [(b.screePos, 0, 13), (b.screePass, 16, 16)]
  | 0x18 => b.screeFails
  | 0x1C => b.stalls
  | _ => 0

/-! ## PWR and CLK -/

/-- State of a domain (R800). -/
def Dom.code : Dom → Nat
  | .off => 0 | .reset => 1 | .on => 2 | .ret => 3

/-- SEQ of PWR_SEQ_STATUS (R800): a boot sequence is a power-up, the safe rail shutdown a shutdown. -/
def SeqKind.code : SeqKind → Nat
  | .idle => 0 | .powerUp => 1 | .boot => 1 | .shutdown => 2 | .safeShutdown => 2 | .timedShutdown => 3

/-- STATE of a rail (R801). -/
def RailSt.code : RailSt → Nat
  | .off => 0 | .wait => 1 | .rising => 2 | .qualifying => 3 | .up => 4 | .falling => 5 | .failed => 6

/-- Registers of a rail (R800, R801, R749). -/
def Rail.read (r : Rail) (o : Nat) : Nat :=
  match o with
  | 0x00 => pack [(r.order, 0, 4), fbit r.failDevice 4, fbit r.enActiveHigh 5, (r.chatterLimit, 8, 4), (r.prereq, 16, 16)]
  | 0x04 => pack [(r.uv, 0, 16), (r.ov, 16, 16)]
  | 0x08 => pack [(r.off, 0, 16), (r.qual, 16, 16)]
  | 0x0C => pack [(r.riseMs, 0, 16), (r.fallMs, 16, 16)]
  | 0x10 => pack [(r.st.code, 0, 3), fbit r.good 3, fbit r.en 4, (r.cause, 5, 3), (r.chatter, 8, 8), fbit r.failSeen 16]
  | 0x14 => r.riseUs % 2 ^ 32
  | 0x18 => r.fails
  | _ => 0

/-- Registers of the PWR block (R800, R801). -/
def Dev.readPwr (d : Dev) (o : Nat) : Nat :=
  let x := d.pwr
  match unitOf o 0x0100 0x40 16 with
  | some (n, y) => (d.rail n).read y
  | none => match unitOf o 0x0800 4 32 with
    | some (c, _) => Tab.get 0 x.hkExt c
    | none => match unitOf o 0x0880 4 24 with
      | some (c, _) => Tab.get 0 x.hkInt c
      | none => match unitOf o 0x0010 4 4 with
        | some (k, _) => pack [((d.srst k).stretchMs, 0, 10), ((d.srst k).railMask, 10, 16), fbit (d.srst k).onWarm 26]
        | none => match o with
          | 0x0 => pack [(x.seqKind.code, 0, 2), fbit (x.seqWaiting.any (fun q => q.kind = .powerUp)) 2, (x.seqRail, 8, 4)]
          | 0x4 => pack [(x.pfwBudget, 0, 10), (x.railWarn, 10, 10), (x.cycleOffMs, 20, 10), fbit x.pfwEn 30]
          | 0x8 => pack ((List.range 12).map (fun k => ((d.dom k).code, 2 * k, 2)))
          | _ => 0

/-- PLL_STATUS and the divider registers of PLL k, which exist for k = 0 and 1 only (R802). -/
def Dev.readPll (d : Dev) (k o : Nat) : Nat :=
  let x := d.pll k
  if o = 0x10 then pack [fbit x.locked 0, fbit x.bypass 1, fbit x.refLost 2, fbit x.lolSeen 3, fbit x.updRefused 4]
  else if 2 ≤ k then 0
  else match o with
    | 0x0 => pack [(x.refDiv, 0, 4), (x.fbDiv, 4, 9)]
    | 0x4 => x.frac % 2 ^ 24
    | 0x8 => x.outDiv
    | 0xC => pack [(x.lockCnt, 16, 16)]
    | _ => 0

/-- Registers of the CLK block (R802). -/
def Dev.readClk (d : Dev) (o : Nat) : Nat :=
  let x := d.clk
  match unitOf o 0x0100 0x40 4 with
  | some (k, y) => d.readPll k y
  | none => match unitOf o 0x0400 4 4 with
    | some (k, _) => Tab.get 0 x.clkout k
    | none => match unitOf o 0x0500 4 10 with
      | some (b, _) => pack [(Tab.get 0 x.colMode b, 0, 1), (Tab.get 64 x.colTimeout b, 16, 14)]
      | none => if o = 0x0540 then pack [(x.colBridge, 0, 4), fbit x.colSeen 4] else 0

/-! ## FLT and WEAR -/

/-- A word of 32 bits, one per source of a group. -/
def sourceWord (k : Nat) (f : Nat → Bool) : Nat := maskOf ((List.range 32).filter (fun j => f (32 * k + j)))

/-- Registers of source n (R845); the reserved numbers read 0. -/
def Dev.readSource (d : Dev) (n o : Nat) : Nat :=
  let x := d.src n
  if 248 ≤ n then 0
  else match o with
    | 0x0 => pack [(x.reaction.code, 0, 3), fbit x.webStop 3, (x.quietMs, 16, 16)]
    | 0x4 => x.timerUs % 2 ^ 20
    | 0x8 => pack [(x.st.code, 0, 2), fbit x.wireErr 2, fbit x.escalated 3, (x.detail, 16, 16)]
    | 0xC => pack [(x.raises, 0, 16), (x.recoveries, 16, 16)]
    | _ => 0

/-- Registers of the FLT block (R845, R846). -/
def Dev.readFlt (d : Dev) (o : Nat) : Nat :=
  let f := d.flt
  match unitOf o 0x1000 0x10 256 with
  | some (n, x) => d.readSource n x
  | none => match unitOf o 0x0010 4 8 with
    | some (k, _) => sourceWord k (fun n => (d.src n).st = .active)
    | none => match unitOf o 0x0030 4 8 with
      | some (k, _) => sourceWord k (fun n => (d.src n).wireErr)
      | none => match unitOf o 0x0050 4 8 with
        | some (k, _) => sourceWord k (fun n => f.causes.contains n)
        | none => match unitOf o 0x0080 4 7 with
          | some (r, _) => Tab.get 0 f.fabReplays r
          | none => match o with
            | 0x0000 => pack [(f.safeRailMask / 32, 5, 11), fbit f.injectEn 16]
            | 0x0004 => pack [fbit f.held 0, fbit f.webStop 1, fbit (f.held && d.exitReady) 2, fbit f.resetSuppressed 3,
                              fbit f.entered 4, (f.firstSource, 16, 8)]
            | 0x0070 => d.sys.saddleReason % 256
            | _ => 0

/-- Registers of the WEAR block (R877). -/
def Dev.readWear (d : Dev) (o : Nat) : Nat :=
  match unitOf o 0x0010 4 3 with
  | some (k, _) => maskOf ((List.range 32).filter (fun j => (d.wearInd (32 * k + j)).alert))
  | none =>
    if o = 0 then pack [(min 65535 ((d.ns - d.wear.sampleNs) / 3600000000000), 0, 16), (d.wear.stored, 16, 7), fbit d.wear.valid 23]
    else 0

/-! ## The whole map -/

/-- The value of the register at a BAR0 offset as it stands, the block's power and stage left out (R868, R869). -/
def State.regLive (s : State) (a : Nat) : Nat :=
  let d := s.dev
  let o := a % 65536
  match a / 65536 with
  | 0x00 => if 0x6000 ≤ o && o < 0x7000 then s.apertureRead (o - 0x6000) else d.readSys o
  | 0x01 => d.readRings o
  | 0x02 => d.readDma o
  | 0x03 => d.readCodec o
  | 0x04 => d.readScr o
  | 0x05 => d.readNoz o
  | 0x06 => d.readFire o
  | 0x07 => d.readHead (o / 0x1000) (o % 0x1000)
  | 0x08 => d.readSched o
  | 0x09 => d.readTime o
  | 0x0A => d.readMot o
  | 0x0B => match unitOf o 0x0100 0x100 4 with | some (n, x) => d.readBl n x | none => 0
  | 0x0C => d.readLoop o
  | 0x0D => d.readDdrc o
  | 0x0E => match unitOf o 0x0100 0x40 12 with | some (n, x) => (d.bank n).read x | none => 0
  | 0x0F => d.readPwr o
  | 0x10 => d.readClk o
  | 0x11 => d.readFlt o
  | 0x12 => d.readTherm o
  | 0x13 => d.readWear o
  | _ => 0

/-- Is a BAR0 offset the low word of a pair whose read latches the high word, 4 bytes on (R12)? -/
def latchesHigh (a : Nat) : Bool :=
  let o := a % 65536
  let unit (base stride n : Nat) (l : List Nat) : Bool := match unitOf o base stride n with | some (_, x) => l.contains x | none => false
  match a / 65536 with
  | 0x00 => o = 0x10
  | 0x06 => o = 0 || unit 0x0100 0x40 2 [0x04, 0x14, 0x20] || unit 0x0400 0x40 4 [0x00, 0x08] || unit 0x0800 0x10 16 [0x00]
  | 0x07 => unit 0 0x1000 16 [0x14, 0x40, 0x48]
  | 0x09 => unit 0x0100 0x40 3 [0x14] || unit 0x0A00 0x40 8 [0x04, 0x0C, 0x14]
  | 0x0A => unit 0x0100 0x80 8 [0x08, 0x10, 0x2C, 0x34, 0x3C]
  | 0x0D => unit 0x0100 0x100 2 [0x0C]
  | _ => false

/-- Power domain of the registers of block k (R868). -/
def blockDomain (k : Nat) : Nat :=
  match k with
  | 0x01 => 5 | 0x02 => 4 | 0x03 => 4 | 0x04 => 1 | 0x05 => 1 | 0x06 => 11 | 0x07 => 10 | 0x08 => 5 | 0x09 => 9 | 0x0A => 11
  | 0x0B => 11 | 0x0C => 11 | 0x0D => 7 | 0x0E => 6 | 0x13 => 5 | _ => 0

/-- Do the registers at a BAR0 offset answer: the SYS block always, the others once the device is operational and while their
domain runs, ring 0's in Saddle mode and NO_IMAGE (R795, R868, R870)? -/
def Dev.regOn (d : Dev) (a : Nat) : Bool :=
  let k := a / 65536
  if k = 0 then d.sys.powered
  else if d.sys.stage = .operational then d.on (blockDomain k) || (k = 0x0E && d.sramOn)
  else (d.sys.stage = .saddle || d.sys.stage = .noImage) && decide (0x10000 ≤ a) && decide (a < 0x10080) && d.on 5

/-- What a read of an aligned BAR0 offset returns: a high word as its low word's read latched it (R12, R795, R869, R870). -/
def State.regValue (s : State) (a : Nat) : Nat :=
  if !s.dev.regOn a then 0
  else if 4 ≤ a && latchesHigh (a - 4) then Tab.get (s.regLive a) s.dev.sys.latch a
  else s.regLive a

end Sys2Proof.Machine
end

