-- ==== Sys2Proof/Machine/RingOps.lean ====
section
/-! DEFINITION. Serving the rings (spec chapter 3): fetching slots, ring and report queue registers, the Ethernet transport, the
mailbox, barriers and the SYS opcodes of that chapter. -/

namespace Sys2Proof.Machine

/-! ## Fetching packets -/

/-- Does the device serve ring n: enabled and not stopped; in Saddle mode and NO_IMAGE ring 0 through the mailbox alone (R94, R100,
R172)? -/
def Dev.serves (d : Dev) (n : Nat) : Bool :=
  let r := d.ring n
  r.enable && r.active && !r.stopped && (d.sys.stage = .operational || (n = 0 && r.source = 2))

/-- Has ring n a packet that a fetch could start? -/
def Dev.ringReady (d : Dev) (n : Nat) : Bool :=
  let r := d.ring n
  d.serves n && r.source ≠ 1 && !(r.head = r.tail) && r.stalled.isNone &&
  !(d.rings.inflight.any (fun q => q.ring = n && q.op = 0x0001)) && decide (d.cqUsed n < r.slots)

/-- WEIGHT of a ring (R99). -/
def Ring.turns (r : Ring) : Nat := if r.weight = 0 then 256 else r.weight

/-- May ring n be fetched now (R134): no ring of a higher class is ready, and no other ring of its class is within its turn? -/
def Dev.turnOf (d : Dev) (n : Nat) : Bool :=
  let c := (d.ring n).priority
  !((List.range 256).any (fun k => d.ringReady k && decide (c < (d.ring k).priority))) &&
  (let t := d.rings.turnRing
   t = n || !(d.ringReady t) || !((d.ring t).priority = c) || decide ((d.ring t).turns ≤ d.rings.turnCount))

/-- The turn after a packet of ring n has been fetched (R134): a ring that has had its turn gives way to the others that are
ready. -/
def Dev.takeTurn (n : Nat) (d : Dev) : Dev :=
  let same := d.rings.turnRing = n
  let count := if same && d.rings.turnCount < (d.ring n).turns then d.rings.turnCount + 1 else 1
  { d with rings := { d.rings with turnRing := n, turnCount := count } }

/-- After a whole turn the ring waits while another ring of its class is ready (R134). -/
def Dev.turnOver (d : Dev) (n : Nat) : Bool :=
  d.rings.turnRing = n && decide ((d.ring n).turns ≤ d.rings.turnCount) &&
  (List.range 256).any (fun k => !(k = n) && d.ringReady k && (d.ring k).priority = (d.ring n).priority)

/-- The 256 bytes of a mailbox slot (R871). -/
def Mailbox.slot (m : Mailbox) (i : Nat) : List Nat := (List.range 64).flatMap (fun k => leBytes 4 (Tab.get 0 m.slots (64 * i + k)))

/-- The next slot of ring n is fetched, from host memory or the mailbox, and its packet started in ring order; a bus error stops
the ring at that slot (R94, R131, R100). -/
def Dev.fetchSlot (n : Nat) (slot : Option (List Nat)) (d : Dev) : Dev :=
  let r := d.ring n
  if !d.ringReady n || !d.turnOf n || d.turnOver n then d
  else
    match (if r.source = 2 then some (d.sys.mbox.slot (r.head % 16)) else slot) with
    | none => d.modRing n (fun r => { r with fetchErr := true, stopped := true })
    | some b =>
      let d := (d.modRing n (fun r => { r with
        head := (r.head + 1) % 2 ^ 32, stalled := some (parsePacket n r.source b) })).takeTurn n
      Dev.drain n 2 d

/-- Do the rings' registers and logic run? -/
def Dev.ringsRun (d : Dev) : Bool := d.commandsRun && d.on 5

/-- A command of the ring logic. -/
def ringEvent (f : Dev → Dev) (s : State) : Host.Outcome State Fault Refusal :=
  if s.dev.ringsRun then .next (s.onDev f).settle else .next s

/-- RING_SLOT_FETCH (R131, R134). -/
def execRingSlotFetch (r : Nat) (slot : Option (List Nat)) : State → Host.Outcome State Fault Refusal :=
  ringEvent (Dev.fetchSlot r slot)

/-- The fetch of an indirect payload from host memory ends: its packet may execute, or completes with FETCH_ERROR (R187, R110). -/
def Dev.payloadFetched (ref : PktRef) (data : Option (List Nat)) (d : Dev) : Dev :=
  match d.packet? ref with
  | none => d
  | some p =>
    if !(p.phase = .payload) || !((d.ring p.ring).source = 0) then d
    else match data with
      | none => d.complete ref .fetchError 0 0
      | some b => d.modPacket ref (fun p => { p with
          phase := .started, payload := (List.range p.indirectLen).map (fun i => b.getD i 0 % 256) })

/-- INDIRECT_PAYLOAD_FETCH (R187). -/
def execIndirectPayloadFetch (r seq : Nat) (data : Option (List Nat)) : State → Host.Outcome State Fault Refusal :=
  ringEvent (Dev.payloadFetched (r, seq) data)

/-! ## Ring registers -/

/-- A write of RING_TAIL: a count of packets beyond the slots stops the ring with OVERRUN (R94). -/
def Dev.tailWrite (n v : Nat) (d : Dev) : Dev :=
  d.modRing n (fun r =>
    let past := r.enable && decide (r.slots < (v + 2 ^ 32 - r.head) % 2 ^ 32)
    { r with tail := v, overrun := r.overrun || past, stopped := r.stopped || past })

/-- A write of CQ_HEAD frees completion entries: a packet stalled by CQ_FULL starts (R95, R100). -/
def Dev.cqHeadWrite (n v : Nat) (d : Dev) : Dev :=
  let d := d.modRing n (fun r => { r with cqHead := v })
  if (d.ring n).enable then Dev.drain n (2 * (d.ring n).toStart.length + 2) d else d

/-- May a ring be enabled with these settings (R100)? -/
def Ring.configOk (r : Ring) (n : Nat) : Bool :=
  decide (4 ≤ r.log2Slots) && decide (r.log2Slots ≤ 16) && r.source ≠ 3 && (r.source ≠ 2 || (n = 0 && r.log2Slots = 4))

/-- Serving ring n starts; an Ethernet ring starts its transport afresh (R94, R156, R157). -/
def Dev.ringOn (n : Nat) (d : Dev) : Dev :=
  d.modRing n (fun r => { r with
    enable := true, active := true, disabling := false, stopped := false, stalled := none, toStart := [], ooo := [],
    cum := none, tseqNext := 0, unacked := [], ackCount := 0, peerLost := false, cqFull := false, fenceWait := false })

/-- Serving ring n ends: its parked packets complete with ABORTED, its started packets go on to their completions (R141). -/
def Dev.ringOff (n : Nat) (d : Dev) : Dev :=
  let d := d.modRing n (fun r => { r with
    enable := false, disabling := true, stalled := none, toStart := [], ooo := [], cqFull := false, fenceWait := false,
    trigFull := false })
  let parked := (d.rings.inflight.filter (fun p => p.ring = n && p.phase = .parked)).map Packet.ref
  (d.completeAll parked .aborted).settleRing n

/-- A write of RING_CTRL (R99, R100, R141). -/
def Dev.ringCtrlWrite (n v : Nat) (d : Dev) : Dev :=
  let was := (d.ring n).enable
  let d := if bits v 25 1 = 1 && !was then
      d.modRing n (fun r => { r with seqValid := false, window := [], windowOf := [] }) else d
  let d := d.modRing n (fun r => { r with
    log2Slots := bits v 0 5, source := bits v 6 2, priority := bits v 8 2, weight := bits v 16 8 })
  if bits v 24 1 = 1 then
    if was then d
    else if (d.ring n).configOk n then d.ringOn n
    else d.modRing n (fun r => { r with configErr := true })
  else if was then d.ringOff n else d

/-- RING_TAIL_WRITE (R94). -/
def execRingTailWrite (r : Nat) (value : BitVec 32) : State → Host.Outcome State Fault Refusal :=
  ringEvent (Dev.tailWrite r value.toNat)

/-- CQ_HEAD_WRITE (R95). -/
def execCqHeadWrite (r : Nat) (value : BitVec 32) : State → Host.Outcome State Fault Refusal :=
  ringEvent (Dev.cqHeadWrite r value.toNat)

/-- RING_ENABLE (R99, R100): a write of RING_CTRL with ENABLE 1. -/
def execRingEnable (r : Nat) (value : BitVec 32) : State → Host.Outcome State Fault Refusal :=
  ringEvent (Dev.ringCtrlWrite r (value ||| 0x1000000).toNat)

/-- RING_DISABLE (R141): a write of RING_CTRL with ENABLE 0. -/
def execRingDisable (r : Nat) (value : BitVec 32) : State → Host.Outcome State Fault Refusal :=
  ringEvent (Dev.ringCtrlWrite r (value &&& 0xFEFFFFFF).toNat)

/-- CLEAR_WINDOW (R99, R112): a write of RING_CTRL with CLEAR_WINDOW 1. -/
def execClearWindow (r : Nat) (value : BitVec 32) : State → Host.Outcome State Fault Refusal :=
  ringEvent (Dev.ringCtrlWrite r (value ||| 0x2000000).toNat)

/-- HOLDOFF after the first pending completion, its message is sent (R102). -/
def Dev.holdoffEnd (n : Nat) (d : Dev) : Dev :=
  let r := d.ring n
  if r.irqPendingCpl = 0 then d else (d.modRing n (fun r => { r with irqPendingCpl := 0 })).msix r.irqVector

/-- RING_IRQ_HOLDOFF_END (R102). -/
def execRingIrqHoldoffEnd (r : Nat) : State → Host.Outcome State Fault Refusal := ringEvent (Dev.holdoffEnd r)

/-! ## Report queues -/

/-- Held records are written as far as the queue takes them (R164, R142). -/
def Dev.pumpReports (st : Nat) (d : Dev) : Dev := d.flushReports st ((d.rptq st).held.length)

/-- A write of RPTQ_HEAD (R164). -/
def Dev.rptqHeadWrite (st v : Nat) (d : Dev) : Dev := (d.modRptq st (fun q => { q with head := v })).pumpReports st

/-- A write of RPTQ_CTRL (R163, R142). -/
def Dev.rptqCtrlWrite (st v : Nat) (d : Dev) : Dev :=
  (d.modRptq st (fun q => { q with log2 := bits v 0 5, enable := bits v 8 1 = 1, ethernet := bits v 9 1 = 1 })).pumpReports st

/-- RPTQ_HEAD_WRITE (R164). -/
def execRptqHeadWrite (st : Nat) (value : BitVec 32) : State → Host.Outcome State Fault Refusal :=
  ringEvent (Dev.rptqHeadWrite st value.toNat)

/-- RPTQ_ENABLE (R142): a write of RPTQ_CTRL with ENABLE 1. -/
def execRptqEnable (st : Nat) (value : BitVec 32) : State → Host.Outcome State Fault Refusal :=
  ringEvent (Dev.rptqCtrlWrite st (value ||| 0x100).toNat)

/-! ## Flomund over Ethernet -/

/-- The transport header of a datagram (R148). -/
structure Transport where
  version : Nat
  type : Nat
  ring : Nat
  addr : Nat
  seq : Nat
  offset : Nat
  crc : Nat
  deriving DecidableEq, Repr

/-- The header at the start of a UDP payload. -/
def transportOf (udp : List Nat) : Transport :=
  let h := leNat (udp.take 16)
  { version := bits h 0 4, type := bits h 4 4, ring := bits h 8 8, addr := bits h 16 12, seq := bits h 32 32, offset := bits h 64 32,
    crc := bits h 96 32 }

/-- Does the CRC of a UDP payload match, its field taken as zero (R148)? -/
def crcOk (udp : List Nat) : Bool := decide (16 ≤ udp.length) && (transportOf udp).crc = crc32 (udp.take 12 ++ [0, 0, 0, 0] ++ udp.drop 16)

/-- Is the datagram dropped and counted (R149)? -/
def Dev.dgramDropped (d : Dev) (udp : List Nat) : Bool :=
  let t := transportOf udp
  !crcOk udp || t.version ≠ 1 || t.type = 0 || decide (5 < t.type) || (d.ring t.ring).source ≠ 1 ||
  !(t.addr = 4095 || (d.sys.addrValid && t.addr = d.sys.addr))

/-- A datagram of a TYPE that is not dropped acts as f says (R149); rings that are not enabled take none. -/
def Dev.dgram (port type : Nat) (udp : List Nat) (f : Transport → Dev → Dev) (d : Dev) : Dev :=
  if d.dgramDropped udp then d.modEth port (fun e => { e with drops := satInc 32 e.drops })
  else
    let t := transportOf udp
    if t.type = type && d.serves t.ring then f t d else d

/-- Sequence number a is at or below b (R150, R154). -/
def seqLe (a b : Nat) : Bool := !later 32 a b

/-- WINDOW as advertised and used (R153). -/
def Dev.windowOf (d : Dev) (n : Nat) : Nat := min (max 1 (min 1024 d.rings.ethWindow)) (d.ring n).slots

/-- Contiguous payload bytes from offset 0 (R150). -/
def Bulk.contiguous (b : Bulk) (len : Nat) : Nat := ((List.range len).takeWhile (fun i => (b.get i).isSome)).length

/-- The oldest packet of ring n whose indirect payload is incomplete (R150). -/
def Dev.oldestBulk (d : Dev) (n : Nat) : Option Packet := d.rings.inflight.find? (fun p => p.ring = n && p.phase = .payload)

/-- An ACK: CUM, SACK, BULK_SEQ, BULK_BYTES, BULK_VALID and WINDOW (R150, R152). -/
def Dev.sendAck (n : Nat) (d : Dev) : Dev :=
  let r := d.ring n
  match r.cum with
  | none => d
  | some cum =>
    let sack := (r.ooo.map (fun p => 2 ^ ((p.seq + 2 ^ 32 - cum - 1) % 2 ^ 32 % 64))).foldl (· ||| ·) 0
    let bulk := match d.oldestBulk n with
      | none => [0, 0, 0]
      | some p =>
        let k := match d.rings.bulks.find? (fun b => b.ring = n && b.seq = p.seq) with
          | some b => b.contiguous p.indirectLen
          | none => 0
        [p.seq, k, 1]
    (d.modRing n (fun r => { r with ackCount := 0 })).send (.datagram 3 n ([cum, sack] ++ bulk ++ [d.windowOf n]))

/-- A CMD or BULK datagram has been received: an ACK goes out at once, after the sixteenth, or within 100 µs (R152). -/
def Dev.ackFor (n : Nat) (now : Bool) (d : Dev) : Dev :=
  let c := (d.ring n).ackCount + 1
  let d := d.modRing n (fun r => { r with ackCount := c })
  if now || 16 ≤ c then d.sendAck n else d

/-- A kept datagram leaves again (R158). -/
def Dev.resendOut (n : Nat) (o : EthOut) (d : Dev) : Dev := d.send (.datagram (if o.rpt then 5 else 4) n (o.tseq :: o.bytes))

/-- The host is heard on ring n from an address: a ring whose peer was lost resumes there (R157, R159). -/
def Dev.heard (n src : Nat) (d : Dev) : Dev :=
  let r := d.ring n
  let d := d.modRing n (fun r => { r with peer := some src })
  if !r.peerLost then d
  else
    let d := d.modRing n (fun r => { r with
      peerLost := false, unacked := r.unacked.map (fun o => { o with sends := 1, rtoMs := d.rings.rtoMs }) })
    forL r.unacked (fun o d => d.resendOut n o) d

/-- CMD packets held out of order that now follow CUM are passed to the ring (R151); fuel bounds them. -/
def Ring.takeNext : Nat → Ring → Ring
  | 0, r => r
  | fuel + 1, r =>
    match r.cum with
    | none => r
    | some c =>
      let next := (c + 1) % 2 ^ 32
      match r.ooo.find? (fun p => p.seq = next) with
      | none => r
      | some p => Ring.takeNext fuel { r with
          cum := some next, toStart := r.toStart ++ [p], ooo := r.ooo.filter (fun q => !(q.seq = next)) }

/-- May the device execute this packet over Ethernet: while VALID is 0, SYS_INFO and SYS_SET_ADDR broadcast alone (R145)? -/
def Dev.ethTakes (d : Dev) (p : Packet) : Bool :=
  d.sys.addrValid || ((p.op = 0x0002 || p.op = 0x0003) && p.dest = 4095)

/-- A CMD datagram (R151 to R156, R161): passed on in SEQ order, held out of order, dropped beyond the window, or acknowledged again
with its completion. -/
def Dev.cmdReceive (src : Nat) (udp : List Nat) (t : Transport) (d : Dev) : Dev :=
  let n := t.ring
  let p : Packet := { parsePacket n 1 (udp.drop 16) with seq := t.seq }
  let quiet := p.dest = 4095
  if !d.ethTakes p then d
  else
    let d := d.heard n src
    let d := d.modRing n (fun r => { r with cum := some (r.cum.getD ((t.seq + 2 ^ 32 - 1) % 2 ^ 32)) })
    let cum := (d.ring n).cum.getD 0
    let ack (now : Bool) (d : Dev) : Dev := if quiet then d else d.ackFor n now
    if seqLe t.seq cum then
      let d := ack true d
      match (d.ring n).unacked.find? (fun o => !o.rpt && o.item = t.seq) with
      | some o => d.resendOut n o
      | none => d
    else
      let dist := (t.seq + 2 ^ 32 - cum) % 2 ^ 32
      if d.windowOf n < dist then d
      else if dist = 1 then
        let gap := !(d.ring n).ooo.isEmpty
        let d := d.modRing n (fun r => Ring.takeNext (r.ooo.length + 1) { r with ooo := p :: r.ooo })
        ack gap (Dev.drain n (2 * (d.ring n).toStart.length + 2) d)
      else
        ack true (d.modRing n (fun r => if r.ooo.any (fun q => q.seq = t.seq) then r else { r with ooo := r.ooo ++ [p] }))

/-- ETH_CMD_RECEIVE (R151). -/
def execEthCmdReceive (port src : Nat) (udp : List Nat) : State → Host.Outcome State Fault Refusal :=
  inDomain 9 (fun d => if d.ringsRun then d.dgram port 1 udp (Dev.cmdReceive src udp) else d)

/-- Bytes of a BULK datagram by payload offset. -/
def bulkCells (offset : Nat) (b : List Nat) : List (Nat × Nat) := b.zipIdx.map (fun e => (offset + e.2, e.1))

/-- Is the packet of a BULK datagram an append whose first 16 payload bytes have arrived and name an OFFSET at or above the
object's fill level (R188)? -/
def Dev.bulkDirect (d : Dev) (n seq : Nat) (b : Bulk) : Bool :=
  match d.packet? (n, seq), (List.range 16).mapM b.get with
  | some p, some h =>
    p.op = 0x0301 &&
    (match d.objIndex (leNat (h.take 4)) with
     | some i => decide ((d.obj i).data.length ≤ leNat (h.drop 8))
     | none => false)
  | _, _ => false

/-- A packet whose payload is complete may execute (R155). -/
def Dev.bulkComplete (n seq : Nat) (d : Dev) : Dev :=
  match d.packet? (n, seq) with
  | none => d
  | some p =>
    if !(p.phase = .payload) then d
    else match d.bulkData (n, seq) p.indirectLen with
      | none => d
      | some b => d.modPacket (n, seq) (fun p => { p with phase := .started, payload := b })

/-- A BULK datagram (R155, R188 to R190): its data is placed or staged, or dropped without ACK when no slot is free or shedding
drops it; the data of a packet that has executed is not kept. -/
def Dev.bulkReceive (udp : List Nat) (t : Transport) (d : Dev) : Dev :=
  let n := t.ring
  let r := d.ring n
  let data := udp.drop 16
  if 2 ≤ d.sched.stage || !d.sys.addrValid then d
  else if !(t.offset % 8 = 0) || (if d.rings.jumbo then 8192 else 1408) < data.length then d
  else if r.cum.any (fun c => seqLe t.seq c) && (d.packet? (n, t.seq)).isNone &&
      !(r.toStart.any (fun p => p.seq = t.seq)) && !(r.stalled.any (fun p => p.seq = t.seq)) then d.ackFor n false
  else
    let old := (d.rings.bulks.find? (fun b => b.ring = n && b.seq = t.seq)).getD { Bulk.reset with ring := n, seq := t.seq }
    let direct := !old.slot && d.bulkDirect n t.seq old
    let needs := !old.slot && !direct
    if needs && 64 ≤ (d.rings.bulks.filter (·.slot)).length then
      { d with ing := { d.ing with stageDrops := satInc 32 d.ing.stageDrops } }
    else
      let b : Bulk := { old with cells := bulkCells t.offset data ++ old.cells, slot := old.slot || needs, direct := old.direct || direct }
      let d := d.dropBulk (n, t.seq)
      (({ d with rings := { d.rings with bulks := d.rings.bulks ++ [b] } }).bulkComplete n t.seq).ackFor n false

/-- ETH_BULK_RECEIVE (R188). -/
def execEthBulkReceive (port _src : Nat) (udp : List Nat) : State → Host.Outcome State Fault Refusal :=
  inDomain 9 (fun d => if d.ringsRun then d.dgram port 2 udp (Dev.bulkReceive udp) else d)

/-- A host ACK acknowledges the TSEQ numbers up to CUM and those of SACK (R150), and resumes a lost peer (R159). -/
def Dev.ackReceive (src : Nat) (udp : List Nat) (t : Transport) (d : Dev) : Dev :=
  let h := leNat ((udp.drop 16).take 32)
  let cum := bits h 0 32
  let acked (o : EthOut) : Bool :=
    seqLe o.tseq cum || (let k := (o.tseq + 2 ^ 32 - cum - 1) % 2 ^ 32; decide (k < 64) && bits h (64 + k) 1 = 1)
  (d.modRing t.ring (fun r => { r with unacked := r.unacked.filter (fun o => !acked o) })).heard t.ring src

/-- ETH_ACK_RECEIVE (R150, R159). -/
def execEthAckReceive (port src : Nat) (udp : List Nat) : State → Host.Outcome State Fault Refusal :=
  inDomain 9 (fun d => if d.ringsRun then d.dgram port 3 udp (Dev.ackReceive src udp) else d)

/-- ETH_ACK_TIMER (R152): an ACK that is due goes out. -/
def execEthAckTimer (r : Nat) : State → Host.Outcome State Fault Refusal :=
  inDomain 9 (fun d => if d.ringsRun && d.serves r && !((d.ring r).ackCount = 0) then d.sendAck r else d)

/-- A datagram has gone unacknowledged for its RTO: it is sent again with the RTO doubled, or after MAX_TRIES sends the peer is given
up (R158, R159). -/
def Dev.rtoExpire (n tseq : Nat) (d : Dev) : Dev :=
  let r := d.ring n
  match r.unacked.find? (fun o => o.tseq = tseq) with
  | none => d
  | some o =>
    if r.peerLost || !(r.source = 1) then d
    else if d.rings.maxTries ≤ o.sends then (d.modRing n (fun r => { r with peerLost := true })).raise 84 n
    else
      (d.modRing n (fun r => { r with unacked := r.unacked.map (fun q =>
        if q.tseq = tseq then { q with sends := q.sends + 1, rtoMs := min 64 (2 * q.rtoMs) } else q) })).resendOut n o

/-- ETH_RTO_EXPIRE (R158). -/
def execEthRtoExpire (r tseq : Nat) : State → Host.Outcome State Fault Refusal :=
  inDomain 9 (fun d => if d.ringsRun then d.rtoExpire r tseq else d)

/-- The completion of a broadcast SYS_INFO leaves in its one CPL, which takes no TSEQ (R162). -/
def Dev.infoReply (d : Dev) : Dev :=
  match d.rings.infoReplies with
  | [] => d
  | c :: rest => ({ d with rings := { d.rings with infoReplies := rest } }).send (.datagram 4 c.ring (0xFFFFFFFF :: c.bytes))

/-- SYS_INFO_BROADCAST_REPLY (R162). -/
def execSysInfoBroadcastReply : State → Host.Outcome State Fault Refusal := inDomain 9 Dev.infoReply

/-! ## SYS opcodes -/

/-- SYS_NOP carries nothing to check. -/
def chkSysNop (_ : Packet) (_ : Dev) : Option Status := none

/-- SYS_NOP (R118). -/
def runSysNop (p : Packet) (d : Dev) : Dev := d.complete p.ref .done 0 0

/-- SYS_NOP (R118). -/
def execSysNop (r seq : Nat) : State → Host.Outcome State Fault Refusal := opRow 0x0000 chkSysNop (onPkt runSysNop) r seq

/-- SYS_INFO carries nothing to check. -/
def chkSysInfo (_ : Packet) (_ : Dev) : Option Status := none

/-- SYS_INFO (R118). -/
def runSysInfo (p : Packet) (d : Dev) : Dev := d.complete p.ref .done (Config.sysUid % 2 ^ 64) d.sys.addr

/-- SYS_INFO (R118). -/
def execSysInfo (r seq : Nat) : State → Host.Outcome State Fault Refusal := opRow 0x0002 chkSysInfo (onPkt runSysInfo) r seq

/-- Checks of SYS_SET_ADDR (R119). -/
def chkSysSetAddr (p : Packet) (_ : Dev) : Option Status :=
  firstFail [(!p.resvOk [(9, 4, 52)], .malformed), (p.fld 8 0 12 = 4095, .badField)]

/-- SYS_SET_ADDR (R119, R143). -/
def runSysSetAddr (p : Packet) (d : Dev) : Dev :=
  if p.fld 0 0 64 = Config.sysUid % 2 ^ 64 then
    ({ d with sys := { d.sys with addr := p.fld 8 0 12, addrValid := true } }).complete p.ref .done 0 0
  else d.complete p.ref .doneEmpty 0 0

/-- SYS_SET_ADDR (R119). -/
def execSysSetAddr (r seq : Nat) : State → Host.Outcome State Fault Refusal :=
  opRow 0x0003 chkSysSetAddr (onPkt runSysSetAddr) r seq

/-- The parked packet a SYS_TRIG_CANCEL names. -/
def Packet.cancels (p : Packet) : PktRef := (p.fld 0 0 8, p.fld 4 0 32)

/-- Checks of SYS_TRIG_CANCEL (R120). -/
def chkSysTrigCancel (p : Packet) (d : Dev) : Option Status :=
  firstFail
    [(!p.resvOk [(1, 0, 24)], .malformed), (!((d.packet? p.cancels).any (fun q => q.phase = .parked)), .unknownId)]

/-- SYS_TRIG_CANCEL (R120). -/
def runSysTrigCancel (p : Packet) (d : Dev) : Dev := (d.complete p.cancels .aborted 0 0).complete p.ref .done 0 0

/-- SYS_TRIG_CANCEL (R120). -/
def execSysTrigCancel (r seq : Nat) : State → Host.Outcome State Fault Refusal :=
  opRow 0x0004 chkSysTrigCancel (onPkt runSysTrigCancel) r seq

/-! ## Barriers -/

/-- BARRIER_ID (R121). -/
def Packet.barrierId (p : Packet) : Nat := p.fld 0 0 32

/-- RING_MASK (R121). -/
def Packet.ringMask (p : Packet) : Nat := p.fld 8 0 256

/-- Checks of SYS_BARRIER (R121, R124). -/
def chkSysBarrier (p : Packet) (d : Dev) : Option Status :=
  let us := p.fld 4 0 32
  firstFail
    [(p.ringMask = 0, .doneEmpty),
     (!p.ringMask.testBit p.ring || us = 0 || decide (16000000 < us), .badField),
     (d.rings.inflight.any (fun q => q.op = 0x0001 && q.phase = .barrier && q.barrierId = p.barrierId &&
       !(q.ringMask = p.ringMask)), .barrierMismatch)]

/-- The barrier packets that wait with an identity. -/
def Dev.waitingAt (d : Dev) (id : Nat) : List Packet :=
  d.rings.inflight.filter (fun q => q.op = 0x0001 && q.phase = .barrier && q.barrierId = id)

/-- SYS_BARRIER: once every earlier packet of its ring has completed it waits; when every ring of RING_MASK waits with the same
identity, all these barriers complete (R122). -/
def runSysBarrier (p : Packet) (d : Dev) : Dev :=
  if (before p.ref d.rings.inflight).any (fun q => q.ring = p.ring) then d
  else
    let d := d.modPacket p.ref (fun q => { q with phase := .barrier })
    let l := d.waitingAt p.barrierId
    if (List.range 256).all (fun n => !p.ringMask.testBit n || l.any (fun q => q.ring = n)) then
      forL (l.map Packet.ref) (fun q d => d.complete q .done 0 0) d
    else d

/-- SYS_BARRIER (R122). -/
def execSysBarrier (r seq : Nat) : State → Host.Outcome State Fault Refusal :=
  opRow 0x0001 chkSysBarrier (onPkt runSysBarrier) r seq

/-- A barrier has waited TIMEOUT_US (R123). -/
def Dev.barrierTimeout (ref : PktRef) (d : Dev) : Dev :=
  if (d.packet? ref).any (fun p => p.phase = .barrier) then d.complete ref .timeout 0 0 else d

/-- BARRIER_TIMEOUT (R123). -/
def execBarrierTimeout (r seq : Nat) : State → Host.Outcome State Fault Refusal := ringEvent (Dev.barrierTimeout (r, seq))

end Sys2Proof.Machine
end

