-- ==== Sys2Proof/Machine/Time.lean ====
section
/-! DEFINITION. Press time (spec chapter 11): the three time bases, the IEEE 1588 servo, steps and slews, timed outputs,
capture inputs and the TIME commands. TB_2 counts 2^-16 ns; TB_0 and TB_1 count 2^-56 ns, so that an interval of TB_2
times (1 + y) is exact. -/

namespace Sys2Proof.Machine

/-- One nanosecond of TB_0 or TB_1. -/
def nsUnit : Int := 2 ^ 56

/-- TB_2 advances by n units of 2^-16 ns, and TB_0 and TB_1 by n × (1 + y) (R562, R563). -/
def Dev.advance (n : Nat) (d : Dev) : Dev :=
  let step (d : Dev) (k : Nat) : Dev := d.modTb k (fun b => { b with t := b.t + n * (2 ^ 40 + b.y) })
  let d := { d with time := { d.time with tb2 := d.time.tb2 + n } }
  step (step d 0) 1

/-- A step on an empty queue: one cycle of the 25 MHz REFCLK passes and nothing else happens (R563, log entry 23). -/
def idle (s : State) : State := if s.dev.sys.powered then s.onDev (Dev.advance (40 * 2 ^ 16)) else s

/-- The value of base k, 2^-56 ns, ago units of 2^-16 ns before the present (R593). -/
def Dev.tbAt (k ago : Nat) (d : Dev) : Int :=
  if k = 2 then ((d.time.tb2 : Int) - ago) * 2 ^ 40 else (d.tb k).t - ago * (2 ^ 40 + (d.tb k).y)

/-- A time of R9 in a payload, as 2^-56 ns: FRAC_NS at the byte given, NS two bytes on, SEC six bytes on. -/
def Packet.time (p : Packet) (byte : Nat) : Int :=
  ((p.fld (byte + 6) 0 48 * 1000000000 + p.fld (byte + 2) 0 32) * 2 ^ 16 + p.fld byte 0 16 : Nat) * 2 ^ 40

/-- Does a time of R9 in a payload break R10? -/
def Packet.timeBad (p : Packet) (byte : Nat) : Bool := decide (1000000000 ≤ p.fld (byte + 2) 0 32)

/-- n ppm in units of 2^-40 (R562). -/
def ppm (n : Int) : Int := roundOpen 1 (n * 2 ^ 40) 1000000

/-- The largest rate adjustment, 500 ppm, in units of 2^-40 (R562, R583). -/
def yMax : Int := 549755813

/-- STATE and CONVERGING of base k change: vector 7 at each change (R581), and FLT_TIME_HOLDOVER ends when the base leaves
HOLDOVER (R807). -/
def Dev.tbState (k : Nat) (st : TbSt) (conv : Bool) (d : Dev) : Dev :=
  let b := d.tb k
  let d := if b.st = .holdover && !(st = TbSt.holdover) then d.lower (86 + k) else d
  let d := d.modTb k (fun b => { b with st := st, conv := conv })
  if b.st = st && b.conv = conv then d else d.msix 7

/-- A parked packet starts: it takes its place behind the packets in progress (R137, R138). -/
def Dev.startParked (p : Packet) (d : Dev) : Dev :=
  { d with rings := { d.rings with
      inflight := d.rings.inflight.filter (fun q => !(q.ring = p.ring && q.seq = p.seq && q.phase = .parked)) ++
        [{ p with phase := .started, triggered := true }] } }

/-- Base k steps to a new value: TB_STEPS, STEPPED, FLT_TIME_STEP and vector 7 (R581); parked TIME packets passed over by
a forward step start (R140); outputs emit no edge for times passed over, and a ONCE edge passed over is missed (R590). -/
def Dev.stepTb (k : Nat) (t : Int) (d : Dev) : Dev :=
  let old := (d.tb k).t
  let d := d.modTb k (fun b => { b with t := t, steps := (b.steps + 1) % 2 ^ 32, stepped := true })
  let d := if old < t then
      let due := d.rings.inflight.filter (fun p => p.phase = .parked && p.trigKind = 1 && p.trigSrc = k &&
        decide ((p.trigValue : Int) ≤ t / nsUnit))
      let d := forL due (fun p d => d.startParked p) d
      forN 16 (fun n d => d.modTout n (fun o =>
        if o.cfg.base = k && o.cfg.mode = 1 && o.cfg.k = 0 && decide (old < o.cfg.start) && decide (o.cfg.start < t) then
          { o with missed := true, cfg := { o.cfg with k := 1 } }
        else if o.cfg.base = k && o.cfg.mode = 2 && decide (o.cfg.start + o.cfg.k * o.cfg.period * 2 ^ 40 < t) then
          { o with cfg := { o.cfg with
              k := ((t - o.cfg.start + o.cfg.period * 2 ^ 40 - 1) / (o.cfg.period * 2 ^ 40)).toNat } }
        else o)) d
    else d
  (d.raise (88 + k) 0).msix 7

/-- TB_k slews to remove the offset o (2^-16 ns) at n ppm (R580). -/
def Dev.slewTb (k : Nat) (o : Int) (n : Nat) (d : Dev) : Dev :=
  (d.modTb k (fun b => { b with
    remain := o, slew := n, y := b.yi - (if 0 < o then ppm n else if o < 0 then - ppm n else 0) })).tbState k (d.tb k).st true

/-! ## The servo -/

/-- Does a blocking action of base k lie within 100 ms of the value t (R578, R579)? -/
def Dev.blocking (k : Nat) (t : Int) (d : Dev) : Bool :=
  let near (x : Int) : Bool := decide (x - t ≤ 100000000 * nsUnit) && decide (t - x ≤ 100000000 * nsUnit)
  d.rings.inflight.any (fun p => p.phase = .parked && p.trigKind = 1 && p.trigSrc = k && near (p.trigValue * nsUnit)) ||
  (List.range 16).any (fun n => let c := (d.tout n).cfg
    c.mode = 1 && c.base = k && c.k = 0 && near c.start)

/-- The servo takes an offset o, 2^-16 ns, of base k from its master (R574, R575, R578, R580). -/
def Dev.servo (k : Nat) (o : Int) (d : Dev) : Dev :=
  let b := d.tb k
  let d := d.modTb k (fun b => { b with offset := clampI (roundOpen 2 o (2 ^ 16)) (-2 ^ 31) (2 ^ 31 - 1) })
  let mag : Int := if o < 0 then -o else o
  if (b.stepNs : Int) * 2 ^ 16 < mag then
    let after := b.t - o * 2 ^ 40
    if d.blocking k b.t || d.blocking k after then d.slewTb k o b.slewPpm
    else (d.stepTb k after).tbState k .acquiring false
  else if b.conv then d.slewTb k o b.slewPpm
  else
    let den : Int := 1000000000 * 2 ^ (b.logSync + 7).toNat
    let yi := clampI (b.yi - roundOpen 3 (b.ki * o * 2 ^ 23) den) (- yMax) yMax
    let y := clampI (yi - roundOpen 4 (b.kp * o * 2 ^ 23) den) (yi - ppm 100) (yi + ppm 100)
    let good := decide (mag ≤ (b.lockNs : Int) * 2 ^ 16)
    let run := if good then b.goodRun + 1 else 0
    let st : TbSt := if !good then .acquiring else if b.st = .locked then .locked
      else if 16 ≤ run && b.st = .acquiring then .locked else .acquiring
    (d.modTb k (fun b => { b with yi := yi, y := y, goodRun := if st = .locked then 16 else run })).tbState k st false

/-- The mean path delay base k uses, 2^-16 ns: mpd, or the ingress port's peer delay under P2P (R574). -/
def Dev.pathDelay (k port : Nat) (d : Dev) : Int :=
  if (d.tb k).p2p then (d.eth port).peer * 2 ^ 8 else (d.tb k).mpd * 2 ^ 8

/-- Does instance k take a message: enabled, its domain, well formed, version 2? -/
def Dev.ptpTakes (k : Nat) (m : PtpMsg) (d : Dev) : Bool :=
  (d.tb k).enable && m.wellFormed && m.version = 2 && m.domain = (d.tb k).domain

/-- Messages dropped as malformed or version 1 are counted (R566, R598). -/
def Dev.ptpDrop (port : Nat) (bad : Bool) (d : Dev) : Dev :=
  d.when bad (Dev.modEth port (fun e => { e with rxErrs := satInc 32 e.rxErrs }))

/-- Is the sender base k's selected master? -/
def Dev.fromMaster (k : Nat) (source : Nat) (d : Dev) : Bool :=
  match (d.tb k).master with
  | some l => l.getLast? = some source
  | none => false

/-- The effect of PTP_SYNC_RECEIVE (R574): the servo runs at once for a one-step Sync; a two-step Sync waits for its Follow_Up. -/
def Dev.onPtpSyncReceive (k port : Nat) (m : PtpMsg) (d : Dev) : Dev :=
  let d := d.ptpDrop port (!m.wellFormed || !(m.version = 2))
  if d.ptpTakes k m && d.fromMaster k m.source then
    let t2 := d.tbAt k m.ago / 2 ^ 40
    let corr := m.corr + (d.eth port).asym * 2 ^ 8
    let d := d.modTb k (fun b => { b with syncPort := port })
    if m.twoStep then d.modTb k (fun b => { b with syncWait := some (m.seq, t2, corr, port) })
    else
      let ms := t2 - m.stamp * 2 ^ 16 - corr
      (d.modTb k (fun b => { b with ms := ms, syncWait := none })).servo k (ms - d.pathDelay k port)
  else d

/-- PTP_SYNC_RECEIVE (R574). -/
def execPtpSyncReceive (k port : Nat) (m : PtpMsg) : State → Host.Outcome State Fault Refusal :=
  inDomain 9 (Dev.onPtpSyncReceive k port m)

/-- The effect of PTP_FOLLOW_UP_RECEIVE (R574). -/
def Dev.onPtpFollowUpReceive (k port : Nat) (m : PtpMsg) (d : Dev) : Dev :=
  let d := d.ptpDrop port (!m.wellFormed || !(m.version = 2))
  match (d.tb k).syncWait with
  | some (seq, t2, corr, ingress) =>
    if d.ptpTakes k m && d.fromMaster k m.source && m.seq = seq then
      let ms := t2 - m.stamp * 2 ^ 16 - corr - m.corr
      (d.modTb k (fun b => { b with ms := ms, syncWait := none })).servo k (ms - d.pathDelay k ingress)
    else d
  | none => d

/-- PTP_FOLLOW_UP_RECEIVE (R574). -/
def execPtpFollowUpReceive (k port : Nat) (m : PtpMsg) : State → Host.Outcome State Fault Refusal :=
  inDomain 9 (Dev.onPtpFollowUpReceive k port m)

/-- The effect of PTP_DELAY_RESP_RECEIVE (R574): mpd is the mean path delay, filtered exponentially with weight 1/16. -/
def Dev.onPtpDelayRespReceive (k port : Nat) (m : PtpMsg) (d : Dev) : Dev :=
  let d := d.ptpDrop port (!m.wellFormed || !(m.version = 2))
  let b := d.tb k
  match b.delayReq with
  | some (seq, t3) =>
    if d.ptpTakes k m && d.fromMaster k m.source && m.seq = seq && !b.p2p then
      let sm := m.stamp * 2 ^ 16 - t3 - m.corr - (d.eth port).asym * 2 ^ 8
      let new := roundOpen 5 (b.ms + sm) (2 ^ 9)
      let mpd := (b.mpd : Int) + roundOpen 6 (new - b.mpd) 16
      d.modTb k (fun b => { b with mpd := mpd.toNat, delayReq := none })
    else d
  | none => d

/-- PTP_DELAY_RESP_RECEIVE (R574). -/
def execPtpDelayRespReceive (k port : Nat) (m : PtpMsg) : State → Host.Outcome State Fault Refusal :=
  inDomain 9 (Dev.onPtpDelayRespReceive k port m)

/-- The effect of PTP_DELAY_REQ_RECEIVE (R565): a grandmaster instance answers with Delay_Resp carrying the ingress time-stamp. -/
def Dev.onPtpDelayReqReceive (k port : Nat) (m : PtpMsg) (d : Dev) : Dev :=
  let d := d.ptpDrop port (!m.wellFormed || !(m.version = 2))
  d.when (d.ptpTakes k m && (d.tb k).st = .grandmaster && !(d.tb k).p2p)
    (Dev.send (.ptp k 9 m.seq [d.tbAt k m.ago / nsUnit, m.corr, m.source]))

/-- PTP_DELAY_REQ_RECEIVE (R565). -/
def execPtpDelayReqReceive (k port : Nat) (m : PtpMsg) : State → Host.Outcome State Fault Refusal :=
  inDomain 9 (Dev.onPtpDelayReqReceive k port m)

/-- Does an enabled instance run peer-to-peer (R569, R572)? -/
def Dev.p2pMode (d : Dev) : Bool := ((d.tb 0).enable && (d.tb 0).p2p) || ((d.tb 1).enable && (d.tb 1).p2p)

/-- The peer delay of a port takes a new measurement, 2^-16 ns, filtered with weight 1/16 (R574). -/
def Dev.peerDelay (port : Nat) (x : Int) (d : Dev) : Dev :=
  d.modEth port (fun e =>
    { e with peer := ((e.peer : Int) + roundOpen 6 (roundOpen 5 x (2 ^ 8) - e.peer) 16).toNat, pdelay := none, pdResp := none })

/-- The effect of PTP_PDELAY_RECEIVE (R569): in peer-to-peer mode Pdelay messages end at the port: a request is answered, a response
updates the port's peer delay. -/
def Dev.onPtpPdelayReceive (port : Nat) (m : PtpMsg) (d : Dev) : Dev :=
  let bad := !m.wellFormed || !(m.version = 2)
  let d := d.ptpDrop port bad
  if bad || !d.p2pMode then d
  else
    let now := d.tbAt 0 m.ago / 2 ^ 40
    match m.type with
    | 2 => d.send (.ptp 0 3 m.seq [now, m.corr, m.source])
    | 3 =>
      match (d.eth port).pdelay with
      | some (seq, t1) =>
        if seq = m.seq then
          if m.twoStep then d.modEth port (fun e => { e with pdResp := some (seq, now, m.corr + m.stamp * 2 ^ 16) })
          else d.peerDelay port (roundOpen 5 (now - t1 - m.corr) 2)
        else d
      | none => d
    | 10 =>
      match (d.eth port).pdelay, (d.eth port).pdResp with
      | some (_, t1), some (seq, t4, t2) =>
        if seq = m.seq then d.peerDelay port (roundOpen 5 ((t4 - t1) - (m.stamp * 2 ^ 16 - t2) - m.corr) 2) else d
      | _, _ => d
    | _ => d

/-- PTP_PDELAY_RECEIVE (R569). -/
def execPtpPdelayReceive (port : Nat) (m : PtpMsg) : State → Host.Outcome State Fault Refusal :=
  inDomain 9 (Dev.onPtpPdelayReceive port m)

/-- Does data set a come before b in the default best master algorithm (IEEE 1588-2019 clause 9.3, PRESUMED, log entry 14)?
The lists hold priority1, class, accuracy, variance, priority2, grandmaster, steps removed, sender. -/
def betterMaster (a b : List Nat) : Bool :=
  if a.drop 5 |>.head? |> (fun x => x = (b.drop 5).head?) then decide (a.drop 6 < b.drop 6) else decide (a < b)

/-- The data set of this device's own instance k (R567, R571; accuracy and variance PRESUMED unknown, log entry 14). -/
def Dev.ownData (k : Nat) (d : Dev) : List Nat :=
  let b := d.tb k
  [b.prio1, b.clockClass, 0xFE, 0xFFFF, b.prio2, Config.sysUid, 0, Config.sysUid]

/-- Instance k takes a selection: its own device as grandmaster (R577), or a master. -/
def Dev.selectMaster (k : Nat) (best : Option (List Nat)) (d : Dev) : Dev :=
  let b := d.tb k
  let own := !b.slaveOnly && (match best with | none => true | some l => betterMaster (d.ownData k) l)
  if own then
    (d.modTb k (fun b => { b with master := none, gm := Config.sysUid, y := b.yi })).tbState k .grandmaster false
  else
    let d := d.modTb k (fun b => { b with master := best, gm := (best.bind (fun l => (l.drop 5).head?)).getD b.gm })
    if b.st = .grandmaster then d.tbState k .acquiring false else d

/-- The effect of PTP_ANNOUNCE_RECEIVE (R577). -/
def Dev.onPtpAnnounceReceive (k port : Nat) (a : Announce) (d : Dev) : Dev :=
  let bad := !a.wellFormed || !(a.version = 2)
  let d := d.ptpDrop port bad
  let b := d.tb k
  if bad || !b.enable || !(a.domain = b.domain) then d
  else
    let new := [a.prio1, a.clockClass, a.accuracy, a.variance, a.prio2, a.gm, a.stepsRemoved, a.source]
    let best := match b.master with
      | none => new
      | some l => if l.getLast? = some a.source || betterMaster new l then new else l
    d.selectMaster k (some best)

/-- PTP_ANNOUNCE_RECEIVE (R577). -/
def execPtpAnnounceReceive (k port : Nat) (a : Announce) : State → Host.Outcome State Fault Refusal :=
  inDomain 9 (Dev.onPtpAnnounceReceive k port a)

/-- Base k enters HOLDOVER: y = yi and FLT_TIME_HOLDOVER (R576). -/
def Dev.holdover (k : Nat) (d : Dev) : Dev :=
  ((d.modTb k (fun b => { b with y := b.yi, goodRun := 0, syncWait := none })).tbState k .holdover false).raise (86 + k) 0

/-- PTP_SYNC_TIMEOUT (R576). -/
def execPtpSyncTimeout (k : Nat) : State → Host.Outcome State Fault Refusal :=
  inDomain 9 fun d => d.when ((d.tb k).enable && !((d.tb k).st = .grandmaster)) (Dev.holdover k)

/-- The effect of PTP_ANNOUNCE_TIMEOUT (R576, R577): HOLDOVER; with no master left, a master-capable instance is the best master. -/
def Dev.onPtpAnnounceTimeout (k : Nat) (d : Dev) : Dev :=
  if (d.tb k).enable && !((d.tb k).st = .grandmaster) then (d.holdover k).selectMaster k none else d

/-- PTP_ANNOUNCE_TIMEOUT (R576, R577). -/
def execPtpAnnounceTimeout (k : Nat) : State → Host.Outcome State Fault Refusal :=
  inDomain 9 (Dev.onPtpAnnounceTimeout k)

/-- The effect of PTP_MESSAGE_SEND (R577): as grandmaster the instance sends Sync (0) and Announce (11); otherwise its delay requests,
Delay_Req (1), or Pdelay_Req (2) under P2P. -/
def Dev.onPtpMessageSend (k type : Nat) (d : Dev) : Dev :=
  let b := d.tb k
  let now := d.tbAt k 0 / 2 ^ 40
  let bump (d : Dev) : Dev := d.modTb k (fun b => { b with seq := (b.seq + 1) % 2 ^ 16 })
  if !b.enable then d
  else if b.st = .grandmaster && (type = 0 || type = 11) then
    let d := d.send (.ptp k type b.seq (if type = 0 then [now / 2 ^ 16, b2n b.twoStep] else (d.ownData k).map (fun n => (n : Int))))
    bump (if type = 0 && b.twoStep then d.send (.ptp k 8 b.seq [now / 2 ^ 16]) else d)
  else if type = 1 && !b.p2p && !(b.st = .grandmaster) then
    bump ((d.modTb k (fun b => { b with delayReq := some (b.seq, now) })).send (.ptp k 1 b.seq []))
  else if type = 2 && b.p2p then
    let mark (d : Dev) (e : Nat) : Dev := d.modEth e (fun x => { x with pdelay := some (b.seq, d.tbAt 0 0 / 2 ^ 40) })
    bump ((mark (mark d 0) 1).send (.ptp k 2 b.seq []))
  else d

/-- PTP_MESSAGE_SEND (R577). -/
def execPtpMessageSend (k type : Nat) : State → Host.Outcome State Fault Refusal :=
  inDomain 9 (Dev.onPtpMessageSend k type)

/-- The effect of PTP_EVENT_RELAY (R569): the residence time, scaled by (1 + y_0), is added to the correction of a version 2 event
message passed to the other port, with the ingress port's peer delay for Sync in peer-to-peer mode. -/
def Dev.onPtpEventRelay (port : Nat) (m : PtpMsg) (residence : Nat) (d : Dev) : Dev :=
  let bad := !m.wellFormed || !(m.version = 2)
  let d := d.ptpDrop port bad
  if bad || (d.p2pMode && (m.type = 2 || m.type = 3 || m.type = 10)) then d
  else
    let res := roundOpen 7 (residence * (2 ^ 40 + (d.tb 0).y)) (2 ^ 40)
    let peer := if d.p2pMode && m.type = 0 then ((d.eth port).peer : Int) * 2 ^ 8 else 0
    (d.modEth port (fun e => { e with resMax := max e.resMax (residence / 2 ^ 16) })).send
      (.relay (1 - port) (m.corr + res + peer) [m.type, m.seq])

/-- PTP_EVENT_RELAY (R569). -/
def execPtpEventRelay (port : Nat) (m : PtpMsg) (residence : Nat) : State → Host.Outcome State Fault Refusal :=
  inDomain 9 (Dev.onPtpEventRelay port m residence)

/-- ETH_FRAME_RELAY (R570). -/
def execEthFrameRelay (port : Nat) (_multicast : Bool) (bytes : List Nat) : State → Host.Outcome State Fault Refusal :=
  inDomain 9 fun d => d.send (.relay (1 - port) 0 bytes)

/-- The effect of ETH_LINK_CHANGE (R576): when both ports have lost link, each enabled base enters HOLDOVER. -/
def Dev.onEthLinkChange (port : Nat) (up : Bool) (d : Dev) : Dev :=
  let d := d.modEth port (fun e => { e with link := up })
  if (d.eth 0).link || (d.eth 1).link then d
  else
    let h (k : Nat) (d : Dev) : Dev := d.when ((d.tb k).enable && !up) (Dev.holdover k)
    h 1 (h 0 d)

/-- ETH_LINK_CHANGE (R576). -/
def execEthLinkChange (port : Nat) (up : Bool) : State → Host.Outcome State Fault Refusal :=
  inDomain 9 (Dev.onEthLinkChange port up)

/-- The effect of TIME_SLEW_END (R580): the remainder is removed; CONVERGING clears and a disciplined base enters ACQUIRING. -/
def Dev.onTimeSlewEnd (k : Nat) (d : Dev) : Dev :=
  let b := d.tb k
  if b.conv then
    (d.modTb k (fun b => { b with y := b.yi, remain := 0, goodRun := 0 })).tbState k
      (if b.st = .host then .host else .acquiring) false
  else d

/-- TIME_SLEW_END (R580). -/
def execTimeSlewEnd (k : Nat) : State → Host.Outcome State Fault Refusal := inDomain 9 (Dev.onTimeSlewEnd k)

/-! ## Commands -/

/-- Instance k restarts: its base in HOLDOVER, its master and measurements forgotten (R573). -/
def Dev.restartPtp (k : Nat) (d : Dev) : Dev :=
  (d.modTb k (fun b => { b with
    y := b.yi, goodRun := 0, syncWait := none, delayReq := none, master := none })).tbState k .holdover false

/-- The checks of TIME_CONFIG_PTP (R571, R572). -/
def chkTimeConfigPtp (p : Packet) (d : Dev) : Option Status :=
  let o := d.tb (1 - p.target)
  firstFail [
    (!p.resvOk [(0, 6, 2), (9, 0, 8), (21, 0, 24)], .malformed),
    (p.fld 0 2 2 = 3 || 127 < p.fld 1 0 8 || p.sfld 5 0 8 < -7 || 1 < p.sfld 5 0 8 || p.sfld 6 0 8 < -3 ||
      4 < p.sfld 6 0 8 || p.sfld 7 0 8 < -7 || 5 < p.sfld 7 0 8 || p.fld 8 0 8 < 2 || 10 < p.fld 8 0 8 ||
      p.fld 10 0 16 = 0 || p.fld 12 0 16 = 0 || p.fld 14 0 16 = 0 || p.fld 16 0 32 = 0 ||
      1000000000 < p.fld 16 0 32 || p.fld 20 0 8 = 0 || 100 < p.fld 20 0 8, .badField),
    (o.enable && (o.domain = p.fld 1 0 8 || !(o.p2p = p.flag 0 1)), .badField)]

/-- The effect of TIME_CONFIG_PTP (R571, R573). -/
def runTimeConfigPtp (p : Packet) (d : Dev) : Dev :=
  let k := p.target
  let d := d.modTb k (fun b => { b with
    enable := p.flag 0 0, p2p := p.flag 0 1, transport := p.fld 0 2 2, twoStep := p.flag 0 4, slaveOnly := p.flag 0 5,
    domain := p.fld 1 0 8, prio1 := p.fld 2 0 8, prio2 := p.fld 3 0 8, clockClass := p.fld 4 0 8,
    logSync := p.sfld 5 0 8, logAnnounce := p.sfld 6 0 8, logDelay := p.sfld 7 0 8, annTimeout := p.fld 8 0 8,
    kp := p.fld 10 0 16, ki := p.fld 12 0 16, lockNs := p.fld 14 0 16, stepNs := p.fld 16 0 32,
    slewPpm := p.fld 20 0 8 })
  let d := if p.flag 0 0 then d.restartPtp k
    else (d.modTb k (fun b => { b with y := b.yi })).tbState k .host false
  d.complete p.ref .done 0 0

/-- TIME_CONFIG_PTP. -/
def execTimeConfigPtp (r seq : Nat) : State → Host.Outcome State Fault Refusal :=
  opRow 0x0800 chkTimeConfigPtp (onPkt runTimeConfigPtp) r seq

/-- The checks of TIME_SET (R582, R10). -/
def chkTimeSet (p : Packet) (d : Dev) : Option Status :=
  firstFail [(!p.resvOk [(12, 0, 32)] || p.timeBad 0, .malformed), ((d.tb p.target).enable, .refused)]

/-- The effect of TIME_SET: a step to the time given (R582). -/
def runTimeSet (p : Packet) (d : Dev) : Dev := (d.stepTb p.target (p.time 0)).complete p.ref .done 0 0

/-- TIME_SET. -/
def execTimeSet (r seq : Nat) : State → Host.Outcome State Fault Refusal :=
  opRow 0x0801 chkTimeSet (onPkt runTimeSet) r seq

/-- The checks of TIME_ADJUST (R583). -/
def chkTimeAdjust (p : Packet) (d : Dev) : Option Status :=
  let setOff := p.flag 0 1
  firstFail [
    (!p.resvOk [(0, 2, 6), (2, 0, 16), (13, 0, 24)], .malformed),
    ((if setOff then p.fld 1 0 8 = 0 || 100 < p.fld 1 0 8 else !(p.fld 1 0 8 = 0)) ||
      (!setOff && !(p.fld 8 0 40 = 0)) || (!p.flag 0 0 && !(p.fld 4 0 32 = 0)) || p.sfld 4 0 32 < - yMax ||
      yMax < p.sfld 4 0 32, .badField),
    ((d.tb p.target).enable, .refused),
    (!p.flag 0 0 && !setOff, .doneEmpty)]

/-- The effect of TIME_ADJUST: yi and y take RATE; the base slews by OFFSET (R583). -/
def runTimeAdjust (p : Packet) (d : Dev) : Dev :=
  let k := p.target
  let d := d.when (p.flag 0 0) (Dev.modTb k (fun b => { b with yi := p.sfld 4 0 32, y := p.sfld 4 0 32 }))
  let d := d.when (p.flag 0 1 && !(p.sfld 8 0 40 = 0)) (Dev.slewTb k (- p.sfld 8 0 40 * 2 ^ 16) (p.fld 1 0 8))
  d.complete p.ref .done 0 0

/-- TIME_ADJUST. -/
def execTimeAdjust (r seq : Nat) : State → Host.Outcome State Fault Refusal :=
  opRow 0x0802 chkTimeAdjust (onPkt runTimeAdjust) r seq

/-- The checks of TIME_TOUT_CONFIG (R586, R588). -/
def chkTimeToutConfig (p : Packet) (d : Dev) : Option Status :=
  let mode := p.fld 0 0 2
  let per := p.fld 24 0 48
  let width := p.fld 4 0 32
  firstFail [
    (!p.resvOk [(0, 5, 3), (1, 0, 24), (20, 0, 32), (30, 0, 16)] || p.timeBad 8, .malformed),
    (mode = 3 || p.fld 0 2 2 = 3 || (mode = 0 && !(leNat p.payload = 0)) ||
      (mode = 1 && (width < 8 || !(per = 0))) ||
      (mode = 2 && (per < 32 * 2 ^ 16 || 4294967295 * 2 ^ 16 < per || width < 8 ||
        per < (width + 8) * 2 ^ 16)), .badField),
    (mode = 1 && decide (p.time 8 < d.tbAt (p.fld 0 2 2) 0 + 1000 * nsUnit), .late)]

/-- The lowest k whose edge time START + k × PERIOD is not before t (R588). -/
def firstEdge (start period t : Int) : Nat :=
  if t ≤ start then 0 else ((t - start + period * 2 ^ 40 - 1) / (period * 2 ^ 40)).toNat

/-- The effect of TIME_TOUT_CONFIG (R586 to R589). -/
def runTimeToutConfig (p : Packet) (d : Dev) : Dev :=
  let n := p.target
  let mode := p.fld 0 0 2
  let base := p.fld 0 2 2
  let now := d.tbAt base 0
  let o := d.tout n
  let from' := if o.cfg.mode = 0 then now else now + 1000 * nsUnit
  let cfg : ToutCfg := { mode := mode, base := base, invert := p.flag 0 4, width := p.fld 4 0 32, start := p.time 8,
                         period := p.fld 24 0 48,
                         k := if mode = 2 then firstEdge (p.time 8) (p.fld 24 0 48) from' else 0 }
  let d := d.modTout n (fun o => { o with
    old := if o.cfg.mode = 0 then none else some (o.cfg, d.ns + 1000), cfg := cfg, active := o.active && !(mode = 0) })
  let d := d.when (mode = 0) (Dev.pin .tout n false)
  d.complete p.ref .done 0 0

/-- TIME_TOUT_CONFIG. -/
def execTimeToutConfig (r seq : Nat) : State → Host.Outcome State Fault Refusal :=
  opRow 0x0803 chkTimeToutConfig (onPkt runTimeToutConfig) r seq

/-- The checks of TIME_TIN_CONFIG (R592). -/
def chkTimeTinConfig (p : Packet) (_ : Dev) : Option Status :=
  firstFail [(!p.resvOk [(0, 2, 6), (2, 0, 16)], .malformed)]

/-- The effect of TIME_TIN_CONFIG (R592). -/
def runTimeTinConfig (p : Packet) (d : Dev) : Dev :=
  (d.modTin p.target (fun t => { t with edge := p.fld 0 0 2, filterNs := p.fld 1 0 8 })).complete p.ref .done 0 0

/-- TIME_TIN_CONFIG. -/
def execTimeTinConfig (r seq : Nat) : State → Host.Outcome State Fault Refusal :=
  opRow 0x0804 chkTimeTinConfig (onPkt runTimeTinConfig) r seq

/-- TIME_READ has no checks of its own. -/
def chkTimeRead (_ : Packet) (_ : Dev) : Option Status := none

/-- The effect of TIME_READ (R584). -/
def runTimeRead (p : Packet) (d : Dev) : Dev :=
  let t := d.tbAt p.target 0
  d.complete p.ref .done (twos 64 (t / nsUnit)) (twos 16 (t / 2 ^ 40))

/-- TIME_READ. -/
def execTimeRead (r seq : Nat) : State → Host.Outcome State Fault Refusal :=
  opRow 0x0805 chkTimeRead (onPkt runTimeRead) r seq

/-- The checks of TIME_REINIT (R585). -/
def chkTimeReinit (p : Packet) (d : Dev) : Option Status := firstFail [((d.tb p.target).st = .host, .doneEmpty)]

/-- The effect of TIME_REINIT (R585). -/
def runTimeReinit (p : Packet) (d : Dev) : Dev := (d.restartPtp p.target).complete p.ref .done 0 0

/-- TIME_REINIT. -/
def execTimeReinit (r seq : Nat) : State → Host.Outcome State Fault Refusal :=
  opRow 0x08FF chkTimeReinit (onPkt runTimeReinit) r seq

/-! ## Outputs, inputs, triggers, snapshots -/

/-- The time of the next edge of a configuration, 2^-56 ns of its base (R587). -/
def ToutCfg.next (c : ToutCfg) : Int := c.start + c.k * c.period * 2 ^ 40

/-- Has a configuration an edge to emit that is due at the value t? -/
def ToutCfg.due (c : ToutCfg) (t : Int) : Bool :=
  (c.mode = 2 || (c.mode = 1 && c.k = 0)) && decide (c.next ≤ t)

/-- The effect of TOUT_EDGE (R587, R589): an edge that is due is emitted; an edge of a replaced configuration within its last 1 µs comes
first. -/
def Dev.onToutEdge (n : Nat) (d : Dev) : Dev :=
  let o := d.tout n
  let emit (inv : Bool) (d : Dev) : Dev :=
    (d.modTout n (fun o => { o with active := true, edges := (o.edges + 1) % 2 ^ 32 })).pin .tout n (!inv)
  let new (d : Dev) : Dev :=
    if o.cfg.due (d.tbAt o.cfg.base 0) then
      emit o.cfg.invert (d.modTout n (fun o => { o with cfg := { o.cfg with k := o.cfg.k + 1 }, old := none }))
    else d
  match o.old with
  | some (c, until_) =>
    if c.due (d.tbAt c.base 0) && decide (d.ns ≤ until_) then
      emit c.invert (d.modTout n (fun o => { o with old := some ({ c with k := c.k + 1 }, until_) }))
    else new d
  | none => new d

/-- TOUT_EDGE (R587, R589). -/
def execToutEdge (n : Nat) : State → Host.Outcome State Fault Refusal := inDomain 9 (Dev.onToutEdge n)

/-- The effect of TOUT_PULSE_END (R587): the output returns to its inactive level. -/
def Dev.onToutPulseEnd (n : Nat) (d : Dev) : Dev :=
  if (d.tout n).active then
    (d.modTout n (fun o => { o with active := false })).pin .tout n (d.tout n).cfg.invert
  else d

/-- TOUT_PULSE_END (R587). -/
def execToutPulseEnd (n : Nat) : State → Host.Outcome State Fault Refusal := inDomain 9 (Dev.onToutPulseEnd n)

/-- The effect of TIN_EDGE (R593, R594): a selected edge far enough from the last is recorded on the three bases at one instant; on a full
queue it is discarded with OVERFLOW and FLT_TIN_OVERFLOW. -/
def Dev.onTinEdge (i : Nat) (rising : Bool) (ago : Nat) (d : Dev) : Dev :=
  let t := d.tin i
  let now := d.time.tb2 - ago
  let selected := if rising then t.edge % 2 = 1 else t.edge / 2 = 1
  let apart := match t.last with
    | none => true
    | some l => decide (max 40 (t.filterNs + 8) * 2 ^ 16 ≤ now - l)
  if !(selected && apart) then d
  else if 16 ≤ t.queue.length then (d.modTin i (fun t => { t with overflow := true, last := some now })).raise 85 0
  else
    let rec' : TinRec := { tb0 := d.tbAt 0 ago / 2 ^ 40, tb1 := d.tbAt 1 ago / 2 ^ 40, tb2 := now, edge := if rising then 1 else 2 }
    (d.modTin i (fun t => { t with queue := t.queue ++ [rec'], last := some now })).msix 6

/-- TIN_EDGE (R593, R594). -/
def execTinEdge (i : Nat) (rising : Bool) (ago : Nat) : State → Host.Outcome State Fault Refusal :=
  inDomain 9 (Dev.onTinEdge i rising ago)

/-- Popping a TIN queue by a write of 1 (R597). -/
def Dev.popTin (i v : Nat) (d : Dev) : Dev :=
  d.when (v.testBit 0) (Dev.modTin i (fun t => { t with queue := t.queue.drop 1 }))

/-- Writing SNAP latches the three bases at one instant (R598). -/
def Dev.snapshot (w : Nat) (d : Dev) : Dev :=
  let v (k : Nat) : Nat × Nat × Nat :=
    let t := d.tbAt k 0
    (twos 48 (t / nsUnit / 1000000000), (t / nsUnit % 1000000000).toNat, twos 16 (t / 2 ^ 40))
  d.when (w.testBit 0) (fun d => { d with time := { d.time with
    snap := Tab.set 2 (v 2) (Tab.set 1 (v 1) (Tab.set 0 (v 0) d.time.snap)) } })

/-- TIN_POP (R598): writing 1 removes the oldest record. -/
def execTinPop (i : Nat) (value : BitVec 32) : State → Host.Outcome State Fault Refusal :=
  inDomain 9 (Dev.popTin i value.toNat)

/-- TIME_SNAP (R598): writing SNAP latches the three bases at one instant. -/
def execTimeSnap (value : BitVec 32) : State → Host.Outcome State Fault Refusal :=
  inDomain 9 (Dev.snapshot value.toNat)

/-- The effect of TIME_TRIGGER_DUE (R137, R595): a parked TIME packet starts once its base has reached TRIG_VALUE. -/
def Dev.onTimeTriggerDue (r seq : Nat) (d : Dev) : Dev :=
  match d.packet? (r, seq) with
  | none => d
  | some p =>
    if p.phase = .parked && p.trigKind = 1 && d.trigPassed p then d.startParked p else d

/-- TIME_TRIGGER_DUE (R137, R595). -/
def execTimeTriggerDue (r seq : Nat) : State → Host.Outcome State Fault Refusal :=
  inDomain 5 (Dev.onTimeTriggerDue r seq)

end Sys2Proof.Machine
end

