-- ==== Sys2Proof/Machine/RegWrite.lean ====
section
/-! DEFINITION. Writes and reading side effects of the registers of BAR0 (R13 to R16, and the register tables of every chapter). -/

namespace Sys2Proof.Machine

/-- A W1C flag after v is written with its bit (R13). -/
def w1c (v bit : Nat) (x : Bool) : Bool := x && !v.testBit bit

/-- A 4 KiB aligned address register's low word: [11:0] are reserved (R98, R163, R285). -/
def page (v : Nat) : Nat := v / 4096 * 4096

/-! ## Blocks -/

/-- A write of a register of the SYS block but the table aperture (R871, R803, R143, R144, R167, R168). -/
def Dev.writeSys (o v : Nat) (d : Dev) : Dev :=
  let x := d.sys
  let pend (half : Nat) : Nat := x.irqPending - (x.irqPending &&& (v * 2 ^ (32 * half)))
  match o with
  | 0x0020 => if bits v 0 12 = 4095 then d else { d with sys := { x with addr := bits v 0 12, addrValid := true } }
  | 0x0100 => { d with sys := { x with irqPending := pend 0 } }
  | 0x0104 => { d with sys := { x with irqPending := pend 1 } }
  | 0x0108 => { d with sys := { x with irqMask := v + 2 ^ 32 * word 1 x.irqMask } }
  | 0x010C => { d with sys := { x with irqMask := word 0 x.irqMask + 2 ^ 32 * v } }
  | 0x0208 => d.bootGo v
  | 0x020C => { d with sys := { x with bootImgLo := v } }
  | 0x0210 => { d with sys := { x with bootImgHi := v } }
  | 0x0214 => { d with sys := { x with bootImgLen := bits v 0 23 } }
  | 0x0300 => { d with sys := { x with writeLock := v.testBit 0, misoDrive := bits v 1 2 } }
  | 0x0310 => { d with sys := { x with tableBase := bits v 12 16 } }
  | _ =>
    match unitOf o 0x4000 4 1024 with
    | some (i, _) => { d with sys := { x with mbox := { x.mbox with
        slots := if v = 0 then Tab.erase i x.mbox.slots else Tab.set i v x.mbox.slots } } }
    | none => d

/-- A write of a register of ring n (R98 to R101). -/
def Dev.writeRing (n o v : Nat) (d : Dev) : Dev :=
  match o with
  | 0x00 => d.modRing n (fun r => { r with baseLo := page v })
  | 0x04 => d.modRing n (fun r => { r with baseHi := v })
  | 0x08 => d.ringCtrlWrite n v
  | 0x0C => d.tailWrite n v
  | 0x14 => d.modRing n (fun r => { r with cqBaseLo := page v })
  | 0x18 => d.modRing n (fun r => { r with cqBaseHi := v })
  | 0x1C => d.cqHeadWrite n v
  | 0x24 => d.modRing n (fun r => { r with
      overrun := w1c v 5 r.overrun, configErr := w1c v 6 r.configErr, fetchErr := w1c v 7 r.fetchErr })
  | 0x28 => d.modRing n (fun r => { r with irqVector := bits v 0 6, irqCount := bits v 8 8, holdoff := bits v 16 16 })
  | _ => d

/-- A write of a register of the RING block (R98, R160, R163). -/
def Dev.writeRings (o v : Nat) (d : Dev) : Dev :=
  match unitOf o 0 0x80 256 with
  | some (n, x) => d.writeRing n x v
  | none => match unitOf o 0x9000 0x40 4 with
    | some (s, x) =>
      (match x with
       | 0x00 => d.modRptq s (fun q => { q with baseLo := page v })
       | 0x04 => d.modRptq s (fun q => { q with baseHi := v })
       | 0x08 => d.rptqCtrlWrite s v
       | 0x0C => d.rptqHeadWrite s v
       | _ => d)
    | none =>
      if o = 0x8000 then { d with rings := { d.rings with udpPort := bits v 0 16 } }
      else if o = 0x8004 then { d with rings := { d.rings with
        ethWindow := bits v 0 11, jumbo := v.testBit 11, rtoMs := bits v 16 8, maxTries := bits v 24 4 } }
      else d

/-- A write of a register of the DMA block but DMA_CTRL (R218 to R221); channels 28 to 31 discard it (R193). -/
def Dev.writeDma (o v : Nat) (d : Dev) : Dev :=
  match unitOf o 0x1000 0x100 28 with
  | some (c, x) =>
    (match unitOf x 0 4 12 with
     | some (k, _) => d.dmaShadow c k v
     | none =>
       if x = 0x44 then d.modChan c (fun q => { q with
         shadowDropped := w1c v 6 q.shadowDropped, writeIgnored := w1c v 7 q.writeIgnored })
       else d)
  | none => if o = 0 then { d with ing := { d.ing with dmaDone := d.ing.dmaDone - (d.ing.dmaDone &&& v) } } else d

/-- A write of a register of the CODEC block (R283 to R285): VALID releases the latch. -/
def Dev.writeCodec (o v : Nat) (d : Dev) : Dev :=
  match unitOf o 0x0100 0x40 4 with
  | some (s, x) =>
    (match x with
     | 0x00 => d.modCapq s (fun q => { q with baseLo := page v })
     | 0x04 => d.modCapq s (fun q => { q with baseHi := v })
     | 0x08 => d.modCapq s (fun q => { q with log2 := bits v 0 5, enable := v.testBit 8 })
     | 0x0C => d.modCapq s (fun q => { q with head := v })
     | _ => d)
  | none =>
    if o = 0 then { d with codec := { d.codec with
      errOverflow := w1c v 30 d.codec.errOverflow, errValid := w1c v 31 d.codec.errValid } }
    else d

/-- A write of a register of the SCR block (R335, R337). -/
def Dev.writeScr (o v : Nat) (d : Dev) : Dev :=
  match o with
  | 0x0000 => d.writeLaneMap v
  | 0x0004 => { d with scr := { d.scr with laneMapRefused := w1c v 0 d.scr.laneMapRefused } }
  | _ =>
    match unitOf o 0x0100 0x40 4 with
    | some (s, x) => if x = 0x10 then d.modSst s (fun q => { q with phaseCross := bits v 0 8, phaseWeb := bits v 8 8 }) else d
    | none => match unitOf o 0x0200 0x10 16 with
      | some (n, x) => if x = 8 then d.modDropMap n (fun m => { m with clamped := w1c v 1 m.clamped }) else d
      | none => d

/-- A write of NOZ_DL_CTRL, discarded while any stream is configured or while it needs a bank that is not HOME (R386, R721). -/
def Dev.writeNoz (o v : Nat) (d : Dev) : Dev :=
  if !(o = 0) || (List.range 4).any (fun s => (d.nst s).configured) || (v.testBit 0 && !d.atHome 2) then d
  else { d with noz := { d.noz with shortExtra := v.testBit 0 } }

/-- A write of a register of the FIRE block (R438, R440); a function reset of the unit in progress discards it (R16). -/
def Dev.writeFire (o v : Nat) (d : Dev) : Dev :=
  if !d.fire.reinits.isEmpty then d
  else if o = 0x10 then { d with fire := { d.fire with failedOver := w1c v 5 d.fire.failedOver } }
  else match unitOf o 0x0100 0x40 2 with
    | some (e, x) =>
      if x = 0x0C then d.modEnc e (fun q => { q with
        los := w1c v 1 q.los, illegal := w1c v 2 q.illegal, rateErr := w1c v 3 q.rateErr, indexErr := w1c v 4 q.indexErr,
        mismatch := w1c v 5 q.mismatch })
      else d
    | none => d

/-- Is a function reset in progress by this opcode on this TARGET (R16)? -/
def Dev.inReinit (d : Dev) (op target : Nat) : Bool :=
  d.rings.inflight.any (fun p => p.op = op && p.target = target && p.phase = .executing)

/-- A write of a register of the HLINK block (R507). -/
def Dev.writeHead (o v : Nat) (d : Dev) : Dev :=
  let n := o / 0x1000
  if o % 0x1000 = 4 && !d.inReinit 0x07FF n then
    d.modHp n (fun h => { h with alertSeen := w1c v 5 h.alertSeen, downSeen := w1c v 6 h.downSeen })
  else d

/-- Is a list strictly decreasing (R559)? -/
def falling : List Int → Bool
  | a :: b :: t => decide (b < a) && falling (b :: t)
  | _ => true

/-- A write of AVS_CFG, discarded where it breaks a range or an order (R558). -/
def Dev.writeAvs (v : Nat) (d : Dev) : Dev :=
  let lo := bits v 0 7
  let hi := bits v 7 7
  let sl := bits v 14 8
  let sh := bits v 22 8
  if 60 < hi || hi < lo || sl = 0 || 254 < sl || sh ≤ sl then d
  else { d with sched := { d.sched with vMin := lo, vMax := hi, slackLow := sl, slackHigh := sh } }

/-- A write of a register of the SCHED block (R557 to R559). -/
def Dev.writeSched (o v : Nat) (d : Dev) : Dev :=
  let c := d.sched
  match unitOf o 0x0304 4 7 with
  | some (k, _) =>
    let ins := c.shedIn.set k (bits v 0 10)
    let cms := c.shedCm.set k (sInt 8 (bits v 16 8))
    if falling (ins.map (fun x => (x : Int))) && falling cms then { d with sched := { c with shedIn := ins, shedCm := cms } } else d
  | none => match o with
    | 0x0100 => d.writeAvs v
    | 0x0300 => { d with sched := { c with inCh := bits v 0 5, inEn := v.testBit 5, inNom := bits v 16 16 } }
    | _ => d

/-- A write of THERM_CFG (R560). -/
def Dev.writeTherm (o v : Nat) (d : Dev) : Dev :=
  let lo := bits v 0 8
  let hi := bits v 8 8
  if o = 0x20 && lo < hi && hi ≤ 105 then { d with sched := { d.sched with throttleC := lo, limitC := hi } } else d

/-- A write of a register of the TIME block (R598 to R601). -/
def Dev.writeTime (o v : Nat) (d : Dev) : Dev :=
  if o = 0 then d.snapshot v
  else match unitOf o 0x0100 0x40 2 with
    | some (k, x) => if x = 0 then d.modTb k (fun b => { b with stepped := w1c v 4 b.stepped }) else d
    | none => match unitOf o 0x0400 0x40 2 with
      | some (p, x) => if x = 0 then d.modEth p (fun e => { e with asym := sInt 32 v }) else d
      | none => match unitOf o 0x0800 0x10 8 with
        | some (n, x) => if x = 0 then d.modTout n (fun t => { t with missed := w1c v 5 t.missed }) else d
        | none => match unitOf o 0x0A00 0x40 8 with
          | some (i, x) =>
            if x = 0 then d.modTin i (fun t => { t with overflow := w1c v 5 t.overflow })
            else if x = 0x20 then d.popTin i v else d
          | none => d

/-- A write of MOT_STATUS (R648). -/
def Dev.writeMot (o v : Nat) (d : Dev) : Dev :=
  match unitOf o 0x0100 0x80 8 with
  | some (n, x) =>
    if x = 4 then d.modAxis n (fun a => { a with
      limitHit := w1c v 10 a.limitHit, softHit := w1c v 11 a.softHit, gearLost := w1c v 12 a.gearLost, backlog := w1c v 13 a.backlog })
    else d
  | none => d

/-- A write of BL_STATUS (R692). -/
def Dev.writeBl (o v : Nat) (d : Dev) : Dev :=
  match unitOf o 0x0100 0x100 4 with
  | some (n, x) =>
    if x = 0 then d.modBch n (fun c => { c with
      overvolt := w1c v 10 c.overvolt, overcurrent := w1c v 11 c.overcurrent, undervolt := w1c v 12 c.undervolt,
      skipCapped := w1c v 13 c.skipCapped })
    else d
  | none => d

/-- A write of DRY_CFG; 0 is discarded (R693). -/
def Dev.writeLoop (o v : Nat) (d : Dev) : Dev :=
  match unitOf o 0x0010 4 8 with
  | some (z, _) => if bits v 0 16 = 0 then d else { d with bl := { d.bl with dryHz := Tab.set z (bits v 0 16) d.bl.dryHz } }
  | none => d

/-- A write of a register of the DDRC block (R737, R739, R699): one that breaks a range is discarded, and so is DDRC_LONG_SIZE while
a stream is configured or an object is open. -/
def Dev.writeDdrc (o v : Nat) (d : Dev) : Dev :=
  let x := d.ddr
  match unitOf o 0x0100 0x100 2 with
  | some (c, y) =>
    if y = 0 && !d.inReinit 0x0DFF c then
      d.modDch c (fun q => { q with trainFail := w1c v 6 q.trainFail, ueSeen := w1c v 7 q.ueSeen })
    else d
  | none => match o with
    | 0x04 =>
      let n := bits v 0 7
      if n < 4 || 64 < n || (List.range 4).any (fun s => (d.nst s).configured) || !(d.objsOpen = 0) then d
      else { d with ddr := { x with longSize := n } }
    | 0x0C =>
      let h := bits v 0 8
      if h = 0 || 168 < h then d else { d with ddr := { x with periodH := h, scrubEn := v.testBit 8 } }
    | 0x10 =>
      if bits v 0 16 < 256 then d else { d with ddr := { x with threshold := bits v 0 16, radius := bits v 16 1 } }
    | 0x14 =>
      let t := bits v 16 14
      if bits v 8 8 ≤ bits v 0 8 || t < 10 || 10000 < t then d
      else { d with ddr := { x with panicLow := bits v 0 8, panicHigh := bits v 8 8, trackMs := t } }
    | _ => d

/-- A write of a register of bank n (R740, R741). -/
def Dev.writeBank (n o v : Nat) (d : Dev) : Dev :=
  match o with
  | 0x00 => d.bankCtrl n v
  | 0x04 => d.modBank n (fun b => { b with refused := w1c v 5 b.refused })
  | _ => d

/-- A write of a register of the PWR block (R800, R801). -/
def Dev.writePwr (o v : Nat) (d : Dev) : Dev :=
  match unitOf o 0x0100 0x40 16 with
  | some (n, x) => if x = 0x10 then d.modRail n (fun r => { r with failSeen := w1c v 16 r.failSeen }) else d
  | none => match unitOf o 0x0010 4 4 with
    | some (k, _) => d.srstWrite k v
    | none =>
      if o = 4 then { d with pwr := { d.pwr with
        pfwBudget := bits v 0 10, railWarn := bits v 10 10, cycleOffMs := bits v 20 10, pfwEn := v.testBit 30 } }
      else d

/-- A write of a register of PLL k (R802). -/
def Dev.writePll (k o v : Nat) (d : Dev) : Dev :=
  if o = 0x10 then d.modPll k (fun x => { x with lolSeen := w1c v 3 x.lolSeen, updRefused := w1c v 4 x.updRefused })
  else if 2 ≤ k then d
  else match o with
    | 0x0 => if bits v 4 9 < 16 then d else d.modPll k (fun x => { x with refDiv := bits v 0 4, fbDiv := bits v 4 9 })
    | 0x4 => d.modPll k (fun x => { x with frac := bits v 0 24 })
    | 0x8 => d.modPll k (fun x => { x with
        outDiv := ((List.range 4).map (fun j => bits v (8 * j) 6 * 2 ^ (8 * j))).sum })
    | 0xC => d.pllWrite k v
    | _ => d

/-- A write of a register of the CLK block (R802, R775). -/
def Dev.writeClk (o v : Nat) (d : Dev) : Dev :=
  match unitOf o 0x0100 0x40 4 with
  | some (k, x) => d.writePll k x v
  | none => match unitOf o 0x0400 4 4 with
    | some (k, _) => d.clkoutWrite k v
    | none => match unitOf o 0x0500 4 10 with
      | some (b, _) =>
        let us := bits v 16 14
        if us = 0 || 16000 < us then d
        else { d with clk := { d.clk with
          colMode := Tab.set b (bits v 0 1) d.clk.colMode, colTimeout := Tab.set b us d.clk.colTimeout } }
      | none => if o = 0x0540 then { d with clk := { d.clk with colSeen := w1c v 4 d.clk.colSeen } } else d

/-- A write of a register of the FLT block; one of FLT_CTRL that sets a reserved bit is discarded (R845, R846). -/
def Dev.writeFlt (o v : Nat) (d : Dev) : Dev :=
  match o with
  | 0x0000 =>
    if !(bits v 0 5 = 0) || !(bits v 17 15 = 0) then d
    else { d with flt := { d.flt with safeRailMask := bits v 5 11 * 32, injectEn := v.testBit 16 } }
  | 0x0004 => { d with flt := { d.flt with
      resetSuppressed := w1c v 3 d.flt.resetSuppressed, entered := w1c v 4 d.flt.entered } }
  | _ => d

/-! ## The whole map -/

/-- A write of the register at an aligned BAR0 offset takes effect by its access type; a register that is read-only, reserved or
without power keeps its value (R13, R795, R869, R870). -/
def State.regStore (a v : Nat) (s : State) : State :=
  let o := a % 65536
  if !s.dev.regOn a then s
  else match a / 65536 with
    | 0x00 => if 0x6000 ≤ o && o < 0x7000 then s.apertureWrite (o - 0x6000) v else s.onDev (Dev.writeSys o v)
    | 0x01 => s.onDev (Dev.writeRings o v)
    | 0x02 => match unitOf o 0x1040 0x100 28 with
      | some (c, 0) => s.dmaCtrl c v
      | _ => s.onDev (Dev.writeDma o v)
    | 0x03 => s.onDev (Dev.writeCodec o v)
    | 0x04 => s.onDev (Dev.writeScr o v)
    | 0x05 => s.onDev (Dev.writeNoz o v)
    | 0x06 => s.onDev (Dev.writeFire o v)
    | 0x07 => s.onDev (Dev.writeHead o v)
    | 0x08 => s.onDev (Dev.writeSched o v)
    | 0x09 => s.onDev (Dev.writeTime o v)
    | 0x0A => s.onDev (Dev.writeMot o v)
    | 0x0B => s.onDev (Dev.writeBl o v)
    | 0x0C => s.onDev (Dev.writeLoop o v)
    | 0x0D => s.onDev (Dev.writeDdrc o v)
    | 0x0E => match unitOf o 0x0100 0x40 12 with | some (n, x) => s.onDev (Dev.writeBank n x v) | none => s
    | 0x0F => s.onDev (Dev.writePwr o v)
    | 0x10 => s.onDev (Dev.writeClk o v)
    | 0x11 => s.onDev (Dev.writeFlt o v)
    | 0x12 => s.onDev (Dev.writeTherm o v)
    | _ => s

/-- A read of an RC register clears it (R13). -/
def Dev.readClears (a : Nat) (d : Dev) : Dev :=
  let o := a % 65536
  match a / 65536 with
  | 0x00 => if o = 0x0304 then { d with sys := { d.sys with mspiTimeouts := 0, mspiDiscards := 0 } } else d
  | 0x02 => if o = 0x24 then { d with ing := { d.ing with stageDrops := 0 } } else d
  | 0x03 =>
    if o = 0x20 then { d with codec := { d.codec with stageErrs := 0 } }
    else (match unitOf o 0x0100 0x40 4 with
      | some (s, 0x14) => d.modCapq s (fun q => { q with lost := 0 })
      | _ => d)
  | 0x04 => match unitOf o 0x0100 0x40 4 with
    | some (s, 0x08) => d.modSst s (fun q => { q with degraded := 0 })
    | some (s, 0x0C) => d.modSst s (fun q => { q with saturations := 0 })
    | _ => d
  | 0x05 => match unitOf o 0x0100 0x40 4 with
    | some (s, 0x10) => d.modNst s (fun q => { q with skipped := 0 })
    | some (s, 0x14) => d.modNst s (fun q => { q with blanked := 0 })
    | _ => d
  | 0x06 =>
    if o = 0x14 then { d with fire := { d.fire with reversals := 0 } }
    else (match unitOf o 0x0100 0x40 2, unitOf o 0x0400 0x40 4 with
      | some (e, 0x1C), _ => d.modEnc e (fun q => { q with illegalCount := 0 })
      | _, some (s, 0x14) => d.modFst s (fun q => { q with skipped := 0 })
      | _, _ => d)
  | 0x07 =>
    let n := o / 0x1000
    (match o % 0x1000 with
     | 0x30 => d.modHp n (fun h => { h with replays := 0 })
     | 0x34 => d.modHp n (fun h => { h with crcErrs := 0 })
     | 0x38 => d.modHp n (fun h => { h with linesLost := 0 })
     | 0x3C => d.modHp n (fun h => { h with retrains := 0 })
     | _ => d)
  | 0x08 => match unitOf o 0x0800 0x40 4 with
    | some (s, 0x10) => d.modIst s (fun q => { q with spacing := 0 })
    | _ => d
  | 0x09 => match unitOf o 0x0400 0x40 2 with
    | some (p, 0x08) => d.modEth p (fun e => { e with resMax := 0 })
    | some (p, 0x0C) => d.modEth p (fun e => { e with drops := 0 })
    | some (p, 0x10) => d.modEth p (fun e => { e with rxErrs := 0 })
    | _ => d
  | 0x0B => match unitOf o 0x0100 0x100 4 with
    | some (n, 0x14) => d.modBch n (fun c => { c with skips := 0 })
    | some (n, 0x18) => d.modBch n (fun c => { c with overvolts := 0 })
    | _ => d
  | 0x0D => match unitOf o 0x0100 0x100 2 with
    | some (c, 0x04) => d.modDch c (fun q => { q with ce := 0 })
    | some (c, 0x08) => d.modDch c (fun q => { q with ue := 0 })
    | some (c, 0x14) => d.modDch c (fun q => { q with panics := 0 })
    | some (c, 0x18) => d.modDch c (fun q => { q with neighbours := 0 })
    | _ => d
  | 0x0E => match unitOf o 0x0100 0x40 12 with
    | some (n, 0x08) => d.modBank n (fun b => { b with ce := 0 })
    | some (n, 0x0C) => d.modBank n (fun b => { b with ue := 0 })
    | some (n, 0x18) => d.modBank n (fun b => { b with screeFails := 0 })
    | some (n, 0x1C) => d.modBank n (fun b => { b with stalls := 0 })
    | _ => d
  | 0x0F => match unitOf o 0x0100 0x40 16 with
    | some (n, 0x18) => d.modRail n (fun r => { r with fails := 0 })
    | _ => d
  | 0x11 => match unitOf o 0x0080 4 7 with
    | some (r, _) => { d with flt := { d.flt with fabReplays := Tab.erase r d.flt.fabReplays } }
    | none => d
  | _ => d

/-- The state after a read of an aligned BAR0 offset: the high word is latched where its low word is read, and an RC register
cleared (R12, R13). -/
def State.regRead (a : Nat) (s : State) : State :=
  if !s.dev.regOn a then s
  else
    let s := if latchesHigh a then
        s.onDev (fun d => { d with sys := { d.sys with latch := Tab.set (a + 4) (s.regLive (a + 4)) d.sys.latch } }) else s
    s.onDev (Dev.readClears a)

/-- Code of a path in the trace. -/
def pathCode : Path → Nat
  | .bar0 => 0 | .mspi => 1 | .command => 2

/-- A 32-bit read by a path at any offset: a misaligned one returns all ones and touches nothing (R11). -/
def State.readBy (path : Path) (a : Nat) (s : State) : State :=
  if !(a % 4 = 0) then s.onDev (Dev.send (.regRead (pathCode path) a 0xFFFFFFFF))
  else
    let v := s.regValue a
    (s.regRead a).onDev (Dev.send (.regRead (pathCode path) a v))

/-- May an MSPI WRITE frame write this register (R873)? -/
def Dev.mspiMay (d : Dev) (a : Nat) : Bool :=
  !d.sys.writeLock || d.sys.stage = .saddle || d.sys.stage = .noImage || (decide (0x4000 ≤ a) && decide (a < 0x5000)) ||
  a = 0x1000C || a = 0x1001C

/-- A register that a frame addresses is discarded (R171, R873). -/
def Dev.mspiDiscard (d : Dev) : Dev :=
  { d with sys := { d.sys with mspiWriteDiscarded := true, mspiDiscards := satInc 16 d.sys.mspiDiscards } }

/-- A 32-bit write by a path: a misaligned one is discarded (R11), one by MSPI as WRITE_LOCK allows (R873). -/
def State.writeBy (path : Path) (a v : Nat) (s : State) : State :=
  if !(a % 4 = 0) then s
  else if path = .mspi && !s.dev.mspiMay a then s.onDev Dev.mspiDiscard
  else s.regStore a v

/-- An access from outside the device. -/
def busAccess (f : State → State) (s : State) : Host.Outcome State Fault Refusal :=
  if s.dev.sys.powered then .next (f s).settle else .next s

/-- REGISTER_WRITE (R13). -/
def execRegisterWrite (path : Path) (addr : Nat) (value : BitVec 32) : State → Host.Outcome State Fault Refusal :=
  busAccess (State.writeBy path addr value.toNat)

/-- READ_TO_CLEAR (R13). -/
def execReadToClear (path : Path) (addr : Nat) : State → Host.Outcome State Fault Refusal := busAccess (State.readBy path addr)

/-- COUNTER_LOW_READ (R12). -/
def execCounterLowRead (path : Path) (addr : Nat) : State → Host.Outcome State Fault Refusal := busAccess (State.readBy path addr)

/-- IRQ_n is asserted (R168). -/
def Dev.irqAsserted (d : Dev) : Bool := !((d.sys.irqPending &&& d.sys.irqMask) = 0)

/-! ## The management SPI -/

/-- The 32-bit words of a byte list, whole ones only. -/
def wholeWords (b : List Nat) : List Nat := (List.range (b.length / 4)).map (fun k => leNat ((b.drop (4 * k)).take 4))

/-- A WRITE frame writes successive registers; a frame at an unaligned address, or one that stops short of a whole register, has its
last partial register discarded (R169, R171, R873). -/
def State.mspiWrite (a : Nat) (b : List Nat) (s : State) : State :=
  let s := s.onDev (fun d => { d with sys := { d.sys with mspiWriteDiscarded := false } })
  if !(a % 4 = 0) then s.onDev Dev.mspiDiscard
  else
    let s := (wholeWords b).zipIdx.foldl (fun s e => State.writeBy .mspi (a + 4 * e.2) e.1 s) s
    if b.length % 4 = 0 then s else s.onDev Dev.mspiDiscard

/-- MSPI_WRITE_FRAME (R169). -/
def execMspiWriteFrame (addr : Nat) (bytes : List Nat) : State → Host.Outcome State Fault Refusal :=
  busAccess (State.mspiWrite addr bytes)

/-- Registers are read one after the other; the state and the values, oldest first. -/
def State.readRun (a : Nat) : Nat → State → List Nat → State × List Nat
  | 0, s, l => (s, l)
  | n + 1, s, l => State.readRun (a + 4) n (s.regRead a) (l ++ [s.regValue a])

/-- A READ frame of count data bytes: the start marker and register data, or 0x5A and all ones after 64 wait bytes without data
(R169 to R171). A last partial register is discarded; the bytes a frame at an
unaligned address returns are free values (log entry 5). -/
def State.mspiRead (a count : Nat) (ready : Bool) (s : State) : State :=
  let setTo (b : Bool) (s : State) : State := s.onDev (fun d => { d with sys := { d.sys with
    mspiReadTimedOut := b, mspiTimeouts := if b then satInc 16 d.sys.mspiTimeouts else d.sys.mspiTimeouts } })
  if !(a % 4 = 0) then
    let f := s.dev.freeBytes count
    ({ s with dev := f.2 }.onDev Dev.mspiDiscard).onDev (Dev.send (.mspi (0xA5 :: f.1)))
  else if !ready then (setTo true s).onDev (Dev.send (.mspi (0x5A :: List.replicate count 0xFF)))
  else
    let r := State.readRun a (count / 4) s []
    let s := setTo false r.1
    let part := count % 4
    let s := if part = 0 then s else s.onDev Dev.mspiDiscard
    s.onDev (Dev.send (.mspi (0xA5 :: (r.2.flatMap (leBytes 4)))))

/-- MSPI_READ_FRAME (R170). -/
def execMspiReadFrame (addr count : Nat) (ready : Bool) : State → Host.Outcome State Fault Refusal :=
  busAccess (State.mspiRead addr count ready)

/-- The STATUS byte (R169). -/
def Sys.mspiStatus (x : Sys) : Nat := pack [fbit true 0, fbit x.mspiReadTimedOut 1, fbit x.mspiWriteDiscarded 2]

/-- MSPI_STATUS_FRAME (R169). -/
def execMspiStatusFrame : State → Host.Outcome State Fault Refusal :=
  busAccess (fun s => s.onDev (Dev.send (.mspi [s.dev.sys.mspiStatus])))

/-! ## REG opcodes -/

/-- OFFSET of a REG packet (R125). -/
def Packet.offset (p : Packet) : Nat := p.fld 0 0 24

/-- The checks every REG packet on registers shares: byte 3 reserved, OFFSET aligned (R125, R7). -/
def Packet.offsetRows (p : Packet) (resv : List (Nat × Nat × Nat)) : List (Bool × Status) :=
  [(!p.resvOk ((3, 0, 8) :: resv), .malformed), (!(p.offset % 4 = 0), .badField)]

/-- Checks of REG_READ (R125, R113). -/
def chkRegRead (p : Packet) (_ : Dev) : Option Status :=
  firstFail (p.offsetRows [(6, 0, 16)] ++ [(decide (p.fld 4 0 16 = 0), Status.doneEmpty), (decide (2 < p.fld 4 0 16), .badField)])

/-- REG_READ (R125). -/
def runRegRead (p : Packet) (s : State) : State :=
  let r := State.readRun p.offset (p.fld 4 0 16) s []
  r.1.onDev (Dev.complete p.ref .done (r.2.getD 0 0 + 2 ^ 32 * r.2.getD 1 0) 0)

/-- REG_READ (R125). -/
def execRegRead (r seq : Nat) : State → Host.Outcome State Fault Refusal := opRow 0x0100 chkRegRead runRegRead r seq

/-- Checks of REG_WRITE (R125, R113). -/
def chkRegWrite (p : Packet) (_ : Dev) : Option Status :=
  let n := p.fld 4 0 32
  firstFail ((!(p.payload.length = 8 + 4 * n), .badLength) :: p.offsetRows [] ++ [(decide (n = 0), Status.doneEmpty)])

/-- REG_WRITE (R125): COUNT registers in ascending order. -/
def runRegWrite (p : Packet) (s : State) : State :=
  ((wholeWords (p.payload.drop 8)).zipIdx.foldl (fun s e => State.writeBy .command (p.offset + 4 * e.2) e.1 s) s).onDev
    (Dev.complete p.ref .done 0 0)

/-- REG_WRITE (R125). -/
def execRegWrite (r seq : Nat) : State → Host.Outcome State Fault Refusal := opRow 0x0101 chkRegWrite runRegWrite r seq

/-- Checks of REG_RMW (R125). -/
def chkRegRmw (p : Packet) (_ : Dev) : Option Status := firstFail (p.offsetRows [])

/-- The bits of mask are taken from b, the others from a. -/
def maskedIn (a b mask : Nat) : Nat := (a - (a &&& mask)) + (b &&& mask)

/-- REG_RMW (R126). -/
def runRegRmw (p : Packet) (s : State) : State :=
  let old := s.regValue p.offset
  ((s.regRead p.offset).writeBy .command p.offset (maskedIn old (p.fld 8 0 32) (p.fld 4 0 32))).onDev
    (Dev.complete p.ref .done old 0)

/-- REG_RMW (R126). -/
def execRegRmw (r seq : Nat) : State → Host.Outcome State Fault Refusal := opRow 0x0102 chkRegRmw runRegRmw r seq

/-- Checks of REG_POLL (R125). -/
def chkRegPoll (p : Packet) (_ : Dev) : Option Status :=
  let us := p.fld 12 0 32
  firstFail (p.offsetRows [] ++ [(us = 0 || decide (16000000 < us), .badField)])

/-- REG_POLL: polling starts (R127). -/
def runRegPoll (p : Packet) (d : Dev) : Dev := d.modPacket p.ref (fun q => { q with phase := .polling })

/-- REG_POLL (R127). -/
def execRegPoll (r seq : Nat) : State → Host.Outcome State Fault Refusal := opRow 0x0103 chkRegPoll (onPkt runRegPoll) r seq

/-- One read of a poll: it completes with DONE at a match (R127). -/
def State.pollRead (ref : PktRef) (s : State) : State :=
  match s.dev.packet? ref with
  | none => s
  | some p =>
    if !(p.phase = .polling) then s
    else
      let v := s.regValue p.offset
      let s := s.regRead p.offset
      if v &&& p.fld 4 0 32 = p.fld 8 0 32 then s.onDev (Dev.complete ref .done v 0)
      else s.onDev (Dev.modPacket ref (fun q => { q with pollLast := v }))

/-- REG_POLL_READ (R127). -/
def execRegPollRead (r seq : Nat) (s : State) : Host.Outcome State Fault Refusal :=
  if s.dev.ringsRun then .next (s.pollRead (r, seq)).settle else .next s

/-- A poll has lasted TIMEOUT_US: TIMEOUT with the last value read (R125, R127). -/
def Dev.pollTimeout (ref : PktRef) (d : Dev) : Dev :=
  match d.packet? ref with
  | none => d
  | some p => if p.phase = .polling then d.complete ref .timeout p.pollLast 0 else d

/-- REG_POLL_TIMEOUT (R127). -/
def execRegPollTimeout (r seq : Nat) : State → Host.Outcome State Fault Refusal := ringEvent (Dev.pollTimeout (r, seq))

/-- The checks both table opcodes share before their range's (R125, R7, R113). -/
def Packet.tableRows (p : Packet) : List (Bool × Status) :=
  let len := p.fld 4 0 25
  [(!p.resvOk [(3, 4, 4), (7, 1, 7)], .malformed),
   (!(p.fld 0 0 28 % 4 = 0) || !(len % 8 = 0) || decide (16777216 < len), .badField), (len = 0, .doneEmpty)]

/-- Checks of REG_TABLE_WRITE (R125, R881, R882). -/
def chkRegTableWrite (p : Packet) (d : Dev) : Option Status :=
  let o := p.fld 0 0 28
  let n := p.fld 4 0 25
  firstFail ((!(p.payload.length = 8 + n), .badLength) :: p.tableRows ++
    [(!tableWritable o n, .badField), (d.tableRefused o n, .refused)])

/-- REG_TABLE_WRITE (R125). -/
def runRegTableWrite (p : Packet) (s : State) : State :=
  (s.tableWrite (p.fld 0 0 28) (p.payload.drop 8)).onDev (Dev.complete p.ref .done 0 0)

/-- REG_TABLE_WRITE (R882). -/
def execRegTableWrite (r seq : Nat) : State → Host.Outcome State Fault Refusal :=
  opRow 0x0104 chkRegTableWrite runRegTableWrite r seq

/-- Checks of REG_TABLE_READ (R125, R876, R881, R882). -/
def chkRegTableRead (p : Packet) (d : Dev) : Option Status :=
  let o := p.fld 0 0 28
  let n := p.fld 4 0 25
  firstFail ((p.ring = 0 && (d.ring 0).source = 2, .badField) :: p.tableRows ++
    [(d.tableReserved o n, .badField), (d.tableRefused o n, .refused)])

/-- REG_TABLE_READ: the data is written to host memory before the completion (R125). -/
def runRegTableRead (p : Packet) (s : State) : State :=
  let b := s.tableRead (p.fld 0 0 28) (p.fld 4 0 25)
  s.onDev (fun d => (d.send (.hostWrite (p.fld 8 0 64) b)).complete p.ref .done 0 0)

/-- REG_TABLE_READ (R125). -/
def execRegTableRead (r seq : Nat) : State → Host.Outcome State Fault Refusal :=
  opRow 0x0105 chkRegTableRead runRegTableRead r seq

end Sys2Proof.Machine
end

