-- ==== Sys2Proof/Machine/Tick.lean ====
section
/-! DEFINITION. The tick of the tracking loop (spec chapters 2, 7, 8 and 10): the loop, S, the line boundaries that S has reached
and what takes place at them, the commits, arming, and the feed-forward to dryers and pumps. -/

namespace Sys2Proof.Machine

/-- A rational result rounded as the part rounds (log entry 7). -/
def roundRat (tag : Nat) (q : Rat) : Int := roundOpen tag q.num q.den

/-! ## The loop -/

/-- The new p (2^-16 sub-dots) and v (2^-24 sub-dots per ns, before its format) of an encoder from its latest edge (R413). -/
def Enc.loop (f : Fire) (x : Enc) : Int × Int :=
  let w : Rat := ((Config.twoPi60 * f.bwHz : Nat) : Rat) / (2 ^ 60 * 10 ^ 9)
  let z : Rat := (f.zeta : Rat) / 256
  let d : Rat := ((x.tE : Int) - x.tPrev : Int) / 2 ^ 16
  let h : Rat := if 1 < 2 * z * w * d then 1 / (2 * z * w) else d
  let v : Rat := (x.v : Rat) / 2 ^ 24
  let pPred : Rat := (x.p : Rat) / 2 ^ 16 + v * d
  let e : Rat := (x.xE : Rat) / 2 ^ 16 - pPred
  (roundRat 35 ((pPred + 2 * z * w * h * e) * 2 ^ 16), max 0 (roundRat 36 ((v + w * w * h * e) * 2 ^ 24)))

/-- The loop of encoder e updates from an edge it has not yet used (R400, R413); a v beyond its 32 bits is free (log entry 5). -/
def Dev.updateLoop (e : Nat) (d : Dev) : Dev :=
  let x := d.enc e
  if x.role = 0 || !x.edgeNew then d
  else
    let l := x.loop d.fire
    let r := if l.2 < 2 ^ 32 then (l.2.toNat, d) else (d.takeFree.1 % 2 ^ 32, d.takeFree.2)
    r.2.modEnc e (fun x => { x with p := l.1, v := r.1, tPrev := x.tE, edgeNew := false })

/-- S at the present time (R414); WP stands still while LOST is set (R399, R402, R411). -/
def Dev.advanceS (d : Dev) : Dev :=
  if d.fire.lost then d
  else
    let e := d.enc d.fire.src
    let along := e.xE + roundOpen 37 (e.v * ((d.time.tb2 : Int) - e.tE)) (2 ^ 24)
    let cap := e.xE + 64 * e.ratio / 2 ^ 16 - 1
    { d with fire := { d.fire with s := max d.fire.s (min along cap) } }

/-! ## Line boundaries -/

/-- Web position of the boundary of line n of a stream, with the changes due by then in effect; the lines that a datum change
skips share that of the first line after them (R420, R424). -/
def Dev.boundaryPos (d : Dev) (s : Nat) (n : Int) : Int :=
  let f := (d.applyDue s n).fst s
  64 * max n f.blank + f.datum

/-- Has S reached the stream's next boundary (R420)? -/
def Dev.reached (d : Dev) (s : Nat) : Bool := decide (d.boundaryPos s (d.fst s).nextLine * 2 ^ 16 ≤ d.fire.s)

/-- Does image line u carry imprint data for nozzle k of port q? -/
def Dev.imageData (d : Dev) (s q k : Nat) (u : Int) : Bool :=
  let n := d.nst s
  let x : Int := (n.port q).col + k - atLine u (n.oldShift.map (fun o => (o.1, o.2.1))) n.shift
  decide (0 ≤ x) && decide (x < n.width) && (d.attemptAt s u).isSome

/-- Nozzles of port q that skip image line n with imprint data, and those that are blanked on stream line n, by the changes of
placement, newest first (R380). -/
def Dev.placeLosses (d : Dev) (s q : Nat) (n : Int) : List (Int × Nat × Tab Nat) → Nat → Tab Nat → Nat × Nat
  | [], _, _ => (0, 0)
  | (u, y0, z0) :: t, y, z =>
    let ks := List.range (d.carried s q)
    let was (k : Nat) : Int := delayOf y0 z0 k
    let now (k : Nat) : Int := delayOf y z k
    let skip := ks.countP (fun k => decide (u ≤ n) && decide (n < u + (was k - now k)) && d.imageData s q k n)
    let blank := ks.countP (fun k => decide (u + was k ≤ n) && decide (n < u + now k))
    let rest := Dev.placeLosses d s q n t y0 z0
    (skip + rest.1, blank + rest.2)

/-- Registration losses of a line are counted, and replaced placements, maps and shifts that no line uses any more go (R380). -/
def Dev.countLosses (s : Nat) (n : Int) (d : Dev) : Dev :=
  let l := (d.portIdx s).map (fun q =>
    let x := d.nport ((d.nst s).port q).port
    d.placeLosses s q n x.oldPlace x.y x.z)
  let d := d.modNst s (fun x => { x with
    skipped := min (2 ^ 32 - 1) (x.skipped + (l.map (·.1)).sum), blanked := min (2 ^ 32 - 1) (x.blanked + (l.map (·.2)).sum),
    oldShift := pruneOld n x.oldShift, oldStatus := pruneOld n x.oldStatus })
  forL (d.nst s).ports (fun e d => if (d.nport e.port).oldPlace.isEmpty then d else
    d.modNport e.port (fun x => { x with oldPlace := pruneOld n x.oldPlace })) d

/-- The changes due at line n take effect; NOZ_LAST_APPLY records their boundary, and the reservation of a NEXT_GAP boundary
ends (R378, R381, R888). -/
def Dev.applyBoundary (s : Nat) (n : Int) (d : Dev) : Dev :=
  let due := (d.nst s).changes.filter (Change.due n)
  let d := d.applyDue s n
  if due.isEmpty then d
  else d.modNst s (fun x => { x with
    lastApply := wpOf ((due.getLast?.bind (·.boundary)).getD n), reserved := x.reserved.filter (fun r => decide (n < r.1)) })

/-- BELOW_MIN and RATE_HIGH are tested, and a limit that comes to be broken spoils the FIRING imprints (R432 to R434). -/
def Dev.rateTests (s : Nat) (d : Dev) : Dev :=
  let v := d.webV
  let was := d.fire.belowMin
  let below := if !rateGe v d.fire.minRate then true else if rateGe v d.fire.resumeRate then false else was
  let d := { d with fire := { d.fire with belowMin := below } }
  let d := if below && !was then forN 4 (fun s d => d.spoilMany s (d.firing s) 0x06) d else d
  let wasHigh := (d.fst s).rateHigh
  let high := (d.nst s).configured && rateAbove v (d.nst s).maxRate
  let d := d.modFst s (fun f => { f with rateHigh := high })
  if high && !wasHigh then d.spoilMany s (d.firing s) 0x04 else d

/-- A spoil mark whose last line has passed ends; one that waits starts where its ports can fire (R60). -/
def Dev.markStep (s : Nat) (n : Int) (d : Dev) : Dev :=
  let d := if (d.ist s).markStart.any (fun m => decide (m + (d.ist s).markLines ≤ n)) then
    d.modIst s (fun x => { x with markStart := none }) else d
  d.placeMark s

/-- Does every nozzle of port q fire an image line at or after u on stream line n (R487)? -/
def Dev.allNew (d : Dev) (s q : Nat) (u n : Int) : Bool :=
  (List.range (d.carried s q)).all (fun k => match d.image ((d.nst s).port q).port k n with
    | some x => decide (u ≤ x)
    | none => false)

/-- The changeover of a port ends with the first line on which every nozzle fires from the new table: the bank not in use
becomes the bank in use (R487, R488). -/
def Dev.endChangeovers (s : Nat) (n : Int) (d : Dev) : Dev :=
  forL (d.portIdx s) (fun q d =>
    let p := ((d.nst s).port q).port
    match (d.hp p).changeover with
    | some u => if d.allNew s q u n then d.modHp p (fun h => { h with changeover := none, bank := 1 - h.bank }) else d
    | none => d) d

/-- Ink of a line of stream s that carries an attempt's line u, pL (R527). -/
def Dev.lineInk (d : Dev) (s i : Nat) (u : Int) : Rat :=
  let e := d.entry i
  let g := ((u - e.firstLine.getD 0) / 4096).toNat
  ((d.portIdx s).map (fun q => d.inkLine s q (d.portDrops e e.degrade g q) (e.desc.segLines g))).sum

/-- Line n, which has passed the reference row, joins the lines whose ink is on its way to the dryers; lines further back than
the greatest DIST are dropped (R525, R528). -/
def Dev.inkPassed (s : Nat) (n : Int) (d : Dev) : Dev :=
  let old := d.sched.inked.filter (fun x => decide (n ≤ x.last + 2 ^ 35))
  let new := match d.attemptAt s n with
    | none => old
    | some i =>
      let ink := d.lineInk s i n
      if old.any (fun x => x.stream = s && x.last = n - 1 && x.ink = ink) then
        old.map (fun x => if x.stream = s && x.last = n - 1 then { x with last := n } else x)
      else old ++ [{ stream := s, first := n, last := n, ink := ink }]
  { d with sched := { d.sched with inked := new } }

/-- Parked WP packets of stream s whose position is reached start (R138). -/
def Dev.wpTriggers (s : Nat) (d : Dev) : Dev :=
  forL (d.rings.inflight.filter (fun p => p.phase = .parked && !(p.trigKind = 1) && p.trigSrc = s && d.trigPassed p))
    Dev.startParked d

/-- An AT_WP imprint not yet COMMITTED whose start the staging lead has passed is CANCELLED with START_MISSED (R48). -/
def Dev.missedStarts (s : Nat) (d : Dev) : Dev :=
  let n := d.nst s
  let lead := if n.configured then 8192 + 64 * n.ports.length + 32 else 0
  let late (i : Nat) : Bool :=
    let e := d.entry i
    e.atWp && !e.onWeb && later 48 ((d.presentWp s + 64 * lead) % 2 ^ 48) e.desc.startWp
  forL ((d.ist s).queue.filter late) (fun i d => d.cancel i 0x22) d

/-- The stream's next boundary passes, with everything the spec places at it but the commits (R420). -/
def Dev.passBoundary (s : Nat) (d : Dev) : Dev :=
  let n := (d.fst s).nextLine
  let d := d.applyBoundary s n
  let lost := decide (n < (d.fst s).blank) && d.hasData s n
  let d := d.modFst s (fun f => { f with
    nextLine := n + 1, skipped := if lost then satInc 32 f.skipped else f.skipped,
    nextArm := if (d.nst s).configured then f.nextArm else max f.nextArm (n + 1) })
  let d := (d.countLosses s n).rateTests s
  let d := (((d.markStep s n).captureBoundary s).endChangeovers s n).inkPassed s n
  (d.wpTriggers s).missedStarts s

/-- Every boundary of stream s that S has reached passes, in line order; fuel bounds the loop. -/
def Dev.passLoop (s : Nat) : Nat → Dev → Dev
  | 0, d => d
  | fuel + 1, d => if d.reached s then Dev.passLoop s fuel (d.passBoundary s) else d

/-- Every boundary of stream s that S has reached passes. -/
def Dev.passLines (s : Nat) (d : Dev) : Dev :=
  d.passLoop s (((d.fire.s / 2 ^ 16 + 2 ^ 39) / 64 - (d.fst s).nextLine).toNat + 2)

/-! ## Commits -/

/-- A set of SCHED_HOLD bits as a number. -/
def holdBits (l : List Nat) : Nat := (l.dedup.map (2 ^ ·)).sum

/-- The causes of SCHED_HOLD that do not depend on the candidate's place: R523 bits 5 to 13, with the condition of R410 on
reprints under WEB and a stopped checkpoint ring under CKPT_FULL (R59, R87). -/
def Dev.holdCauses (d : Dev) (s : Nat) (e : Entry) : List Nat :=
  let ports := (d.nst s).ports.map (·.port)
  let c := d.sched
  let maint := c.acts.any (fun a => a.running && decide (a.kind ≤ 3) && ports.any (fun p => a.res.testBit p))
  (if ports.any (fun p => (d.pmodel p).crit) then [5] else []) ++
  (if ((16 * c.limitC : Nat) : Int) ≤ c.die then [6] else []) ++
  (if 3 ≤ c.stage || c.stopping || c.stopDone || d.pwr.cycling then [7] else []) ++
  (if d.imp.ckptFull || d.imp.ckptFail then [8] else []) ++
  (if !(d.rptq s).held.isEmpty then [9] else []) ++
  (if ports.any (fun p => !((d.hp p).st = .up)) then [10] else []) ++
  (if d.fire.belowMin || (d.fst s).rateHigh || (e.reprint && d.fire.reversed) then [11] else []) ++
  (if maint then [12] else []) ++
  (if d.flt.held then [13] else [])

/-- Does an attempt's start lie within the commit horizon (R46)? -/
def Dev.inHorizon (d : Dev) (e : Entry) : Bool :=
  let s := e.desc.stream
  let now := (d.fst s).nextLine - 1
  if e.atWp then decide (d.wpAhead s e.desc.startWp ≤ 64 * (d.ist s).horizon)
  else match d.tailLine s with
    | none => true
    | some t => decide (t ≤ now) || decide (t + 1 + e.desc.minGap ≤ now + (d.ist s).horizon)

/-- An attempt commits at line f: its position, the lines that spacing added and its takeover table are fixed, and waiting
NEXT_GAP changes look for a gap (R45, R47, R518, R360, R888). -/
def Dev.commitAt (i : Nat) (f : Int) (d : Dev) : Dev :=
  let e := d.entry i
  let s := e.desc.stream
  let more := (f - d.earliestFirst e).toNat
  let table := (d.nst s).takeover
  let d := d.modEntry i (fun e => { e with
    st := .committed, firstLine := some f, held := false, heldAt := none, spacing := more, takeover := table })
  (d.modIst s (fun x => { x with spacing := min (2 ^ 32 - 1) (x.spacing + more), hold := 0 })).fixGaps s

/-- A candidate that fits only at a higher voltage raises V_floor to it, unless FLT_AVS persists (R534, R536). -/
def Dev.askVoltage (e : Entry) (causes : List Nat) (d : Dev) : Dev :=
  match d.voltageNeed e e.degrade with
  | some v => if causes = [4] && !d.sched.avsFail then
      let c := d.sched
      let d := { d with sched := { c with needV := max c.needV v, needFrom := if c.needV = 0 then c.target else c.needFrom } }
      if d.coreRuns then d.updFloor else d
    else d
  | none => d

/-- The stream's next candidate is evaluated: it commits, or its causes are set in SCHED_HOLD (R46, R516, R518, R519, R521,
R523). True when it has committed. -/
def Dev.evaluate (s : Nat) (d : Dev) : Bool × Dev :=
  let hold (l : List Nat) (d : Dev) : Dev := d.modIst s (fun x => { x with hold := holdBits l })
  match d.candidate s with
  | none => (false, hold [] d)
  | some i =>
    let e := d.entry i
    let causes := d.holdCauses s e
    if !(e.st = .staged) || e.unresolved || !d.inHorizon e then (false, hold causes d)
    else match d.fitLine e e.degrade with
      | .ok f =>
        if causes.isEmpty then (true, d.commitAt i f)
        else (false, hold causes (d.modEntry i (fun e => { e with held := false, heldAt := none })))
      | .error l =>
        let now := d.ns
        let d := d.modEntry i (fun e => { e with held := true, heldAt := some (e.heldAt.getD now) })
        (false, hold (causes ++ l) (d.askVoltage e l))

/-- Planned first-line web position of the stream's candidate (R516). -/
def Dev.plannedPos (d : Dev) (s : Nat) : Option Int :=
  (d.candidate s).map (fun i => d.webOf s (d.earliestFirst (d.entry i)))

/-- Of the streams given, the one whose candidate is evaluated first: the earliest planned position, then the lowest stream;
a stream with no candidate comes last (R516). -/
def Dev.firstStream (d : Dev) (l : List Nat) : Option Nat :=
  let key (s : Nat) : Nat × Int := match d.plannedPos s with | some w => (0, w) | none => (1, 0)
  let less (a b : Nat) : Bool := (key a).1 < (key b).1 || ((key a).1 = (key b).1 && (key a).2 < (key b).2)
  l.foldl (fun m s => match m with | none => some s | some b => if less s b then some s else some b) none

/-- The candidates of the streams whose boundary has been reached are evaluated until none commits; fuel bounds the loop. -/
def Dev.commitLoop : Nat → List Nat → Dev → Dev
  | 0, _, d => d
  | fuel + 1, l, d =>
    match d.firstStream l with
    | none => d
    | some s =>
      match d.evaluate s with
      | (true, d) => Dev.commitLoop fuel l d
      | (false, d) => Dev.commitLoop fuel (l.filter (fun x => !(x = s))) d

/-- The power that SCHED_DEV_PRED, SCHED_HEAD_PRED and SCHED_DRYER_PRED show: the highest from now on over the committed work;
and each port's predicted peak temperature (R557). -/
def Dev.predict (d : Dev) : Dev :=
  let work := d.committedWork
  let now := d.fire.s / 2 ^ 16
  let pts := now :: (work.map (·.start)).filter (fun w => decide (now ≤ w))
  let dry := now :: ((List.range 8).flatMap (fun z =>
    (work.filter (fun p => (d.zone z).mask.testBit p.stream)).map (fun p => d.dryPoint z p))).filter (fun w => decide (now ≤ w))
  let top (tag : Nat) (l : List Rat) : Nat := (roundRat tag (l.foldl max 0)).toNat
  let d := { d with sched := { d.sched with
    devPred := min 65535 (top 38 (pts.map (fun w => d.devicePower work w))),
    headPred := min (2 ^ 32 - 1) (top 39 (pts.map (fun w => d.headPower work w))),
    dryerPred := min (2 ^ 32 - 1) (top 40 (dry.map (fun w => d.dryerPower work w))) } }
  forN 4 (fun s d => forL (d.portIdx s) (fun q d =>
    let t := d.peakHeat s q work
    d.modPmodel ((d.nst s).port q).port (fun m => { m with peak := t })) d) d

/-- Commits at the boundaries of the streams given, by the scheduler of the operational device (R46, R516). -/
def Dev.commits (l : List Nat) (d : Dev) : Dev :=
  if l.isEmpty || !(d.dom 5 = .on) || !(d.sys.stage = .operational) then d
  else (d.commitLoop ((l.map (fun s => (d.ist s).queue.length + 1)).sum) l).predict

/-! ## Feed-forward -/

/-- The measured line rate in lines/s (R416). -/
def Dev.measuredRate (d : Dev) : Rat := (d.webV : Rat) * 10 ^ 9 / (64 * 2 ^ 24)

/-- Ink of the line of stream s at a reference-row position, pL: of a line that has passed the reference row, or of one that a
committed attempt will fire (R527, R528). -/
def Dev.inkAt (d : Dev) (s : Nat) (x : Int) : Rat :=
  let n := x / 64
  if n < (d.fst s).nextLine then
    ((d.sched.inked.find? (fun y => y.stream = s && decide (y.first ≤ n) && decide (n ≤ y.last))).map (·.ink)).getD 0
  else match d.attemptAt s n with
    | some i => d.lineInk s i n
    | none => 0

/-- Feed-forward power of zone z now, mW (R527, R528). -/
def Dev.zoneNow (d : Dev) (z : Nat) : Nat :=
  let m := d.zone z
  let x := d.fire.s / 2 ^ 16 + (d.webV * m.leadMs * 1000000 / 2 ^ 24 : Nat) - m.dist
  let ink := (((List.range 4).filter (fun s => m.mask.testBit s)).map (fun s => d.inkAt s x)).sum * d.measuredRate / 1000000
  min m.maxMw (roundRat 41 ((m.idleMw : Rat) + (m.k : Rat) * ink)).toNat

/-- Ink rate of the line that port p fires now, µL/s as 16.16 (R529). -/
def Dev.portInk (d : Dev) (p : Nat) : Int :=
  match d.streamOf p with
  | none => 0
  | some s =>
    let q := (d.nst s).indexOf p
    let u : Int := (d.fst s).nextLine - 1 - ((d.nport p).y / 64 : Nat)
    match d.attemptAt s u with
    | none => 0
    | some i =>
      let e := d.entry i
      let g := ((u - e.firstLine.getD 0) / 4096).toNat
      let x := roundRat 42 (d.inkLine s q (d.portDrops e e.degrade g q) (e.desc.segLines g) * d.measuredRate * 2 ^ 16 / 1000000)
      if x < 2 ^ 32 then x else Config.outOfRange x

/-- A zone with no loop drives DRY_z at power / MAX_MW; a quotient by 0 is free (R528, log entry 5). The safe state holds it
off (R685). -/
def Dev.driveDry (z : Nat) (d : Dev) : Dev :=
  let m := d.zone z
  if !(m.loop = 255) || d.flt.held then d
  else
    let r := if m.maxMw = 0 then (d.takeFree.1 % (100 * 2 ^ 16 + 1), d.takeFree.2)
      else ((roundOpen 43 (100 * 2 ^ 16 * m.ff) m.maxMw).toNat, d)
    if r.1 = m.duty then r.2 else (r.2.modZone z (fun m => { m with duty := r.1 })).pin .dry z (decide (0 < r.1))

/-- The scheduler delivers its feed-forward: the power of every zone in use to its loop or DRY output, and the ink rates of the
ports to their pump loops, summed per loop (R528, R529). A zone with STREAM_MASK 0 is not in use (log entry 34). -/
def Dev.feedForward (d : Dev) : Dev :=
  if !(d.dom 5 = .on) then d
  else
    let zones := (List.range 8).filter (fun z => !((d.zone z).mask = 0))
    let d := forL zones (fun z d => (d.modZone z (fun m => { m with ff := d.zoneNow z })).driveDry z) d
    let ports := (List.range 16).filter (fun p => (d.pmodel p).pumpLoop < 32)
    forN 32 (fun l d =>
      let f : Int := ((zones.filter (fun z => (d.zone z).loop = l)).map (fun z => ((d.zone z).ff : Int) * 2 ^ 16)).sum +
        ((ports.filter (fun p => (d.pmodel p).pumpLoop = l)).map (fun p => d.portInk p)).sum
      if f = (d.lp l).ff then d else d.modLp l (fun x => { x with ff := f })) d

/-! ## The tick -/

/-- One tick: loops, S, boundaries in stream order, commits, arming, what is now PRINTED, gearing and feed-forward (R413, R420,
R428, R516). -/
def Dev.tick (d : Dev) : Dev :=
  let d := ((d.updateLoop 0).updateLoop 1).advanceS
  let l := (List.range 4).filter d.reached
  let d := (forL l Dev.passLines d).commits l
  let d := forN 4 Dev.checkPrinted (forN 4 Dev.arm d)
  (forN 8 Dev.checkGear d).feedForward

/-- TRACKING_LOOP_TICK (R413). -/
def execTrackingLoopTick : State → Host.Outcome State Fault Refusal := inDomain 11 Dev.tick

end Sys2Proof.Machine
end

