-- ==== Sys2Proof/Machine/Dispatch.lean ====
section
/-! DEFINITION. The dispatch of commands: one arm per row of the opcode table. -/

namespace Sys2Proof.Machine

/-- The effect of a command on everything but the queue. -/
def exec (i : Instr) (s : State) : Host.Outcome State Fault Refusal :=
  match i with
  | .registerWrite path addr value => Sys2Proof.Machine.execRegisterWrite path addr value s
  | .readToClear path addr => Sys2Proof.Machine.execReadToClear path addr s
  | .counterLowRead path addr => Sys2Proof.Machine.execCounterLowRead path addr s
  | .mspiWriteFrame addr bytes => Sys2Proof.Machine.execMspiWriteFrame addr bytes s
  | .mspiReadFrame addr count ready => Sys2Proof.Machine.execMspiReadFrame addr count ready s
  | .mspiStatusFrame => Sys2Proof.Machine.execMspiStatusFrame s
  | .bar2Write offset bytes => Sys2Proof.Machine.execBar2Write offset bytes s
  | .tableApertureAccess x write => Sys2Proof.Machine.execTableApertureAccess x write s
  | .ringTailWrite r value => Sys2Proof.Machine.execRingTailWrite r value s
  | .ringSlotFetch r slot => Sys2Proof.Machine.execRingSlotFetch r slot s
  | .indirectPayloadFetch r seq data => Sys2Proof.Machine.execIndirectPayloadFetch r seq data s
  | .cqHeadWrite r value => Sys2Proof.Machine.execCqHeadWrite r value s
  | .ringEnable r value => Sys2Proof.Machine.execRingEnable r value s
  | .ringDisable r value => Sys2Proof.Machine.execRingDisable r value s
  | .clearWindow r value => Sys2Proof.Machine.execClearWindow r value s
  | .ringIrqHoldoffEnd r => Sys2Proof.Machine.execRingIrqHoldoffEnd r s
  | .rptqHeadWrite st value => Sys2Proof.Machine.execRptqHeadWrite st value s
  | .rptqEnable st value => Sys2Proof.Machine.execRptqEnable st value s
  | .capqHeadWrite st value => Sys2Proof.Machine.execCapqHeadWrite st value s
  | .captureRecordDeliver st => Sys2Proof.Machine.execCaptureRecordDeliver st s
  | .ethCmdReceive port src udp => Sys2Proof.Machine.execEthCmdReceive port src udp s
  | .ethBulkReceive port src udp => Sys2Proof.Machine.execEthBulkReceive port src udp s
  | .ethAckReceive port src udp => Sys2Proof.Machine.execEthAckReceive port src udp s
  | .ethAckTimer r => Sys2Proof.Machine.execEthAckTimer r s
  | .ethRtoExpire r tseq => Sys2Proof.Machine.execEthRtoExpire r tseq s
  | .sysInfoBroadcastReply => Sys2Proof.Machine.execSysInfoBroadcastReply s
  | .sysNop r seq => Sys2Proof.Machine.execSysNop r seq s
  | .sysBarrier r seq => Sys2Proof.Machine.execSysBarrier r seq s
  | .barrierTimeout r seq => Sys2Proof.Machine.execBarrierTimeout r seq s
  | .sysInfo r seq => Sys2Proof.Machine.execSysInfo r seq s
  | .sysSetAddr r seq => Sys2Proof.Machine.execSysSetAddr r seq s
  | .sysTrigCancel r seq => Sys2Proof.Machine.execSysTrigCancel r seq s
  | .sysWarmReset r seq => Sys2Proof.Machine.execSysWarmReset r seq s
  | .sysPowerCycle r seq => Sys2Proof.Machine.execSysPowerCycle r seq s
  | .cycleOffExpire => Sys2Proof.Machine.execCycleOffExpire s
  | .sysFwWrite r seq => Sys2Proof.Machine.execSysFwWrite r seq s
  | .sysFwActivate r seq => Sys2Proof.Machine.execSysFwActivate r seq s
  | .regRead r seq => Sys2Proof.Machine.execRegRead r seq s
  | .regWrite r seq => Sys2Proof.Machine.execRegWrite r seq s
  | .regRmw r seq => Sys2Proof.Machine.execRegRmw r seq s
  | .regPoll r seq => Sys2Proof.Machine.execRegPoll r seq s
  | .regPollRead r seq => Sys2Proof.Machine.execRegPollRead r seq s
  | .regPollTimeout r seq => Sys2Proof.Machine.execRegPollTimeout r seq s
  | .regTableWrite r seq => Sys2Proof.Machine.execRegTableWrite r seq s
  | .regTableRead r seq => Sys2Proof.Machine.execRegTableRead r seq s
  | .timeTriggerDue r seq => Sys2Proof.Machine.execTimeTriggerDue r seq s
  | .impSubmit r seq => Sys2Proof.Machine.execImpSubmit r seq s
  | .impCancel r seq => Sys2Proof.Machine.execImpCancel r seq s
  | .impSpoil r seq => Sys2Proof.Machine.execImpSpoil r seq s
  | .impRelease r seq => Sys2Proof.Machine.execImpRelease r seq s
  | .impConfigStream r seq => Sys2Proof.Machine.execImpConfigStream r seq s
  | .impRecover r seq => Sys2Proof.Machine.execImpRecover r seq s
  | .impReinit r seq => Sys2Proof.Machine.execImpReinit r seq s
  | .ckptRecordProgrammed ok => Sys2Proof.Machine.execCkptRecordProgrammed ok s
  | .ckptSectorErased => Sys2Proof.Machine.execCkptSectorErased s
  | .ckptScanEnd => Sys2Proof.Machine.execCkptScanEnd s
  | .stageObjOpen r seq => Sys2Proof.Machine.execStageObjOpen r seq s
  | .stageObjAppend r seq => Sys2Proof.Machine.execStageObjAppend r seq s
  | .stageObjClose r seq => Sys2Proof.Machine.execStageObjClose r seq s
  | .stageObjFree r seq => Sys2Proof.Machine.execStageObjFree r seq s
  | .stageDmaStart r seq => Sys2Proof.Machine.execStageDmaStart r seq s
  | .stageDmaAbort r seq => Sys2Proof.Machine.execStageDmaAbort r seq s
  | .stageCapture r seq => Sys2Proof.Machine.execStageCapture r seq s
  | .stageReinit r seq => Sys2Proof.Machine.execStageReinit r seq s
  | .dmaGo c value => Sys2Proof.Machine.execDmaGo c value s
  | .dmaCtrlAbort c value => Sys2Proof.Machine.execDmaCtrlAbort c value s
  | .dmaCtrlClear c value => Sys2Proof.Machine.execDmaCtrlClear c value s
  | .dmaTransferEnd c moved other => Sys2Proof.Machine.execDmaTransferEnd c moved other s
  | .dmaBusError c kind dir addr moved => Sys2Proof.Machine.execDmaBusError c kind dir addr moved s
  | .lookaheadDecodeStart index => Sys2Proof.Machine.execLookaheadDecodeStart index s
  | .lookaheadDecodeEnd index => Sys2Proof.Machine.execLookaheadDecodeEnd index s
  | .stagingDecodeEnd index source segment eccBad => Sys2Proof.Machine.execStagingDecodeEnd index source segment eccBad s
  | .attemptBoundary st => Sys2Proof.Machine.execAttemptBoundary st s
  | .screenLineDone st => Sys2Proof.Machine.execScreenLineDone st s
  | .scrCapacityUpdate st diffusion threshold => Sys2Proof.Machine.execScrCapacityUpdate st diffusion threshold s
  | .scrLaneMapWrite value => Sys2Proof.Machine.execScrLaneMapWrite value s
  | .scrLoadTone r seq => Sys2Proof.Machine.execScrLoadTone r seq s
  | .scrLoadDensity r seq => Sys2Proof.Machine.execScrLoadDensity r seq s
  | .scrLoadThresh r seq => Sys2Proof.Machine.execScrLoadThresh r seq s
  | .scrSetDiffusion r seq => Sys2Proof.Machine.execScrSetDiffusion r seq s
  | .scrLoadDropmap r seq => Sys2Proof.Machine.execScrLoadDropmap r seq s
  | .scrReinit r seq => Sys2Proof.Machine.execScrReinit r seq s
  | .nozConfigStream r seq => Sys2Proof.Machine.execNozConfigStream r seq s
  | .nozLoadStatus r seq => Sys2Proof.Machine.execNozLoadStatus r seq s
  | .nozSwapStatus r seq => Sys2Proof.Machine.execNozSwapStatus r seq s
  | .nozLoadTakeover r seq => Sys2Proof.Machine.execNozLoadTakeover r seq s
  | .nozSetStitch r seq => Sys2Proof.Machine.execNozSetStitch r seq s
  | .nozSetDelay r seq => Sys2Proof.Machine.execNozSetDelay r seq s
  | .nozLoadOffsets r seq => Sys2Proof.Machine.execNozLoadOffsets r seq s
  | .nozReinit r seq => Sys2Proof.Machine.execNozReinit r seq s
  | .encoderTransition e a b ago => Sys2Proof.Machine.execEncoderTransition e a b ago s
  | .encoderIndexEdge e => Sys2Proof.Machine.execEncoderIndexEdge e s
  | .encoderLos e => Sys2Proof.Machine.execEncoderLos e s
  | .encoderCompare => Sys2Proof.Machine.execEncoderCompare s
  | .trackingLoopTick => Sys2Proof.Machine.execTrackingLoopTick s
  | .standstill => Sys2Proof.Machine.execStandstill s
  | .fsyncEmit port => Sys2Proof.Machine.execFsyncEmit port s
  | .fireConfigEncoder r seq => Sys2Proof.Machine.execFireConfigEncoder r seq s
  | .fireSetRatio r seq => Sys2Proof.Machine.execFireSetRatio r seq s
  | .fireSetTracking r seq => Sys2Proof.Machine.execFireSetTracking r seq s
  | .fireSetDatum r seq => Sys2Proof.Machine.execFireSetDatum r seq s
  | .fireRegister r seq => Sys2Proof.Machine.execFireRegister r seq s
  | .fireReinit r seq => Sys2Proof.Machine.execFireReinit r seq s
  | .hlLineSend port => Sys2Proof.Machine.execHlLineSend port s
  | .hlFeederDeadline port => Sys2Proof.Machine.execHlFeederDeadline port s
  | .hlLstatReceive port l => Sys2Proof.Machine.execHlLstatReceive port l s
  | .hlLstatTimeout port => Sys2Proof.Machine.execHlLstatTimeout port s
  | .hlRxLockLoss port => Sys2Proof.Machine.execHlRxLockLoss port s
  | .hlReplayTimeout port tseq => Sys2Proof.Machine.execHlReplayTimeout port tseq s
  | .hlFireConfirmTimeout port => Sys2Proof.Machine.execHlFireConfirmTimeout port s
  | .hlVoidCheckTimeout port => Sys2Proof.Machine.execHlVoidCheckTimeout port s
  | .hlHrstRelease port => Sys2Proof.Machine.execHlHrstRelease port s
  | .hlTrainingSetReceive port second count => Sys2Proof.Machine.execHlTrainingSetReceive port second count s
  | .hlDeclareReceive port d => Sys2Proof.Machine.execHlDeclareReceive port d s
  | .hlRespReceive port op result => Sys2Proof.Machine.execHlRespReceive port op result s
  | .hlTrainingTimeout port => Sys2Proof.Machine.execHlTrainingTimeout port s
  | .hlI2cTransactionEnd port ok data => Sys2Proof.Machine.execHlI2cTransactionEnd port ok data s
  | .hlHalertLow port => Sys2Proof.Machine.execHlHalertLow port s
  | .hlUsageIncrementTimer port => Sys2Proof.Machine.execHlUsageIncrementTimer port s
  | .headTrain r seq => Sys2Proof.Machine.execHeadTrain r seq s
  | .headAuth r seq => Sys2Proof.Machine.execHeadAuth r seq s
  | .headLoadWave r seq => Sys2Proof.Machine.execHeadLoadWave r seq s
  | .headSelectWave r seq => Sys2Proof.Machine.execHeadSelectWave r seq s
  | .headReset r seq => Sys2Proof.Machine.execHeadReset r seq s
  | .headReadCounter r seq => Sys2Proof.Machine.execHeadReadCounter r seq s
  | .headReinit r seq => Sys2Proof.Machine.execHeadReinit r seq s
  | .heldAttemptTimer st => Sys2Proof.Machine.execHeldAttemptTimer st s
  | .heatBiasUpdate => Sys2Proof.Machine.execHeatBiasUpdate s
  | .coreVfloorUpdate => Sys2Proof.Machine.execCoreVfloorUpdate s
  | .coreSlackRaiseTick slack monitor => Sys2Proof.Machine.execCoreSlackRaiseTick slack monitor s
  | .coreSlackLowerTimer slack monitor => Sys2Proof.Machine.execCoreSlackLowerTimer slack monitor s
  | .avsPoll => Sys2Proof.Machine.execAvsPoll s
  | .avsAlert => Sys2Proof.Machine.execAvsAlert s
  | .avsTransactionEnd ok value => Sys2Proof.Machine.execAvsTransactionEnd ok value s
  | .thermSample temps => Sys2Proof.Machine.execThermSample temps s
  | .shedStageClear => Sys2Proof.Machine.execShedStageClear s
  | .orderlyStopEnd => Sys2Proof.Machine.execOrderlyStopEnd s
  | .pwrSetCap r seq => Sys2Proof.Machine.execPwrSetCap r seq s
  | .pwrSetExtBudget r seq => Sys2Proof.Machine.execPwrSetExtBudget r seq s
  | .maintStart r seq => Sys2Proof.Machine.execMaintStart r seq s
  | .maintEnd r seq => Sys2Proof.Machine.execMaintEnd r seq s
  | .maintQuery r seq => Sys2Proof.Machine.execMaintQuery r seq s
  | .maintQueryTimeout r seq => Sys2Proof.Machine.execMaintQueryTimeout r seq s
  | .maintActivityTimeout id => Sys2Proof.Machine.execMaintActivityTimeout id s
  | .maintReinit r seq => Sys2Proof.Machine.execMaintReinit r seq s
  | .ptpSyncReceive k port m => Sys2Proof.Machine.execPtpSyncReceive k port m s
  | .ptpFollowUpReceive k port m => Sys2Proof.Machine.execPtpFollowUpReceive k port m s
  | .ptpDelayRespReceive k port m => Sys2Proof.Machine.execPtpDelayRespReceive k port m s
  | .ptpPdelayReceive port m => Sys2Proof.Machine.execPtpPdelayReceive port m s
  | .ptpAnnounceReceive k port a => Sys2Proof.Machine.execPtpAnnounceReceive k port a s
  | .ptpSyncTimeout k => Sys2Proof.Machine.execPtpSyncTimeout k s
  | .ptpAnnounceTimeout k => Sys2Proof.Machine.execPtpAnnounceTimeout k s
  | .ptpMessageSend k type => Sys2Proof.Machine.execPtpMessageSend k type s
  | .ptpEventRelay port m residence => Sys2Proof.Machine.execPtpEventRelay port m residence s
  | .ethFrameRelay port multicast bytes => Sys2Proof.Machine.execEthFrameRelay port multicast bytes s
  | .ethLinkChange port up => Sys2Proof.Machine.execEthLinkChange port up s
  | .timeSlewEnd k => Sys2Proof.Machine.execTimeSlewEnd k s
  | .timeConfigPtp r seq => Sys2Proof.Machine.execTimeConfigPtp r seq s
  | .timeSet r seq => Sys2Proof.Machine.execTimeSet r seq s
  | .timeAdjust r seq => Sys2Proof.Machine.execTimeAdjust r seq s
  | .timeToutConfig r seq => Sys2Proof.Machine.execTimeToutConfig r seq s
  | .timeTinConfig r seq => Sys2Proof.Machine.execTimeTinConfig r seq s
  | .timeRead r seq => Sys2Proof.Machine.execTimeRead r seq s
  | .timeReinit r seq => Sys2Proof.Machine.execTimeReinit r seq s
  | .toutEdge n => Sys2Proof.Machine.execToutEdge n s
  | .toutPulseEnd n => Sys2Proof.Machine.execToutPulseEnd n s
  | .tinEdge n rising ago => Sys2Proof.Machine.execTinEdge n rising ago s
  | .tinPop n value => Sys2Proof.Machine.execTinPop n value s
  | .timeSnap value => Sys2Proof.Machine.execTimeSnap value s
  | .motConfig r seq => Sys2Proof.Machine.execMotConfig r seq s
  | .motMove r seq => Sys2Proof.Machine.execMotMove r seq s
  | .motStop r seq => Sys2Proof.Machine.execMotStop r seq s
  | .motHome r seq => Sys2Proof.Machine.execMotHome r seq s
  | .motFollow r seq => Sys2Proof.Machine.execMotFollow r seq s
  | .motGear r seq => Sys2Proof.Machine.execMotGear r seq s
  | .motSetLimits r seq => Sys2Proof.Machine.execMotSetLimits r seq s
  | .motReinit r seq => Sys2Proof.Machine.execMotReinit r seq s
  | .axisStepPulse n velocity final => Sys2Proof.Machine.execAxisStepPulse n velocity final s
  | .axisEnableSetupEnd n => Sys2Proof.Machine.execAxisEnableSetupEnd n s
  | .axisLimitActive n positive active => Sys2Proof.Machine.execAxisLimitActive n positive active s
  | .axisHomeEdge n active => Sys2Proof.Machine.execAxisHomeEdge n active s
  | .followCoarseStep m dirHigh => Sys2Proof.Machine.execFollowCoarseStep m dirHigh s
  | .gearLock n => Sys2Proof.Machine.execGearLock n s
  | .gearBlendStart n => Sys2Proof.Machine.execGearBlendStart n s
  | .blConfig r seq => Sys2Proof.Machine.execBlConfig r seq s
  | .blStart r seq => Sys2Proof.Machine.execBlStart r seq s
  | .blSetSpeed r seq => Sys2Proof.Machine.execBlSetSpeed r seq s
  | .blStop r seq => Sys2Proof.Machine.execBlStop r seq s
  | .blReinit r seq => Sys2Proof.Machine.execBlReinit r seq s
  | .blPwmPeriod n sample => Sys2Proof.Machine.execBlPwmPeriod n sample s
  | .blSpeedUpdate n => Sys2Proof.Machine.execBlSpeedUpdate n s
  | .blChopperCheckEnd n pass => Sys2Proof.Machine.execBlChopperCheckEnd n pass s
  | .blBusSettled n => Sys2Proof.Machine.execBlBusSettled n s
  | .blMeasureEnd n cycles speed => Sys2Proof.Machine.execBlMeasureEnd n cycles speed s
  | .blAlignEnd n => Sys2Proof.Machine.execBlAlignEnd n s
  | .blHandover n within => Sys2Proof.Machine.execBlHandover n within s
  | .blRetryEnd n => Sys2Proof.Machine.execBlRetryEnd n s
  | .loopConfig r seq => Sys2Proof.Machine.execLoopConfig r seq s
  | .loopSetPoint r seq => Sys2Proof.Machine.execLoopSetPoint r seq s
  | .loopEnable r seq => Sys2Proof.Machine.execLoopEnable r seq s
  | .loopRead r seq => Sys2Proof.Machine.execLoopRead r seq s
  | .loopReinit r seq => Sys2Proof.Machine.execLoopReinit r seq s
  | .loopUpdate l => Sys2Proof.Machine.execLoopUpdate l s
  | .memBankHandover r seq => Sys2Proof.Machine.execMemBankHandover r seq s
  | .memRetrain r seq => Sys2Proof.Machine.execMemRetrain r seq s
  | .memScrub r seq => Sys2Proof.Machine.execMemScrub r seq s
  | .memScree r seq => Sys2Proof.Machine.execMemScree r seq s
  | .memErrRead r seq => Sys2Proof.Machine.execMemErrRead r seq s
  | .memReinit r seq => Sys2Proof.Machine.execMemReinit r seq s
  | .ddrTrainingEnd c ok => Sys2Proof.Machine.execDdrTrainingEnd c ok s
  | .ddrTrackTimer c => Sys2Proof.Machine.execDdrTrackTimer c s
  | .ddrRefreshDue c rank hot => Sys2Proof.Machine.execDdrRefreshDue c rank hot s
  | .ddrCommandSlot c arrivals leads => Sys2Proof.Machine.execDdrCommandSlot c arrivals leads s
  | .ddrActTableClear => Sys2Proof.Machine.execDdrActTableClear s
  | .ddrReadReturn c addr reader ue => Sys2Proof.Machine.execDdrReadReturn c addr reader ue s
  | .ddrScrubRead c addr ce ue => Sys2Proof.Machine.execDdrScrubRead c addr ce ue s
  | .sramcBankCtrlWrite n value => Sys2Proof.Machine.execSramcBankCtrlWrite n value s
  | .bankClearEnd n => Sys2Proof.Machine.execBankClearEnd n s
  | .bankWakeEnd n => Sys2Proof.Machine.execBankWakeEnd n s
  | .screeRegionStart n fails => Sys2Proof.Machine.execScreeRegionStart n fails s
  | .sramReadError n offset ue st => Sys2Proof.Machine.execSramReadError n offset ue st s
  | .powerOn => Sys2Proof.Machine.execPowerOn s
  | .powerRemoved => Sys2Proof.Machine.execPowerRemoved s
  | .railGoodChange n mv => Sys2Proof.Machine.execRailGoodChange n mv s
  | .railQualEnd n riseUs => Sys2Proof.Machine.execRailQualEnd n riseUs s
  | .railRiseTimeout n => Sys2Proof.Machine.execRailRiseTimeout n s
  | .railBelowOff n => Sys2Proof.Machine.execRailBelowOff n s
  | .railFallTimeout n => Sys2Proof.Machine.execRailFallTimeout n s
  | .railRunFault n => Sys2Proof.Machine.execRailRunFault n s
  | .railWarnEnd n => Sys2Proof.Machine.execRailWarnEnd n s
  | .bootRailRetry => Sys2Proof.Machine.execBootRailRetry s
  | .pwrRailConfig r seq => Sys2Proof.Machine.execPwrRailConfig r seq s
  | .pwrRailOn r seq => Sys2Proof.Machine.execPwrRailOn r seq s
  | .pwrRailOff r seq => Sys2Proof.Machine.execPwrRailOff r seq s
  | .pwrDomain r seq => Sys2Proof.Machine.execPwrDomain r seq s
  | .domainSettled k => Sys2Proof.Machine.execDomainSettled k s
  | .pwrReinit r seq => Sys2Proof.Machine.execPwrReinit r seq s
  | .pfwAssert => Sys2Proof.Machine.execPfwAssert s
  | .pfwBudgetEnd => Sys2Proof.Machine.execPfwBudgetEnd s
  | .pfwRelease => Sys2Proof.Machine.execPfwRelease s
  | .srstStretchEnd k => Sys2Proof.Machine.execSrstStretchEnd k s
  | .srstPulse k value => Sys2Proof.Machine.execSrstPulse k value s
  | .hkRound ext int => Sys2Proof.Machine.execHkRound ext int s
  | .pllUpdate k value => Sys2Proof.Machine.execPllUpdate k value s
  | .pllLock k => Sys2Proof.Machine.execPllLock k s
  | .pllLossOfLock k => Sys2Proof.Machine.execPllLossOfLock k s
  | .pllRefLoss => Sys2Proof.Machine.execPllRefLoss s
  | .pllRefReturn => Sys2Proof.Machine.execPllRefReturn s
  | .clkoutCfgWrite k value => Sys2Proof.Machine.execClkoutCfgWrite k value s
  | .colBridgeTimeout b => Sys2Proof.Machine.execColBridgeTimeout b s
  | .fwImageLoadEnd => Sys2Proof.Machine.execFwImageLoadEnd s
  | .bootOperational => Sys2Proof.Machine.execBootOperational s
  | .bootWatchdogExpire => Sys2Proof.Machine.execBootWatchdogExpire s
  | .bootImgGo value => Sys2Proof.Machine.execBootImgGo value s
  | .bootImgLoadEnd data => Sys2Proof.Machine.execBootImgLoadEnd data s
  | .perstRelease => Sys2Proof.Machine.execPerstRelease s
  | .faultRaise n => Sys2Proof.Machine.execFaultRaise n s
  | .faultLower n => Sys2Proof.Machine.execFaultLower n s
  | .faultWireError n => Sys2Proof.Machine.execFaultWireError n s
  | .wireSoundEnd n => Sys2Proof.Machine.execWireSoundEnd n s
  | .softTimerExpire n => Sys2Proof.Machine.execSoftTimerExpire n s
  | .quietExpire n => Sys2Proof.Machine.execQuietExpire n s
  | .lockstepMismatch => Sys2Proof.Machine.execLockstepMismatch s
  | .fwWatchdogExpire => Sys2Proof.Machine.execFwWatchdogExpire s
  | .fabricParityRefuse region hop again => Sys2Proof.Machine.execFabricParityRefuse region hop again s
  | .fltConfig r seq => Sys2Proof.Machine.execFltConfig r seq s
  | .fltRead r seq => Sys2Proof.Machine.execFltRead r seq s
  | .fltClear r seq => Sys2Proof.Machine.execFltClear r seq s
  | .fltInject r seq => Sys2Proof.Machine.execFltInject r seq s
  | .fltInjectEnd r seq => Sys2Proof.Machine.execFltInjectEnd r seq s
  | .fltReinit r seq => Sys2Proof.Machine.execFltReinit r seq s
  | .wearDailySample values => Sys2Proof.Machine.execWearDailySample values s
  | .wearRead r seq => Sys2Proof.Machine.execWearRead r seq s
  | .wearPredict r seq => Sys2Proof.Machine.execWearPredict r seq s
  | .wearReinit r seq => Sys2Proof.Machine.execWearReinit r seq s
  | .diagEcho r seq => Sys2Proof.Machine.execDiagEcho r seq s
  | .diagLoopback r seq => Sys2Proof.Machine.execDiagLoopback r seq s
  | .diagLoopbackEnd r seq errors lock => Sys2Proof.Machine.execDiagLoopbackEnd r seq errors lock s
  | .diagTrace r seq => Sys2Proof.Machine.execDiagTrace r seq s
  | .diagMemtest r seq => Sys2Proof.Machine.execDiagMemtest r seq s
  | .diagReinit r seq => Sys2Proof.Machine.execDiagReinit r seq s
  | .encoderSignalRestore e a b => Sys2Proof.Machine.execEncoderSignalRestore e a b s
  | .hlHalertRelease port => Sys2Proof.Machine.execHlHalertRelease port s
  | .hlRxFrameDiscard port => Sys2Proof.Machine.execHlRxFrameDiscard port s
  | .ptpDelayReqReceive k port m => Sys2Proof.Machine.execPtpDelayReqReceive k port m s
  | .diagMemtestEnd r seq failing => Sys2Proof.Machine.execDiagMemtestEnd r seq failing s
  | .fwWriteProgrammed ok => Sys2Proof.Machine.execFwWriteProgrammed ok s

end Sys2Proof.Machine
end

