-- ==== Sys2Proof/Safety.lean ====
section
/-! DEFINITION. The notions the statements use: a settled state, canonical memories, a packet that is ready to run, and what
completing a packet may change. -/

namespace Sys2Proof

open Machine

/-- No raise or lower of a fault source waits for the collector: true between commands (log entry 19). -/
abbrev Settled (s : State) : Prop := s.dev.flt.todo = []

/-- Both byte-addressed memories are in canonical form. -/
abbrev MemWf (s : State) : Prop := Memory.wf sramDefault s.mem.sram = true ∧ Memory.wf flashDefault s.mem.flash = true

/-- Every byte listed of the on-chip memories lies in one of the twelve banks. -/
abbrev SramIn (s : State) : Prop := s.mem.sram.all (fun c => decide (c.1 < 12 * bankBytes)) = true

/-- The invariant every step keeps: the collector is settled, the memories are canonical and the on-chip bytes exist. -/
abbrev Inv (s : State) : Prop := Settled s ∧ MemWf s ∧ SramIn s

/-- Packet p of opcode op has started and its row may execute it now: commands run (R172), p is the packet in progress that
its group's order lets go next (R135), and p carries no trigger or its trigger has fired (R136). -/
abbrev Ready (op : Nat) (p : Packet) (s : State) : Prop :=
  Settled s ∧ s.dev.commandsRun = true ∧ s.dev.runnable op p.ref = some p ∧ (p.trigKind = 0 ∨ p.triggered = true)

/-- The device with what completing a packet may change taken from d': the rings, the mailbox, SYS_IRQ_PENDING and the
trace. -/
def Dev.ringed (d d' : Dev) : Dev :=
  { d with rings := d'.rings, sys := { d.sys with mbox := d'.sys.mbox, irqPending := d'.sys.irqPending }, out := d'.out }

/-- Command c is answered with a next state t of which P holds. -/
def Goes (c : Instr) (s : State) (P : State → Prop) : Prop := ∃ t, exec c s = .next t ∧ P t

/-- State t is s with device d: memories and queue are as they were. -/
def Only (d : Dev) (s t : State) : Prop := t = { s with dev := d }

/-- Packet p has completed with these fields since s: on a ring that is not an Ethernet ring its completion is in the trace
(R97, R107). -/
def Completed (p : Packet) (st : Status) (result aux : Nat) (s t : State) : Prop :=
  (s.dev.ring p.ring).source ≠ 1 → ∃ pre, t.dev.out = pre ++ s.dev.out ∧
    ∃ c : Cpl, Out.cpl c ∈ pre ∧ c.ring = p.ring ∧ c.seq = p.seq ∧ c.status = st ∧ c.result = result ∧ c.aux = aux

/-- The row c of packet p's opcode is answered with a next state in which p has completed with these fields, and Q holds. -/
def Does (c : Instr) (p : Packet) (st : Status) (result aux : Nat) (s : State) (Q : State → Prop) : Prop :=
  Goes c s fun t => Completed p st result aux s t ∧ Q t

/-- State t is s after a cold reset with this cause of SYS_RESET_CAUSE: the on-chip memories are empty, what lies in flash and
fuses stays, and the boot rails start (R743, R780, R781, R816, R874). -/
def ColdBooted (cause : Nat) (s t : State) : Prop :=
  t.pending = s.pending ∧ t.mem = { s.mem with sram := [] } ∧ t.dev.sys.powered = true ∧ t.dev.sys.resetCause = cause ∧
  t.dev.sys.perstReleased = s.dev.sys.perstReleased ∧
  t.dev.sys.failedStarts = (if cause = 1 then 0 else s.dev.sys.failedStarts) ∧
  t.dev.flt.log = (if cause = 1 then [] else (s.dev.logEvent 0xFF 6).flt.log) ∧ Settled t ∧
  t.dev.imp.ring = s.dev.imp.ring ∧ t.dev.hl.fuses = s.dev.hl.fuses ∧ t.dev.wear.saved = s.dev.wear.saved ∧
  ∃ d : Dev, d.pwr = Pwr.reset ∧ t.dev = d.bootRails

/-- State t is s after a start that failed: it is counted with its stage, a slot on trial gives way, and the device starts again
or, at the third failure in a row, is in Saddle mode (R793, R798, R828, R874). -/
def StartFailed (s t : State) : Prop :=
  let x := s.dev.sys
  t.pending = s.pending ∧ t.mem.sram = [] ∧ t.dev.flt.todo = s.dev.flt.todo ∧
  t.mem.flash = s.mem.dropTrial.flash ∧
  t.dev.time.tb2 = s.dev.time.tb2 ∧ t.dev.sys.resetCause = 9 ∧ t.dev.sys.failedStarts = min 15 (x.failedStarts + 1) ∧
  t.dev.sys.startStages = (x.stage.code :: x.startStages).take 3 ∧
  (if 3 ≤ min 15 (x.failedStarts + 1) then t.dev.sys.stage = .saddle ∧ t.dev.sys.saddleReason = x.failReason
   else t.dev.sys.stage = (if x.stage = .rails ∨ x.stage = .rom then x.stage
     else if (s.dev.pll 0).locked && (s.dev.pll 1).locked then .ddrTrain else .clocks))

end Sys2Proof
end

