-- ==== Sys2Proof/Certificates/Slice0/Obligations.lean ====
section
/-! DEFINITION. The statements for the provers: one obligation each, over the model and the notions of Safety. -/

open Sys2Proof Sys2Proof.Machine

/-- A step runs the command at the front of the queue with the queue's rest; on an empty queue 40 ns pass (log entry
23) (R562, R563). -/
def Obligations.StepRunsTheFrontCommand : Prop :=
  ∀ s : State,
    (∀ c rest, s.pending = c :: rest → step s = exec c { s with pending := rest }) ∧
    (s.pending = [] → s.dev.sys.powered = false → step s = .next s) ∧
    (s.pending = [] → s.dev.sys.powered = true → ∃ t, step s = .next t ∧
      t.dev.time.tb2 = s.dev.time.tb2 + 40 * 2 ^ 16 ∧
      (∀ k, t.dev.tb k = if k < 2 then { s.dev.tb k with t := (s.dev.tb k).t + 40 * 2 ^ 16 * (2 ^ 40 + (s.dev.tb k).y) }
        else s.dev.tb k) ∧
      t.dev.time = { s.dev.time with tb2 := t.dev.time.tb2, tb := t.dev.time.tb } ∧
      Only { s.dev with time := t.dev.time } s t)

/-- After reset the collector is settled, both memories are in canonical form, nothing is listed and no command waits
(R716, R785). -/
def Obligations.InvariantHoldsAtReset : Prop :=
  Inv State.reset ∧ State.reset.pending = [] ∧ State.reset.mem.sram = [] ∧ State.reset.mem.flash = [] ∧ sramDefault = 0

/-- Every step of every state keeps the memories in canonical form, the on-chip bytes within their banks and the
collector settled (R716, R785, R807, R881). -/
def Obligations.EveryStepKeepsTheInvariant : Prop :=
  ∀ s t : State, Inv s → step s = .next t → Inv t

/-- Every command answers a next state in every state, and leaves the commands that wait as they are (R806, R807,
R870). -/
def Obligations.EveryCommandCompletesAndKeepsTheQueue : Prop :=
  ∀ (c : Instr) (s : State), ∃ t, exec c s = .next t ∧ t.pending = s.pending ∧ (Settled s → Settled t)

/-- Without power every command but POWER_ON, POWER_REMOVED and PERST_RELEASE leaves the whole state as it is (R30,
R780, R795, R806, R870). -/
def Obligations.NothingHappensWithoutPower : Prop :=
  ∀ (c : Instr) (s : State), s.dev.sys.powered = false → c ≠ .powerOn → c ≠ .powerRemoved → c ≠ .perstRelease →
    exec c s = .next s

/-- After POWER_ON, and in the state after reset, the units hold the values the spec gives for power-on (R160, R418,
R505, R526, R540, R558, R560, R563, R564, R571, R606, R737). -/
def Obligations.PowerOnLeavesTheStatedValues : Prop :=
  let P (d : Dev) : Prop :=
    (d.time.tb2 = 0 ∧ ∀ k, let b := d.tb k;
      b.t = 0 ∧ b.y = 0 ∧ b.st = .host ∧ b.enable = false ∧ b.slaveOnly = true ∧ b.prio1 = 128 ∧ b.prio2 = 128 ∧
      b.clockClass = 248 ∧ b.logSync = -3 ∧ b.logAnnounce = 0 ∧ b.logDelay = -3 ∧ b.annTimeout = 3 ∧ b.kp = 179 ∧ b.ki = 77 ∧
      b.lockNs = 100 ∧ b.stepNs = 1000 ∧ b.slewPpm = 100) ∧
    (let f := d.fire;
      f.bwHz = 200 ∧ f.zeta = 181 ∧ f.lpi = 1200 ∧ f.revTol = 4 ∧ f.stillUs = 100000 ∧ f.minRate = 2363 ∧ f.resumeRate = 2510) ∧
    (∀ p, let h := d.hp p;
      h.st = .down ∧ h.authReq = false ∧ h.hvFf = true ∧ h.autoRetrain = true ∧ h.sendAhead = 12 ∧ h.hrstMs = 20) ∧
    (let x := d.sched;
      x.headMw = 0xFFFFFFFF ∧ x.dryerMw = 0xFFFFFFFF ∧ x.maxSpacing = 4096 ∧ x.vMin = 0 ∧ x.vMax = 60 ∧ x.slackLow = 8 ∧
      x.slackHigh = 48 ∧ x.throttleC = 95 ∧ x.limitC = 103 ∧ x.shedIn = [950, 930, 910, 890, 870, 850, 800] ∧
      x.shedCm = [-10, -15, -20, -25, -30, -40, -60]) ∧
    (∀ p, let m := d.pmodel p;
      m.eDrop = [0, 0, 0, 0, 0, 0, 0] ∧ m.vol = [0, 0, 0, 0, 0, 0, 0] ∧ m.heaterLoop = 255 ∧ m.pumpLoop = 255 ∧
      m.warnT = 60 * 16 ∧ m.critT = 65 * 16 ∧ m.resumeT = 55 * 16) ∧
    (∀ z, (d.zone z).mask = 0) ∧
    (∀ a, (d.axis a).lim = { vMax := 51200, aMax := 512000, dMax := 512000, jMax := 5120000 } ∧
      (d.axis a).softMin = -2 ^ 39 ∧ (d.axis a).softMax = 2 ^ 39 - 1) ∧
    (let r := d.ddr;
      r.periodH = 24 ∧ r.scrubEn = true ∧ r.threshold = 2048 ∧ r.panicLow = 16 ∧ r.panicHigh = 24 ∧ r.trackMs = 100)
  P State.reset.dev ∧ (∀ s, Goes .powerOn s fun t => P t.dev) ∧
  (let g := State.reset.dev.rings;
   g.ethWindow = 64 ∧ g.rtoMs = 2 ∧ g.maxTries = 8 ∧ g.udpPort = 61709)

/-- After a power cycle every density entry holds a gain of 1,024 and an offset of 0 (R294). -/
def Obligations.PowerCycleLeavesEveryDensityEntryAtUnity : Prop :=
  let P (t : State) : Prop := ∀ st position, (t.dev.sst st).densityPend = none ∧
    Tab.get Density.reset (t.dev.sst st).density position = { gain := 1024, offset := 0 }
  (∀ s, Goes .powerOn s P) ∧
  (∀ s, s.dev.on 0 = true → s.dev.pwr.offHold = true → Goes .cycleOffExpire s P)

/-- IRQ_n is asserted while a bit is set both in SYS_IRQ_PENDING and in SYS_IRQ_PIN_MASK, which is RW and all zero
after reset (R168). -/
def Obligations.IrqPinFollowsPendingAndMask : Prop :=
  (∀ d : Dev, d.irqAsserted = true ↔ ∃ v, d.sys.irqPending.testBit v = true ∧ d.sys.irqMask.testBit v = true) ∧
  (∀ (s : State) (path : Path) (v : BitVec 32), s.dev.sys.powered = true → path ≠ .mspi → Settled s →
    let lo := s.dev.sys.irqMask % 2 ^ 32
    let hi := s.dev.sys.irqMask / 2 ^ 32 % 2 ^ 32
    (Goes (.registerWrite path 0x108 v) s fun t => t.regValue 0x108 = v.toNat ∧
      Only { s.dev with sys := { s.dev.sys with irqMask := v.toNat + 2 ^ 32 * hi } } s t) ∧
    (Goes (.registerWrite path 0x10C v) s fun t => t.regValue 0x10C = v.toNat ∧
      Only { s.dev with sys := { s.dev.sys with irqMask := lo + 2 ^ 32 * v.toNat } } s t)) ∧
  (State.reset.dev.sys.irqMask = 0 ∧ (∀ s, Goes .powerOn s fun t => t.dev.sys.irqMask = 0) ∧
    ∀ (c : Nat) (d : Dev), d.sched.stopping = false → d.goingDown = false →
      (d.sys.stage = .operational ∨ d.sys.stage = .fwInit ∨ d.sys.stage = .saddle ∨ d.sys.stage = .noImage) →
      (d.warmReset c).sys.irqMask = 0)

/-- Power-on, the clocks, the watchdog and the ends of stops and cycles start the device as the spec says (R743, R764,
R772, R780, R781, R782, R794, R795, R798, R828, R540, R545). -/
def Obligations.ResetAndStartEventsBootTheDevice : Prop :=
  (∀ s, Goes .powerOn s (ColdBooted 1 s)) ∧
  (∀ s, Goes .powerRemoved s fun t => t.dev.sys.powered = false ∧ (∀ k, t.dev.on k = false) ∧ t.mem = { s.mem with sram := [] } ∧
    t.dev.imp.ring = s.dev.imp.ring ∧ t.dev.hl.fuses = s.dev.hl.fuses ∧ t.dev.wear.saved = s.dev.wear.saved ∧
    t.dev.sys.perstReleased = s.dev.sys.perstReleased ∧ t.pending = s.pending) ∧
  (∀ s, exec .perstRelease s = .next (s.onDev fun d => { d with sys := { d.sys with perstReleased := true, pcieUp := d.on 8 } })) ∧
  (∀ s : State, Settled s → s.dev.on 0 = true →
    (∀ k, ∃ u : State, u.pending = s.pending ∧ u.mem = s.mem ∧
      u.dev = (if (s.dev.pll k).refLost then s.dev
        else (s.dev.modPll k fun x => { x with locked := true, bypass := false }).lower (242 + k)) ∧
      (¬(u.dev.sys.stage = .clocks ∧ (u.dev.pll 0).locked = true ∧ (u.dev.pll 1).locked = true) →
        exec (.pllLock k) s = .next u.settle) ∧
      (u.dev.sys.stage = .clocks → (u.dev.pll 0).locked = true → (u.dev.pll 1).locked = true →
        ∃ v : State, exec (.pllLock k) s = .next v.settle ∧ v.dev.sys.stage = .ddrTrain ∧ v.mem = { s.mem with sram := [] } ∧
          v.dev.flt = u.dev.flt ∧ v.dev.banks = [] ∧ v.dev.sys.pcieUp = s.dev.sys.perstReleased ∧
          v.dev.sys.addr = s.mem.calAddr.getD 0 ∧ ∀ j, 1 ≤ j → j ≤ 11 → v.dev.dom j = .on)) ∧
    (let idle := s.dev.sys.stage = .operational ∨ s.dev.sys.stage = .saddle ∨ s.dev.sys.stage = .noImage ∨
        s.dev.goingDown = true ∨ s.dev.pwr.offHold = true;
      (idle → exec .bootWatchdogExpire s = .next s) ∧ (¬idle → Goes .bootWatchdogExpire s (StartFailed s))) ∧
    (s.dev.pwr.pfwLow = false → exec .pfwRelease s = .next s) ∧
    (s.dev.pwr.pfwLow = true →
      let u : State := s.onDev fun d => ({ d with pwr := { d.pwr with pfwLow := false } }).lower 241
      (s.dev.sched.stage ≠ 7 → exec .pfwRelease s = .next u.settle) ∧
      (s.dev.sched.stage = 7 → Goes .pfwRelease s (ColdBooted 3 u.settle))) ∧
    (let k := s.dev.sched.stage
      let timed : Bool := s.dev.pwr.timedDue || s.dev.pwr.cycling
      let u : State := s.onDev fun d => ({ d with sched := { d.sched with stage := k - 1 } }).shedMotors
      (k = 0 ∨ s.dev.stageClear k = false → exec .shedStageClear s = .next s) ∧
      (timed = true → ¬(k = 7 ∧ s.dev.pwr.cycling = false ∧ s.dev.pwr.pfwLow = false) → exec .shedStageClear s = .next s) ∧
      (timed = true → k = 7 → s.dev.pwr.cycling = false → s.dev.pwr.pfwLow = false → s.dev.stageClear k = true →
        Goes .shedStageClear s (ColdBooted 3 s)) ∧
      (timed = false → s.dev.stageClear k = true →
        (1 < k → exec .shedStageClear s = .next u.settle) ∧
        (k = 1 → u.dev.sys.stage = .rom → exec .shedStageClear s = .next (u.coldBoot 3).settle) ∧
        (k = 1 → u.dev.sys.stage ≠ .rom → u.dev.sched.stopDone = true →
          exec .shedStageClear s = .next (State.settle (u.onDev (Dev.warmReset 6)))) ∧
        (k = 1 → u.dev.sys.stage ≠ .rom → u.dev.sched.stopDone = false → exec .shedStageClear s = .next u.settle))) ∧
    (s.dev.pwr.offHold = false → exec .cycleOffExpire s = .next s) ∧
    (s.dev.pwr.offHold = true → Goes .cycleOffExpire s (ColdBooted 2 s)))

/-- The end of SDRAM training, the images and the start of the firmware have the effect the spec gives them (R702,
R786, R787, R793, R794, R796, R797, R828, R833). -/
def Obligations.BootTrainsLoadsAndStartsTheFirmware : Prop :=
  ∀ s : State, Settled s →
    (s.dev.on 7 = true → ∀ c ok,
      (s.dev.sys.stage ≠ .ddrTrain → exec (.ddrTrainingEnd c ok) s = .next (State.settle (s.onDev (Dev.retrained c ok)))) ∧
      (s.dev.sys.stage = .ddrTrain → (s.dev.dch c).st ≠ .training → exec (.ddrTrainingEnd c ok) s = .next s) ∧
      (s.dev.sys.stage = .ddrTrain → (s.dev.dch c).st = .training →
        Goes (.ddrTrainingEnd c true) s (fun t => t.dev.dch c = { s.dev.dch c with st := .serving } ∧
          (∀ k, k ≠ c → t.dev.dch k = s.dev.dch k) ∧
          t.dev.sys = { s.dev.sys with stage :=
            if (List.range s.dev.ddr.channels).all (fun k => (t.dev.dch k).st = .serving) then .fwLoad else .ddrTrain } ∧
          Only { s.dev with ddr := t.dev.ddr, sys := t.dev.sys } s t) ∧
        Goes (.ddrTrainingEnd c false) s (StartFailed (State.settle (s.onDev fun d =>
          (d.modDch c (fun x => { x with st := .failed, trainFail := true })).raise (204 + c) 0))))) ∧
    (s.dev.on 0 = true →
      (let go := s.dev.sys.stage = .fwLoad ∨ (s.dev.sys.stage = .fwInit ∧ s.mustReload = true)
       let noImage (e : Nat) : State → Prop := fun t => t.mem = s.mem ∧ t.pending = s.pending ∧ t.dev.sys.stage = .noImage ∧
          t.dev.sys.saddleReason = 1 ∧ t.dev.sys.bootErr = e ∧ t.dev.flt.todo = [] ∧ ∃ l, t.dev.out = .msix 1 :: l
       (¬go → exec .fwImageLoadEnd s = .next s) ∧
       (go → (s.mem.directory = none → Goes .fwImageLoadEnd s (noImage 1)) ∧ ∀ dir, s.mem.directory = some dir →
          (∀ k, (k = dir.active ∧ s.mem.slotOk (dir.slot k) = true) ∨
              (k = 1 - dir.active ∧ s.mem.slotOk (dir.slot dir.active) = false ∧ s.mem.slotOk (dir.slot k) = true) →
            exec .fwImageLoadEnd s = .next (s.onDev fun d => { d with sys := { d.sys with
              stage := .fwInit, slotLoaded := k, trialLoaded := dir.trial && k = dir.active, bootErr := 0, saddleReason := 0,
              fwVersion := (s.mem.image (dir.slot k)).elim 0 imageVersion } })) ∧
          (s.mem.slotOk (dir.slot dir.active) = false → s.mem.slotOk (dir.slot (1 - dir.active)) = false →
            Goes .fwImageLoadEnd s (noImage (s.mem.slotErr (dir.slot dir.active)))))) ∧
      (¬(s.dev.sys.stage = .fwInit ∧ s.mustReload = false) → exec .bootOperational s = .next s) ∧
      (s.dev.sys.stage = .fwInit → s.mustReload = false →
        let m : Mems := match s.mem.directory with
          | some d => if d.trial then s.mem.writeDirectory { d with trial := false } else s.mem
          | none => s.mem
        let x : Sys := { s.dev.sys with
          stage := .operational, failedStarts := 0, warmStarting := false, lockstepSeen := false, saddleReason := 0,
          trialLoaded := false }
        (s.dev.sys.warmStarting = false → Goes .bootOperational s fun t =>
          t.mem = m ∧ t.dev.sys = { x with irqPending := x.irqPending ||| 2 ^ 1 } ∧ t.dev.imp = { s.dev.imp with scanning := true } ∧
          t.dev.wear = s.dev.loadWear.wear ∧ t.dev.out = .msix 1 :: s.dev.out ∧
          Only { s.dev with sys := t.dev.sys, imp := t.dev.imp, wear := t.dev.wear, out := t.dev.out } { s with mem := m } t) ∧
        (s.dev.sys.warmStarting = true → exec .bootOperational s = .next (State.settle
          { s with mem := m, dev := (Dev.warmResume { s.dev with sys := x }).msix 1 }))) ∧
      (∀ v : BitVec 32,
        let go := v.toNat % 2 = 1 ∧ (s.dev.sys.stage = .saddle ∨ s.dev.sys.stage = .noImage) ∧ s.dev.sys.bootLoading = false
        (¬go → exec (.bootImgGo v) s = .next s) ∧
        (go → s.dev.dom 7 ≠ .on → exec (.bootImgGo v) s = .next (s.onDev fun d => { d with sys := { d.sys with bootErr := 5 } })) ∧
        (go → s.dev.dom 7 = .on → exec (.bootImgGo v) s = .next (s.onDev fun d => { d with
          sys := { d.sys with bootLoading := true, bootErr := 0 },
          out := .hostRead (d.sys.bootImgLo + 2 ^ 32 * d.sys.bootImgHi) d.sys.bootImgLen :: d.out }))) ∧
      (∀ data,
        let sized (b : List Nat) : Prop := b.length = s.dev.sys.bootImgLen ∧ leNat ((b.drop 8).take 4) + 256 = b.length
        let fails (e : Nat) : State := s.onDev fun d => { d with sys := { d.sys with bootLoading := false, bootErr := e } }
        (s.dev.sys.bootLoading = false → exec (.bootImgLoadEnd data) s = .next s) ∧
        (s.dev.sys.bootLoading = true →
          (data = none → exec (.bootImgLoadEnd data) s = .next (fails 4)) ∧
          ∀ b, data = some b →
            (¬sized b → exec (.bootImgLoadEnd data) s = .next (fails 3)) ∧
            (sized b → imageOk b = false → exec (.bootImgLoadEnd data) s = .next (fails 2)) ∧
            (sized b → imageOk b = true → Goes (.bootImgLoadEnd data) s fun t =>
              t.dev.sys = { s.dev.sys with
                bootLoading := false, bootErr := 0, stage := .fwInit, saddleReason := 0, fwVersion := imageVersion b,
                warmStarting := false } ∧
              (∀ k, t.dev.dom k = if 1 ≤ k ∧ k ≤ 11 then .on else s.dev.dom k) ∧
              Only { s.dev with sys := t.dev.sys, pwr := t.dev.pwr } s t))))

/-- SYS_WARM_RESET, SYS_POWER_CYCLE and the firmware commands have the effect the spec gives them (R780, R782, R786,
R790, R791, R792, R827, R831, R833). -/
def Obligations.SystemCommandsResetAndWriteFirmware : Prop :=
  ∀ (s : State) (p : Packet),
    (Ready 0x0005 p s →
      exec (.sysWarmReset p.ring p.seq) s = .next (State.settle (s.onDev fun d => (d.complete p.ref .done 0 0).warmReset 4)) ∧
      (s.dev.sched.stopping = true ∨ s.dev.goingDown = true →
        Does (.sysWarmReset p.ring p.seq) p .done 0 0 s fun t => Only (Dev.ringed s.dev t.dev) s t)) ∧
    (Ready 0x0006 p s →
      let g : Dev := if s.dev.sys.stage = .operational then s.dev else { s.dev with sys := { s.dev.sys with failedStarts := 0 } }
      (s.dev.sched.stopping = true ∨ s.dev.goingDown = true →
        Does (.sysPowerCycle p.ring p.seq) p .done 0 0 s fun t => Only (Dev.ringed g t.dev) s t) ∧
      (s.dev.sched.stopping = false → s.dev.goingDown = false → ∃ e : Dev, e = Dev.ringed g e ∧
        (Completed p .done 0 0 s { s with dev := e }) ∧
        exec (.sysPowerCycle p.ring p.seq) s = .next (State.settle { s with dev :=
          ({ e with pwr := { e.pwr with cycling := true } }).orderlyStop }))) ∧
    (Ready 0x0007 p s → chkSysFwWrite p s.dev = none →
      let k := p.fld 0 0 2
      let reg := s.mem.fwRegion k
      let data := p.payload.drop 16
      let past := reg.2 < p.fld 4 0 32 + data.length
      let active := s.dev.sys.stage = .operational ∧ s.mem.directory.any (fun d => d.active = k) = true
      (past → Does (.sysFwWrite p.ring p.seq) p .badField 0 0 s fun t => Only (Dev.ringed s.dev t.dev) s t) ∧
      (¬past → active → Does (.sysFwWrite p.ring p.seq) p .refused 0 0 s fun t => Only (Dev.ringed s.dev t.dev) s t) ∧
      (¬past → ¬active → exec (.sysFwWrite p.ring p.seq) s = .next (s.onDev fun d =>
        ({ d with diag := { d.diag with fw := some {
          ref := p.ref, addr := reg.1 + p.fld 4 0 32, erase := p.flag 0 2, len := reg.2, data := data } } }).executing p))) ∧
    (Settled s → s.dev.on 0 = true → MemWf s → ∀ ok,
      (s.dev.diag.fw = none → exec (.fwWriteProgrammed ok) s = .next s) ∧
      (∀ w, s.dev.diag.fw = some w → Goes (.fwWriteProgrammed ok) s fun t =>
        let base := w.base ((s.dev.packet? w.ref).elim 0 (fun p => p.fld 4 0 32))
        t.dev.diag.fw = none ∧ t.mem.sram = s.mem.sram ∧ MemWf t ∧ t.pending = s.pending ∧
        (∀ a, (a < w.addr ∨ w.addr + w.data.length ≤ a) → (w.erase = true → a < base ∨ base + w.len ≤ a) →
          Memory.read flashDefault t.mem.flash a = Memory.read flashDefault s.mem.flash a) ∧
        (∀ a, (a < w.addr ∨ w.addr + w.data.length ≤ a) → w.erase = true → base ≤ a → a < base + w.len →
          Memory.read flashDefault t.mem.flash a = flashDefault) ∧
        (ok = true → t.dev.free = s.dev.free) ∧
        (∀ q, s.dev.packet? w.ref = some q → q.ref = w.ref → ∃ st, Completed q st 0 0 s t ∧
          (st = .done ↔ (ok = true ∧ t.mem.flashBytes w.addr w.data.length = w.data)) ∧ (st = .done ∨ st = .writeError)))) ∧
    (Ready 0x0008 p s → chkSysFwActivate p s.dev = none →
      let k := p.fld 0 0 1
      (s.mem.directory = none ∨ (∃ d, s.mem.directory = some d ∧ s.mem.slotOk (d.slot k) = false) →
        Does (.sysFwActivate p.ring p.seq) p .signature 0 0 s fun t => Only (Dev.ringed s.dev t.dev) s t) ∧
      (∀ d, s.mem.directory = some d → s.mem.slotOk (d.slot k) = true →
        let g : Dev := if s.dev.sys.stage = .operational then s.dev else { s.dev with sys := { s.dev.sys with failedStarts := 0 } }
        let m := s.mem.writeDirectory { d with active := k, trial := true }
        (p.flag 0 1 = false → Does (.sysFwActivate p.ring p.seq) p .done 0 0 s fun t =>
          Only (Dev.ringed g t.dev) { s with mem := m } t) ∧
        (p.flag 0 1 = true → ∃ e : Dev, e = Dev.ringed g e ∧ Completed p .done 0 0 s { s with dev := e } ∧
          exec (.sysFwActivate p.ring p.seq) s = .next (State.settle { s with mem := m, dev := e.warmReset 8 }))))

/-- The rail events move a rail through its power-up and shutdown steps and record its failures (R743, R745, R751,
R752, R753, R759, R760, R801). -/
def Obligations.RailsRiseFallAndFailAsTheSequencerSays : Prop :=
  ∀ (s : State) (n : Nat), Settled s → s.dev.on 0 = true →
    let r := s.dev.rail n
    (∀ mv, let good := decide (r.uv < mv) && decide (mv < r.ov)
      let g : Dev → Dev := Dev.modRail n (fun r => { r with good := good })
      ((r.st = .rising ∨ r.st = .qualifying) → r.ov < mv →
        exec (.railGoodChange n mv) s = .next (State.settle (s.onDev fun d => (g d).railFails n 3))) ∧
      (r.st = .rising → ¬r.ov < mv → good = true →
        exec (.railGoodChange n mv) s = .next (s.onDev fun d => (g d).modRail n (fun r => { r with st := .qualifying }))) ∧
      (r.st = .qualifying → ¬r.ov < mv → good = false →
        let q : Dev → Dev := fun d => (g d).modRail n (fun r => { r with st := .rising, chatter := r.chatter + 1 })
        (r.chatter + 1 ≤ r.chatterLimit → exec (.railGoodChange n mv) s = .next (s.onDev q)) ∧
        (r.chatterLimit < r.chatter + 1 → exec (.railGoodChange n mv) s = .next (State.settle (s.onDev fun d => (q d).railFails n 2)))) ∧
      ((r.st ≠ .rising ∧ r.st ≠ .qualifying) ∨ (¬r.ov < mv ∧ ((r.st = .rising ∧ good = false) ∨ (r.st = .qualifying ∧ good = true))) →
        exec (.railGoodChange n mv) s = .next (s.onDev g))) ∧
    (∀ us, (r.st ≠ .qualifying → exec (.railQualEnd n us) s = .next s) ∧
      (r.st = .qualifying → exec (.railQualEnd n us) s = .next (s.onDev fun d =>
        (d.modRail n (fun r => { r with st := .up, riseUs := us % 2 ^ 32 })).seqGo))) ∧
    (r.st ≠ .rising → exec (.railRiseTimeout n) s = .next s) ∧
    (r.st = .rising → exec (.railRiseTimeout n) s = .next (State.settle (s.onDev fun d => d.railFails n 1))) ∧
    (r.st ≠ .falling → exec (.railBelowOff n) s = .next s ∧ exec (.railFallTimeout n) s = .next s) ∧
    (r.st = .falling → exec (.railBelowOff n) s = .next (s.onDev fun d =>
        (d.modRail n (fun r => { r with st := .off, good := false })).seqGo) ∧
      exec (.railFallTimeout n) s = .next (State.settle (s.onDev fun d =>
        (((d.railCause n 5).modRail n (fun r => { r with st := .off })).raise (225 + n) 0).seqGo))) ∧
    (let hit := r.st = .up ∧ r.good = false ∧ r.warning = false
      let g : Dev → Dev := fun d =>
        (((d.railCause n 4).modRail n (fun r => { r with fails := satInc 32 r.fails })).raise (209 + n) 0).msix 1
      (¬hit → exec (.railRunFault n) s = .next s) ∧
      (hit → r.failDevice = true → exec (.railRunFault n) s = .next (State.settle (s.onDev fun d => (g d).powerFail))) ∧
      (hit → r.failDevice = false → exec (.railRunFault n) s = .next (State.settle (s.onDev fun d =>
        (g d).modRail n (fun r => { r with warning := true }))))) ∧
    (r.warning = false → exec (.railWarnEnd n) s = .next s) ∧
    (r.warning = true → exec (.railWarnEnd n) s = .next (s.onDev fun d =>
      let d := d.modRail n (fun r => { r with warning := false })
      d.seqRequest { kind := .shutdown, mask := maskOf (d.enabledWith (2 ^ n)), ref := none })) ∧
    (¬(s.dev.pwr.bootRetry = true ∧ s.dev.pwr.seqKind = .idle) → exec .bootRailRetry s = .next s) ∧
    (s.dev.pwr.bootRetry = true → s.dev.pwr.seqKind = .idle → exec .bootRailRetry s = .next (s.onDev Dev.bootRails))

/-- The PWR rail commands have the effect the spec gives them (R115, R746, R749, R750, R754, R755, R756). -/
def Obligations.RailCommandsConfigureStartAndStopRails : Prop :=
  ∀ (s : State) (p : Packet),
    (Ready 0x0C00 p s → chkPwrRailConfig p s.dev = none → Does (.pwrRailConfig p.ring p.seq) p .done 0 0 s fun t =>
      t.dev.rail p.target = { s.dev.rail p.target with
        configured := true, order := p.fld 0 0 4, failDevice := p.flag 0 4, enActiveHigh := p.flag 0 5,
        chatterLimit := p.fld 1 0 4, prereq := p.fld 2 0 16, uv := p.fld 4 0 16, ov := p.fld 6 0 16, off := p.fld 8 0 16,
        qual := p.fld 10 0 16, riseMs := p.fld 12 0 16, fallMs := p.fld 14 0 16, en := false } ∧
      (∀ n, n ≠ p.target → t.dev.rail n = s.dev.rail n) ∧
      Only { Dev.ringed s.dev t.dev with pwr := t.dev.pwr } s t) ∧
    (Ready 0x0C01 p s → chkPwrRailOn p s.dev = none →
      (∀ st, s.dev.railOnEnds (p.fld 0 0 16) = some st →
        Does (.pwrRailOn p.ring p.seq) p st (s.dev.onResult (p.fld 0 0 16)) 0 s fun t => Only (Dev.ringed s.dev t.dev) s t) ∧
      (s.dev.railOnEnds (p.fld 0 0 16) = none → exec (.pwrRailOn p.ring p.seq) s = .next (s.onDev fun d =>
        (d.executing p).seqRequest { kind := .powerUp, mask := p.fld 0 0 16, ref := some p.ref }))) ∧
    (Ready 0x0C02 p s → chkPwrRailOff p s.dev = none → ∃ g : Dev, g = { s.dev with pwr := g.pwr } ∧
      (∀ n, g.rail n = if n ∈ railsOf (p.fld 0 0 16) ∧ (s.dev.rail n).st = .failed then { s.dev.rail n with st := .off }
        else s.dev.rail n) ∧
      (g.enabledWith (p.fld 0 0 16) = [] →
        Does (.pwrRailOff p.ring p.seq) p .doneEmpty 0 0 s fun t => Only (Dev.ringed g t.dev) s t) ∧
      (g.enabledWith (p.fld 0 0 16) ≠ [] → exec (.pwrRailOff p.ring p.seq) s = .next (s.onDev fun _ =>
        (g.executing p).seqRequest { kind := .shutdown, mask := maskOf (g.enabledWith (p.fld 0 0 16)), ref := some p.ref }))) ∧
    (Ready 0x0CFF p s → Goes (.pwrReinit p.ring p.seq) s fun t =>
      t.dev.sched = { s.dev.sched with avsBusy := [], avsErrRun := 0 } ∧
      t.dev.pwr = { s.dev.pwr with seqWaiting := s.dev.pwr.seqWaiting.filter (fun q => !(q.kind = .powerUp)) } ∧
      Only { Dev.ringed s.dev t.dev with sched := t.dev.sched, pwr := t.dev.pwr } s t)

/-- PWR_DOMAIN switches a domain, and the power-fail, reset-output and ADC events have the effect the spec gives
(R747, R748, R762, R763, R764, R765, R766, R800, R540). -/
def Obligations.PowerDomainsSwitchAndSettle : Prop :=
  (∀ (s : State) (p : Packet), Ready 0x0C05 p s → chkPwrDomain p s.dev = none →
    (p.fld 0 0 2 = 2 → Does (.pwrDomain p.ring p.seq) p .done 0 0 s fun t =>
      t.dev.dom p.target = .off ∧ (∀ k, k ≠ p.target → t.dev.dom k = s.dev.dom k) ∧ t.dev.pwr.rails = s.dev.pwr.rails ∧
      (p.target = 9 → t.dev.time = { Time.reset with tb2 := s.dev.time.tb2 }) ∧
      (p.target = 10 → t.dev.hl = { Hl.reset with fuses := s.dev.hl.fuses, fuseDone := s.dev.hl.fuseDone }) ∧
      (p.target = 8 → t.dev.sys.pcieUp = false) ∧
      Only { Dev.ringed s.dev t.dev with pwr := t.dev.pwr, time := t.dev.time, hl := t.dev.hl, flt := t.dev.flt, sys := t.dev.sys } s t) ∧
    (p.fld 0 0 2 ≠ 2 → exec (.pwrDomain p.ring p.seq) s = .next (s.onDev fun d =>
      (d.modDom p.target fun _ => .reset).executing p))) ∧
  (∀ (s : State) (k : Nat), Settled s → s.dev.on 0 = true →
    let find := s.dev.rings.inflight.find? (fun p => p.op = 0x0C05 && p.target = k && p.phase = .executing)
    ((find = none ∨ s.dev.dom k ≠ .reset) → exec (.domainSettled k) s = .next s) ∧
    (∀ p, find = some p → s.dev.dom k = .reset → exec (.domainSettled k) s = .next (s.onDev fun d =>
      { (d.modDom k fun _ => .on) with sys :=
        if k = 8 then { d.sys with pcieUp := d.sys.perstReleased } else d.sys }.complete p.ref .done 0 0))) ∧
  (∀ s : State, Settled s → s.dev.on 0 = true →
    (¬(s.dev.pwr.pfwEn = true ∧ s.dev.pwr.pfwLow = false) → exec .pfwAssert s = .next s) ∧
    (s.dev.pwr.pfwEn = true → s.dev.pwr.pfwLow = false → exec .pfwAssert s = .next (State.settle (s.onDev fun d =>
      ((({ d with pwr := { d.pwr with pfwLow := true } }).raise 241 0).powerFail).msix 1))) ∧
    (¬(s.dev.sched.stopping = true ∧ s.dev.pwr.timedDue = true) → exec .pfwBudgetEnd s = .next s) ∧
    (s.dev.sched.stopping = true → s.dev.pwr.timedDue = true → exec .pfwBudgetEnd s = .next (s.onDev fun d =>
      ({ d with
        sched := { d.sched with stopping := false },
        imp := { d.imp with jobs := d.imp.jobs.filter (fun j => !(j.record.event = 3)) } }).timedShutdown)) ∧
    (∀ k, (¬((s.dev.srst k).asserted = true ∧ s.dev.srstHeld k = false) → exec (.srstStretchEnd k) s = .next s) ∧
      ((s.dev.srst k).asserted = true → s.dev.srstHeld k = false → exec (.srstStretchEnd k) s = .next (s.onDev fun d =>
        (d.modSrst k fun x => { x with asserted := false }).pin .srst k false))) ∧
    (∀ k (v : BitVec 32), exec (.srstPulse k v) s = .next (s.onDev fun d =>
      let g := (d.modSrst k fun x => { x with
        stretchMs := if bits v.toNat 0 10 = 0 then x.stretchMs else bits v.toNat 0 10, railMask := bits v.toNat 10 16,
        onWarm := bits v.toNat 26 1 = 1 }).updSrst
      if bits v.toNat 27 1 = 1 then (g.modSrst k fun x => { x with asserted := true }).pin .srst k true else g)) ∧
    (∀ ext int, exec (.hkRound ext int) s = .next (State.settle (s.onDev fun d =>
      ({ d with pwr := { d.pwr with hkExt := roundTab 32 ext, hkInt := roundTab 24 int } }).shedUpdate))))

/-- The PLL, clock-output and bridge events have the effect the spec gives them (R769, R770, R771, R772, R773, R774,
R775, R779). -/
def Obligations.ClocksLoseLockReturnAndTakeSettings : Prop :=
  ∀ (s : State), Settled s → s.dev.on 0 = true →
    (∀ k (v : BitVec 32),
      let g : Dev := s.dev.modPll k fun x => { x with lockCnt := bits v.toNat 16 16, aLock := bits v.toNat 16 16 }
      let x := g.pll k
      let refused := (k = 0 ∧ x.moves 10000 = true ∧ (List.range 16).any (fun p => !((g.hp p).st = .down)) = true) ∨
        (k = 1 ∧ (List.range 2).any (fun c => (g.dch c).st = .serving || (g.dch c).st = .training) = true)
      (2 ≤ k → exec (.pllUpdate k v) s = .next s) ∧
      (k < 2 → bits v.toNat 0 1 ≠ 1 → exec (.pllUpdate k v) s = .next { s with dev := g }) ∧
      (k < 2 → bits v.toNat 0 1 = 1 → refused →
        exec (.pllUpdate k v) s = .next (s.onDev fun _ => g.modPll k fun x => { x with updRefused := true })) ∧
      (k < 2 → bits v.toNat 0 1 = 1 → ¬refused →
        exec (.pllUpdate k v) s = .next (s.onDev fun _ => g.modPll k fun y => { y with
          aRef := y.refDiv, aFb := y.fbDiv, aFrac := y.frac, aOut := y.outDiv, locked := y.locked && !x.moves 200,
          bypass := y.bypass || x.moves 200 }))) ∧
    (∀ k, ((s.dev.pll k).locked = false → exec (.pllLossOfLock k) s = .next s) ∧
      ((s.dev.pll k).locked = true → exec (.pllLossOfLock k) s = .next (State.settle (s.onDev fun d =>
        (d.modPll k fun x => { x with locked := false, bypass := true, lolSeen := true }).raise (242 + k) 0)))) ∧
    (∃ g : Dev, g = { s.dev with clk := g.clk, flt := { s.dev.flt with todo := [(true, 242, 0), (true, 243, 0), (true, 246, 0)] } } ∧
      (∀ k, g.pll k = if k < 2 then { s.dev.pll k with locked := false, bypass := true, lolSeen := true, refLost := true }
        else s.dev.pll k) ∧
      exec .pllRefLoss s = .next (State.settle { s with dev := g })) ∧
    (∃ g : Dev, g = { s.dev with clk := g.clk, flt := { s.dev.flt with todo := [(false, 246, 0)] } } ∧
      (∀ k, g.pll k = if k < 2 then { s.dev.pll k with refLost := false } else s.dev.pll k) ∧
      exec .pllRefReturn s = .next (State.settle { s with dev := g })) ∧
    (∀ k (v : BitVec 32),
      let old := Tab.get 0 s.dev.clk.clkout k
      let bad := 4 ≤ k ∨ (bits old 12 1 = 1 ∧ bits old 0 12 ≠ bits v.toNat 0 12)
      (bad → exec (.clkoutCfgWrite k v) s = .next s) ∧
      (¬bad → Goes (.clkoutCfgWrite k v) s fun t =>
        Tab.get 0 t.dev.clk.clkout k = bits v.toNat 0 13 ∧
        (∀ j, j ≠ k → Tab.get 0 t.dev.clk.clkout j = Tab.get 0 s.dev.clk.clkout j) ∧
        t.dev.out = (if bits old 12 1 = bits v.toNat 12 1 then s.dev.out
          else .pin .clkout k (bits v.toNat 12 1 = 1) :: s.dev.out) ∧
        Only { s.dev with clk := { s.dev.clk with clkout := t.dev.clk.clkout }, out := t.dev.out } s t)) ∧
    (∀ b, exec (.colBridgeTimeout b) s = .next (State.settle (s.onDev fun d =>
      ({ d with clk := { d.clk with colBridge := b % 16, colSeen := true } }).raise 247 b)))

/-- The SDRAM channels' errors, scrubbing, refresh, slots and MEM commands have the effect the spec gives them (R703,
R704, R705, R708, R709, R710, R713, R714, R715, R734, R735). -/
def Obligations.SdramEventsAndCommandsDoWhatTheSpecSays : Prop :=
  (∀ s : State, Settled s → s.dev.on 7 = true → ∀ c : Nat,
    (∀ a reader, exec (.ddrReadReturn c a reader false) s = .next (State.settle (s.onDev fun d =>
      (d.modDch c fun x => if x.errUe then { x with ce := satInc 32 x.ce }
        else { x with ce := satInc 32 x.ce, errAddr := a, errRegion := d.ddr.regionOf a }).raise (200 + c) 0))) ∧
    (∀ a reader,
      let r := s.dev.ddr.regionOf a
      let u : State := s.onDev fun d => (d.modDch c fun x => { x with
        ue := satInc 32 x.ue, errAddr := a, errRegion := d.ddr.regionOf a, errUe := true, ueSeen := true }).raise (202 + c) 0
      let Ends (v : State) : Prop := exec (.ddrReadReturn c a reader true) s = .next v.settle
      (reader = .none → Ends u) ∧
      (∀ st, reader = .delay st → Ends (if r = 4 then u.onDev (Dev.spoilAll st 0x0B) else u)) ∧
      (∀ i j, reader = .lookahead i j → Ends (if r = 5 ∧ (s.dev.entry i).decode = .running then
        u.onDev (Dev.codecError i j { cause := .ecc, block := none, offset := 0, line := 0 }) else u)) ∧
      (∀ o, reader = .staging o → Ends (if r = 5 then u.onDev Dev.stagingFails else u)) ∧
      (∀ k, reader = .dma k → Ends (if r = 5 ∨ r = 2 then u.dmaFail k 5 false a [] else u)) ∧
      (∀ n q, reader = .payloadCopy n q → Ends (if r = 2 ∧ (s.dev.packet? (n, q)).any (fun p => p.phase = .payload) = true then
        u.onDev (Dev.complete (n, q) .eccUncorrectable 0 0) else u)) ∧
      (∀ st, reader = .capture st → r ≠ 3 → Ends u) ∧
      (∀ st, reader = .capture st → r = 3 → s.dev.codec.store.find? (fun x => x.stream = st) = none → Ends u) ∧
      (∀ st x, reader = .capture st → r = 3 → s.dev.codec.store.find? (fun x => x.stream = st) = some x →
        Ends (u.onDev fun d => ({ d with codec := { d.codec with store := d.codec.store.erase x } }).captureLost st)) ∧
      (reader = .journal → Ends (if r = 1 then u.onDev Dev.loseCairn else u)) ∧
      (reader = .firmware → Ends (if r = 0 then u.onDev (Dev.warmReset 7) else u))) ∧
    (∀ a ce ue,
      let mine (x : Scrub) : Bool := decide (x.pos ≤ a) && decide (a < x.pos + 8)
      let runs := (s.dev.dch c).st = .serving ∧ (s.dev.dch c).panicPorts = 0 ∧
        (s.dev.ddr.scrubEn = true ∨ s.dev.ddr.scrubs.any mine = true)
      (¬runs → exec (.ddrScrubRead c a ce ue) s = .next s) ∧
      (runs → exec (.ddrScrubRead c a ce ue) s = .next (State.settle (s.onDev fun d =>
        ((({ d with ddr := { d.ddr with scrubs := d.ddr.scrubs.map fun x => if mine x then { x with
          pos := x.pos + 8, ce := x.ce + b2n ce, ue := x.ue + b2n ue } else x } } : Dev).when ce (Dev.ddrCe c a)).when ue
          (Dev.ddrUe c a)).endScrubs)))) ∧
    (∀ rank hot,
      ((s.dev.dch c).st ≠ .serving → exec (.ddrRefreshDue c rank hot) s = .next s) ∧
      ((s.dev.dch c).st = .serving → Goes (.ddrRefreshDue c rank hot) s fun t =>
        (t.dev.dch c).refresh2x = hot ∧
        Tab.get 0 (t.dev.dch c).postponed rank = (if (s.dev.dch c).panicPorts = 0 then 0
          else min 4 (Tab.get 0 (s.dev.dch c).postponed rank + 1)) ∧
        (∀ j, j ≠ rank → Tab.get 0 (t.dev.dch c).postponed j = Tab.get 0 (s.dev.dch c).postponed j) ∧
        (∀ k, k ≠ c → t.dev.dch k = s.dev.dch k) ∧ Only { s.dev with ddr := t.dev.ddr } s t)) ∧
    ((s.dev.dch c).st ≠ .serving ∨ (s.dev.dch c).trackQueued = true → exec (.ddrTrackTimer c) s = .next s) ∧
    ((s.dev.dch c).st = .serving → (s.dev.dch c).trackQueued = false → ∀ id why d, s.dev.openAct 8 c 0 0 none = (id, why, d) →
      exec (.ddrTrackTimer c) s = .next (State.settle (s.onDev fun _ =>
        if why = none then d.pumpActs (d.sched.acts.length + 1)
        else d.modDch c fun x => { x with trackQueued := true, trackAct := id }))) ∧
    (Goes .ddrActTableClear s fun t => (∀ k, k < 2 → t.dev.dch k = { s.dev.dch k with acts := [] }) ∧
      (∀ k, 2 ≤ k → t.dev.dch k = s.dev.dch k) ∧ Only { s.dev with ddr := t.dev.ddr } s t) ∧
    (∀ arrivals leads,
      let d : Dev := (s.dev.ddrLeads c leads).modDch c fun x => arrivals.foldl DdrCh.arrive x
      ((s.dev.dch c).st ≠ .serving → exec (.ddrCommandSlot c arrivals leads) s = .next s) ∧
      ((s.dev.dch c).st = .serving → (d.dch c).pick = none →
        exec (.ddrCommandSlot c arrivals leads) s = .next { s with dev := d }) ∧
      (∀ q, (s.dev.dch c).st = .serving → (d.dch c).pick = some q →
        exec (.ddrCommandSlot c arrivals leads) s = .next { s with dev := d.ddrServe c q }))) ∧
  (∀ (s : State) (p : Packet),
    (Ready 0x0D01 p s → chkMemRetrain p s.dev = none → exec (.memRetrain p.ring p.seq) s = .next (State.settle (s.onDev
      fun d => d.startDeviceAct p 8 p.target (if p.flag 0 0 then 2 else 1)))) ∧
    (Ready 0x0DFF p s → chkMemReinit p s.dev = none → exec (.memReinit p.ring p.seq) s = .next (State.settle (s.onDev
      fun d => ((d.spoilEvery 0x0B).executing p).modDch p.target fun x => { x with
        reqs := [], wbuf := [], drain := false, openRow := [], hits := 0, st := .training, fullRetrain := true,
        retrainRef := some p.ref }))) ∧
    (Ready 0x0D02 p s → chkMemScrub p s.dev = none →
      let h := if p.flag 0 0 then p.fld 2 0 8 else s.dev.ddr.periodH
      (p.flag 0 1 = false → Does (.memScrub p.ring p.seq) p .done 0 0 s fun t =>
        Only { Dev.ringed s.dev t.dev with ddr := { s.dev.ddr with periodH := h } } s t) ∧
      (p.flag 0 1 = true → exec (.memScrub p.ring p.seq) s = .next (s.onDev fun d => { d.executing p with ddr := { d.ddr with
        periodH := h, scrubs := d.ddr.scrubs ++
          [{ Scrub.reset with ref := p.ref, pos := p.fld 8 0 40, stop := p.fld 8 0 40 + p.fld 16 0 40 }] } }))) ∧
    (Ready 0x0D04 p s → chkMemErrRead p s.dev = none →
      let x := s.dev.dch p.target
      let b := s.dev.bank (p.target - 16)
      (p.target < 16 → Does (.memErrRead p.ring p.seq) p .done (x.errAddr + 2 ^ 40 * b2n x.errUe) (min 65535 x.ce) s fun t =>
        t.dev.dch p.target = (if p.flag 0 0 then { x with errAddr := 0, errRegion := 0, errUe := false } else x) ∧
        (∀ k, k ≠ p.target → t.dev.dch k = s.dev.dch k) ∧ Only { Dev.ringed s.dev t.dev with ddr := t.dev.ddr } s t) ∧
      (¬p.target < 16 → Does (.memErrRead p.ring p.seq) p .done (b.errOff + 2 ^ 40 * b2n b.errUe) (min 65535 b.ce) s fun t =>
        t.dev.bank (p.target - 16) = (if p.flag 0 0 then { b with errOff := 0, errUe := false } else b) ∧
        (∀ k, k ≠ p.target - 16 → t.dev.bank k = s.dev.bank k) ∧
        Only { Dev.ringed s.dev t.dev with banks := t.dev.banks } s t)))

/-- Bank handovers, wakes, Scree and on-chip errors have the effect the spec gives them (R719, R720, R725, R728, R729,
R730, R731, R734, R735, R740). -/
def Obligations.BankEventsAndCommandsDoWhatTheSpecSays : Prop :=
  (∀ s : State, Settled s →
    (∀ n (v : BitVec 32),
      let owner := bits v.toNat 0 2
      let power := bits v.toNat 2 2
      let d := s.dev.modBank n fun b => { b with reqOwner := owner, reqPower := power }
      (s.dev.sramOn = false → exec (.sramcBankCtrlWrite n v) s = .next s) ∧
      (s.dev.sramOn = true → d.handSame n owner power = true →
        exec (.sramcBankCtrlWrite n v) s = .next (s.onDev fun _ => d)) ∧
      (s.dev.sramOn = true → d.handSame n owner power = false → d.handRefused n owner power true = true →
        exec (.sramcBankCtrlWrite n v) s = .next (s.onDev fun _ => d.modBank n fun b => { b with refused := true })) ∧
      (s.dev.sramOn = true → d.handSame n owner power = false → d.handRefused n owner power true = false →
        exec (.sramcBankCtrlWrite n v) s = .next (s.onDev fun _ =>
          if (d.bank n).owner = owner ∧ (d.bank n).power ≠ 2 then d.modBank n fun b => { b with power := power }
          else d.modBank n fun b => { b with busy := true, newOwner := owner, newPower := power }))) ∧
    (s.dev.on 6 = true → ∀ n,
      let b := s.dev.bank n
      (b.busy = false → exec (.bankClearEnd n) s = .next s) ∧
      (b.busy = true →
        let u : State := if b.owner = 2 ∧ b.newOwner ≠ 2 then s.bankLeaves n else s
        exec (.bankClearEnd n) s = .next (State.settle (State.onDev (fun d =>
            let e := (d.modBank n fun b => { b with
              busy := false, owner := b.newOwner, power := b.newPower, handRef := none, handAct := 0 }).complete? b.handRef .done 0 0
            if b.handAct = 0 then e else e.endAct b.handAct .done)
          { u with mem := { u.mem with sram := Memory.clear (n * bankBytes) bankBytes u.mem.sram } }))) ∧
      (∀ a, Memory.read sramDefault (Memory.clear (n * bankBytes) bankBytes s.mem.sram) a =
        if n * bankBytes ≤ a ∧ a < n * bankBytes + bankBytes then sramDefault else Memory.read sramDefault s.mem.sram a) ∧
      (Goes (.bankWakeEnd n) s fun t => t.dev.bank n = (if b.power = 1 then { b with power := 0 } else b) ∧
        (∀ k, k ≠ n → t.dev.bank k = s.dev.bank k) ∧ Only { s.dev with banks := t.dev.banks } s t) ∧
      (∀ fails,
        let runs := b.scree = true ∧ b.power = 0 ∧ s.dev.sched.stage = 0
        let last := 8191 ≤ b.screePos
        let d := (s.dev.modBank n fun x => { x with
          screePos := if last then 0 else x.screePos + 1, screePass := if last then (x.screePass + 1) % 65536 else x.screePass,
          screeFails := if fails = true then satInc 32 x.screeFails else x.screeFails,
          remaps := if fails = true ∧ b.remaps.length < 8 then x.screePos :: x.remaps else x.remaps,
          sparesOut := x.sparesOut || (fails && decide (8 ≤ b.remaps.length)) }).when fails (Dev.raise 208 0)
        (¬runs → exec (.screeRegionStart n fails) s = .next s) ∧
        (runs → ¬(last ∧ b.screeCont = false) → exec (.screeRegionStart n fails) s = .next (State.settle { s with dev := d })) ∧
        (runs → last → b.screeCont = false →
          exec (.screeRegionStart n fails) s = .next (State.settle { s with dev := d.screeStop n }))) ∧
      (∀ offset st,
        let off := offset % bankBytes / 8 * 8
        let d := (s.dev.modBank n fun b => { b with ue := satInc 32 b.ue, errUe := true, errOff := off }).raise 207 0
        exec (.sramReadError n offset false st) s = .next (State.settle (s.onDev fun d =>
          (d.modBank n fun b => { b with ce := satInc 32 b.ce, errUe := false, errOff := off }).raise 206 0)) ∧
        (b.owner ≠ 1 → exec (.sramReadError n offset true st) s = .next (State.settle { s with dev := d })) ∧
        (b.owner = 1 → exec (.sramReadError n offset true st) s = .next (State.settle (s.onDev fun _ =>
          if n ≤ 2 then d.spoilAll st 0x0B else if n ≤ 7 then (d.spoilAll st 0x0B).discardScreened st
          else if n ≤ 9 then d.codecReset else d.loseCairn)))))) ∧
  (∀ (s : State) (p : Packet),
    (Ready 0x0D00 p s → chkMemBankHandover p s.dev = none → exec (.memBankHandover p.ring p.seq) s = .next (State.settle
      (s.onDev fun d => d.startDeviceAct p 7 p.target (p.fld 0 0 2 + 4 * p.fld 0 2 2)))) ∧
    (Ready 0x0D03 p s → chkMemScree p s.dev = none →
      (p.flag 0 0 = true → exec (.memScree p.ring p.seq) s = .next (State.settle (s.onDev fun d =>
        d.startDeviceAct p 6 p.target (p.fld 0 1 1 + 2 * p.fld 4 0 32)))) ∧
      (p.flag 0 0 = false → exec (.memScree p.ring p.seq) s = .next (State.settle (s.onDev fun d =>
        (d.screeStop p.target).complete p.ref .done 0 0)))))

/-- Register writes and reads by each path, and the management SPI frames, have the effect the spec gives them (R11,
R12, R13, R169, R170, R171, R795, R869, R870, R873). -/
def Obligations.RegisterAccessesAndFramesReachTheRegisters : Prop :=
  ∀ s : State,
    (s.dev.sys.powered = false → ∀ path a (v : BitVec 32) b n r, exec (.registerWrite path a v) s = .next s ∧
      exec (.readToClear path a) s = .next s ∧ exec (.counterLowRead path a) s = .next s ∧
      exec (.mspiWriteFrame a b) s = .next s ∧ exec (.mspiReadFrame a n r) s = .next s ∧ exec .mspiStatusFrame s = .next s) ∧
    (s.dev.sys.powered = true → Settled s → ∀ path a,
      (a % 4 ≠ 0 → ∀ v : BitVec 32, exec (.registerWrite path a v) s = .next s ∧
        exec (.readToClear path a) s = .next (s.onDev (Dev.send (.regRead (pathCode path) a 0xFFFFFFFF))) ∧
        exec (.counterLowRead path a) s = .next (s.onDev (Dev.send (.regRead (pathCode path) a 0xFFFFFFFF)))) ∧
      (a % 4 = 0 →
        (∀ v : BitVec 32, (path = .mspi ∧ s.dev.mspiMay a = false → exec (.registerWrite path a v) s = .next (s.onDev fun d =>
            { d with sys := { d.sys with mspiWriteDiscarded := true, mspiDiscards := satInc 16 d.sys.mspiDiscards } })) ∧
          (¬(path = .mspi ∧ s.dev.mspiMay a = false) →
            exec (.registerWrite path a v) s = .next (State.settle (s.regStore a v.toNat)) ∧
            (s.dev.regOn a = false → exec (.registerWrite path a v) s = .next s))) ∧
        exec (.readToClear path a) s = .next (State.settle ((s.regRead a).onDev
          (Dev.send (.regRead (pathCode path) a (s.regValue a))))) ∧
        exec (.counterLowRead path a) s = exec (.readToClear path a) s ∧
        (s.dev.regOn a = false → exec (.readToClear path a) s = .next (s.onDev
          (Dev.send (.regRead (pathCode path) a 0)))))) ∧
    (s.dev.sys.powered = true → Settled s → ∀ a,
      let z : State := s.onDev fun d => { d with sys := { d.sys with mspiWriteDiscarded := false } }
      (∀ b, (a % 4 ≠ 0 → exec (.mspiWriteFrame a b) s = .next (z.onDev Dev.mspiDiscard)) ∧
        (a % 4 = 0 →
          let t := (wholeWords b).zipIdx.foldl (fun s e => State.writeBy .mspi (a + 4 * e.2) e.1 s) z
          exec (.mspiWriteFrame a b) s = .next (State.settle (if b.length % 4 = 0 then t else t.onDev Dev.mspiDiscard)))) ∧
      (∀ n r,
        (a % 4 ≠ 0 → ∃ f : List Nat, f.length = n ∧ exec (.mspiReadFrame a n r) s = .next (s.onDev fun d =>
          ({ d with free := d.free + n }.mspiDiscard).send (.mspi (0xA5 :: f)))) ∧
        (a % 4 = 0 → r = false → exec (.mspiReadFrame a n r) s = .next (s.onDev fun d => { d with sys := { d.sys with
          mspiReadTimedOut := true, mspiTimeouts := satInc 16 d.sys.mspiTimeouts } }.send
          (.mspi (0x5A :: List.replicate n 0xFF)))) ∧
        (a % 4 = 0 → r = true →
          let q := State.readRun a (n / 4) s []
          let t : State := q.1.onDev fun d => { d with sys := { d.sys with mspiReadTimedOut := false } }
          exec (.mspiReadFrame a n r) s = .next (State.settle ((if n % 4 = 0 then t else t.onDev Dev.mspiDiscard).onDev
            (Dev.send (.mspi (0xA5 :: q.2.flatMap (leBytes 4)))))))) ∧
      exec .mspiStatusFrame s = .next (s.onDev (Dev.send (.mspi
        [1 + 2 * b2n s.dev.sys.mspiReadTimedOut + 4 * b2n s.dev.sys.mspiWriteDiscarded]))))

/-- The REG opcodes have the effect the spec gives them (R125, R126, R127, R876, R881, R882). -/
def Obligations.RegCommandsAccessRegistersAndTables : Prop :=
  ∀ (s : State) (p : Packet),
    (Ready 0x0100 p s → chkRegRead p s.dev = none →
      (p.fld 4 0 16 = 1 → exec (.regRead p.ring p.seq) s = .next (State.settle ((s.regRead p.offset).onDev
        (Dev.complete p.ref .done (s.regValue p.offset) 0)))) ∧
      (p.fld 4 0 16 = 2 →
        let u := s.regRead p.offset
        exec (.regRead p.ring p.seq) s = .next (State.settle ((u.regRead (p.offset + 4)).onDev
          (Dev.complete p.ref .done (s.regValue p.offset + 2 ^ 32 * u.regValue (p.offset + 4)) 0)))) ∧
      (p.fld 4 0 16 = 1 ∨ p.fld 4 0 16 = 2)) ∧
    (Ready 0x0101 p s → chkRegWrite p s.dev = none → exec (.regWrite p.ring p.seq) s = .next (State.settle
      (((wholeWords (p.payload.drop 8)).zipIdx.foldl (fun s e => State.writeBy .command (p.offset + 4 * e.2) e.1 s) s).onDev
        (Dev.complete p.ref .done 0 0)))) ∧
    (Ready 0x0102 p s → chkRegRmw p s.dev = none →
      let old := s.regValue p.offset
      exec (.regRmw p.ring p.seq) s = .next (State.settle (((s.regRead p.offset).writeBy .command p.offset
        (old - (old &&& p.fld 4 0 32) + (p.fld 8 0 32 &&& p.fld 4 0 32))).onDev (Dev.complete p.ref .done old 0)))) ∧
    (Ready 0x0103 p s → chkRegPoll p s.dev = none → exec (.regPoll p.ring p.seq) s = .next (s.onDev fun d =>
      d.modPacket p.ref fun q => { q with phase := .polling })) ∧
    (Settled s → s.dev.ringsRun = true → ∀ r q,
      (s.dev.packet? (r, q) = none → exec (.regPollRead r q) s = .next s ∧ exec (.regPollTimeout r q) s = .next s) ∧
      (∀ x, s.dev.packet? (r, q) = some x →
        let v := s.regValue x.offset
        (x.phase ≠ .polling → exec (.regPollRead r q) s = .next s ∧ exec (.regPollTimeout r q) s = .next s) ∧
        (x.phase = .polling → v &&& x.fld 4 0 32 = x.fld 8 0 32 → exec (.regPollRead r q) s = .next (State.settle
          ((s.regRead x.offset).onDev (Dev.complete (r, q) .done v 0)))) ∧
        (x.phase = .polling → v &&& x.fld 4 0 32 ≠ x.fld 8 0 32 → exec (.regPollRead r q) s = .next (State.settle
          ((s.regRead x.offset).onDev (Dev.modPacket (r, q) fun y => { y with pollLast := v })))) ∧
        (x.phase = .polling → exec (.regPollTimeout r q) s = .next (s.onDev (Dev.complete (r, q) .timeout x.pollLast 0))))) ∧
    (Ready 0x0104 p s → chkRegTableWrite p s.dev = none → exec (.regTableWrite p.ring p.seq) s = .next (State.settle
      ((s.tableWrite (p.fld 0 0 28) (p.payload.drop 8)).onDev (Dev.complete p.ref .done 0 0)))) ∧
    (Ready 0x0105 p s → chkRegTableRead p s.dev = none → exec (.regTableRead p.ring p.seq) s = .next (s.onDev fun d =>
      (d.send (.hostWrite (p.fld 8 0 64) (s.tableRead (p.fld 0 0 28) (p.fld 4 0 25)))).complete p.ref .done 0 0))

/-- Slot fetches, ring and report-queue registers have the effect the spec gives them (R94, R95, R99, R100, R102,
R112, R131, R134, R141, R142, R163, R164). -/
def Obligations.RingRegistersAndFetchesServeTheRings : Prop :=
  ∀ s : State, Settled s → s.dev.ringsRun = true → ∀ n,
    let r := s.dev.ring n
    (∀ slot,
      let goes := s.dev.ringReady n = true ∧ s.dev.turnOf n = true ∧ s.dev.turnOver n = false
      let got := if r.source = 2 then some (s.dev.sys.mbox.slot (r.head % 16)) else slot
      (¬goes → exec (.ringSlotFetch n slot) s = .next s) ∧
      (goes → got = none → exec (.ringSlotFetch n slot) s = .next (s.onDev fun d =>
        d.modRing n fun r => { r with fetchErr := true, stopped := true })) ∧
      (∀ b, goes → got = some b → exec (.ringSlotFetch n slot) s = .next (s.onDev fun d =>
        Dev.drain n 2 ((d.modRing n fun r => { r with
          head := (r.head + 1) % 2 ^ 32, stalled := some (parsePacket n r.source b) }).takeTurn n)))) ∧
    (∀ q data,
      ((∀ p, s.dev.packet? (n, q) = some p → p.phase ≠ .payload ∨ (s.dev.ring p.ring).source ≠ 0) →
        exec (.indirectPayloadFetch n q data) s = .next s) ∧
      (∀ p, s.dev.packet? (n, q) = some p → p.phase = .payload → (s.dev.ring p.ring).source = 0 →
        (data = none → exec (.indirectPayloadFetch n q data) s = .next (s.onDev (Dev.complete (n, q) .fetchError 0 0))) ∧
        (∀ b, data = some b → exec (.indirectPayloadFetch n q data) s = .next (s.onDev (Dev.modPacket (n, q) fun p => { p with
          phase := .started, payload := (List.range p.indirectLen).map (fun i => b.getD i 0 % 256) }))))) ∧
    (∀ v : BitVec 32, Goes (.ringTailWrite n v) s fun t =>
      let past := r.enable && decide (r.slots < (v.toNat + 2 ^ 32 - r.head) % 2 ^ 32)
      t.dev.ring n = { r with tail := v.toNat, overrun := r.overrun || past, stopped := r.stopped || past } ∧
      (∀ k, k ≠ n → t.dev.ring k = s.dev.ring k) ∧ Only { s.dev with rings := t.dev.rings } s t) ∧
    (∀ v : BitVec 32,
      let d := s.dev.modRing n fun r => { r with cqHead := v.toNat }
      (r.enable = false → exec (.cqHeadWrite n v) s = .next (s.onDev fun _ => d)) ∧
      (r.enable = true → exec (.cqHeadWrite n v) s = .next (s.onDev fun _ => Dev.drain n (2 * r.toStart.length + 2) d))) ∧
    (∀ v : BitVec 32,
      let fields (w : Nat) (d : Dev) : Dev :=
        (if bits w 25 1 = 1 ∧ r.enable = false then d.modRing n fun r => { r with seqValid := false, window := [], windowOf := [] }
          else d).modRing n fun r => { r with
            log2Slots := bits w 0 5, source := bits w 6 2, priority := bits w 8 2, weight := bits w 16 8 }
      let e := fields (v ||| 0x1000000).toNat s.dev
      let f := fields (v &&& 0xFEFFFFFF).toNat s.dev
      (r.enable = true → exec (.ringEnable n v) s = .next (s.onDev fun _ => e)) ∧
      (r.enable = false → (e.ring n).configOk n = true → exec (.ringEnable n v) s = .next (s.onDev fun _ => e.ringOn n)) ∧
      (r.enable = false → (e.ring n).configOk n = false →
        exec (.ringEnable n v) s = .next (s.onDev fun _ => e.modRing n fun r => { r with configErr := true })) ∧
      (r.enable = false → exec (.ringDisable n v) s = .next (s.onDev fun _ => f)) ∧
      (r.enable = true → exec (.ringDisable n v) s = .next (s.onDev fun _ => f.ringOff n)) ∧
      (r.enable = false → bits v.toNat 24 1 = 0 → exec (.clearWindow n v) s = .next (s.onDev fun d =>
        (d.modRing n fun r => { r with seqValid := false, window := [], windowOf := [] }).modRing n fun r => { r with
          log2Slots := bits (v ||| 0x2000000).toNat 0 5, source := bits (v ||| 0x2000000).toNat 6 2,
          priority := bits (v ||| 0x2000000).toNat 8 2, weight := bits (v ||| 0x2000000).toNat 16 8 }))) ∧
    (r.irqPendingCpl = 0 → exec (.ringIrqHoldoffEnd n) s = .next s) ∧
    (r.irqPendingCpl ≠ 0 → exec (.ringIrqHoldoffEnd n) s = .next (s.onDev fun d =>
      (d.modRing n fun r => { r with irqPendingCpl := 0 }).msix r.irqVector)) ∧
    (∀ v : BitVec 32,
      let h := (s.dev.rptq n).held.length
      exec (.rptqHeadWrite n v) s = .next (s.onDev fun d => (d.modRptq n fun q => { q with head := v.toNat }).flushReports n h) ∧
      exec (.rptqEnable n v) s = .next (s.onDev fun d => (d.modRptq n fun q => { q with
        log2 := bits (v ||| 0x100).toNat 0 5, enable := true, ethernet := bits (v ||| 0x100).toNat 9 1 = 1 }).flushReports n h))

/-- The Ethernet transport's datagrams, acknowledgements and time-outs have the effect the spec gives them (R145,
R149, R150, R151, R152, R153, R155, R158, R159, R162, R188). -/
def Obligations.EthernetTransportTakesAndAnswersDatagrams : Prop :=
  ∀ s : State, Settled s → s.dev.on 9 = true → s.dev.ringsRun = true →
    (∀ port src udp,
      let t := transportOf udp
      let n := t.ring
      let drop : State := s.onDev fun d => d.modEth port fun e => { e with drops := satInc 32 e.drops }
      let takes (k : Nat) := s.dev.dgramDropped udp = false ∧ t.type = k ∧ s.dev.serves n = true
      (s.dev.dgramDropped udp = true → exec (.ethCmdReceive port src udp) s = .next drop ∧
        exec (.ethBulkReceive port src udp) s = .next drop ∧ exec (.ethAckReceive port src udp) s = .next drop) ∧
      (s.dev.dgramDropped udp = false → ¬takes 1 → exec (.ethCmdReceive port src udp) s = .next s) ∧
      (s.dev.dgramDropped udp = false → ¬takes 2 → exec (.ethBulkReceive port src udp) s = .next s) ∧
      (s.dev.dgramDropped udp = false → ¬takes 3 → exec (.ethAckReceive port src udp) s = .next s) ∧
      (takes 1 →
        let p : Packet := { parsePacket n 1 (udp.drop 16) with seq := t.seq }
        let d := (s.dev.heard n src).modRing n fun r => { r with cum := some (r.cum.getD ((t.seq + 2 ^ 32 - 1) % 2 ^ 32)) }
        let cum := (d.ring n).cum.getD 0
        let ack (now : Bool) (d : Dev) : Dev := if p.dest = 4095 then d else d.ackFor n now
        let dist := (t.seq + 2 ^ 32 - cum) % 2 ^ 32
        let is (e : Dev) : Prop := exec (.ethCmdReceive port src udp) s = .next (State.settle (s.onDev fun _ => e))
        (s.dev.ethTakes p = false → exec (.ethCmdReceive port src udp) s = .next s) ∧
        (s.dev.ethTakes p = true →
          (seqLe t.seq cum = true →
            (((ack true d).ring n).unacked.find? (fun o => !o.rpt && o.item = t.seq) = none → is (ack true d)) ∧
            (∀ o, ((ack true d).ring n).unacked.find? (fun o => !o.rpt && o.item = t.seq) = some o →
              is ((ack true d).resendOut n o))) ∧
          (seqLe t.seq cum = false → d.windowOf n < dist → is d) ∧
          (seqLe t.seq cum = false → ¬d.windowOf n < dist → dist = 1 →
            let e := d.modRing n fun r => Ring.takeNext (r.ooo.length + 1) { r with ooo := p :: r.ooo }
            is (ack (!(d.ring n).ooo.isEmpty) (Dev.drain n (2 * (e.ring n).toStart.length + 2) e))) ∧
          (seqLe t.seq cum = false → ¬d.windowOf n < dist → dist ≠ 1 → is (ack true (d.modRing n fun r =>
            if r.ooo.any (fun q => q.seq = t.seq) then r else { r with ooo := r.ooo ++ [p] }))))) ∧
      (takes 2 →
        let r := s.dev.ring n
        let data := udp.drop 16
        let idle := 2 ≤ s.dev.sched.stage ∨ s.dev.sys.addrValid = false ∨ t.offset % 8 ≠ 0 ∨
          (if s.dev.rings.jumbo then 8192 else 1408) < data.length
        let ran := r.cum.any (fun c => seqLe t.seq c) && (s.dev.packet? (n, t.seq)).isNone &&
          !(r.toStart.any (fun p => p.seq = t.seq)) && !(r.stalled.any (fun p => p.seq = t.seq))
        let old := (s.dev.rings.bulks.find? (fun b => b.ring = n && b.seq = t.seq)).getD { Bulk.reset with ring := n, seq := t.seq }
        let direct := !old.slot && s.dev.bulkDirect n t.seq old
        let needs := !old.slot && !direct
        let full := needs = true ∧ 64 ≤ (s.dev.rings.bulks.filter (·.slot)).length
        (idle → exec (.ethBulkReceive port src udp) s = .next s) ∧
        (¬idle → ran = true → exec (.ethBulkReceive port src udp) s = .next (State.settle (s.onDev fun d => d.ackFor n false))) ∧
        (¬idle → ran = false → full → exec (.ethBulkReceive port src udp) s = .next (s.onDev fun d =>
          { d with ing := { d.ing with stageDrops := satInc 32 d.ing.stageDrops } })) ∧
        (¬idle → ran = false → ¬full → exec (.ethBulkReceive port src udp) s = .next (State.settle (s.onDev fun d =>
          (({ d.dropBulk (n, t.seq) with rings := { (d.dropBulk (n, t.seq)).rings with bulks := (d.dropBulk (n, t.seq)).rings.bulks ++
            [{ old with cells := bulkCells t.offset data ++ old.cells, slot := old.slot || needs, direct := old.direct || direct }] } }).bulkComplete n t.seq).ackFor n false)))) ∧
      (takes 3 →
        let h := leNat ((udp.drop 16).take 32)
        let acked (o : EthOut) : Bool := seqLe o.tseq (bits h 0 32) ||
          (let k := (o.tseq + 2 ^ 32 - bits h 0 32 - 1) % 2 ^ 32; decide (k < 64) && bits h (64 + k) 1 = 1)
        exec (.ethAckReceive port src udp) s = .next (State.settle (s.onDev fun d =>
          (d.modRing n fun r => { r with unacked := r.unacked.filter fun o => !acked o }).heard n src)))) ∧
    (∀ n, let due := s.dev.serves n = true ∧ (s.dev.ring n).ackCount ≠ 0
      (¬due → exec (.ethAckTimer n) s = .next s) ∧
      (due → exec (.ethAckTimer n) s = .next (State.settle (s.onDev (Dev.sendAck n)))) ∧
      ∀ q, ((s.dev.ring n).unacked.find? (fun o => o.tseq = q) = none ∨ (s.dev.ring n).peerLost = true ∨ (s.dev.ring n).source ≠ 1 →
          exec (.ethRtoExpire n q) s = .next s) ∧
        (∀ o, (s.dev.ring n).unacked.find? (fun o => o.tseq = q) = some o → (s.dev.ring n).peerLost = false →
          (s.dev.ring n).source = 1 →
          (s.dev.rings.maxTries ≤ o.sends → exec (.ethRtoExpire n q) s = .next (State.settle (s.onDev fun d =>
            (d.modRing n fun r => { r with peerLost := true }).raise 84 n))) ∧
          (o.sends < s.dev.rings.maxTries → exec (.ethRtoExpire n q) s = .next (s.onDev fun d =>
            (d.modRing n fun r => { r with unacked := r.unacked.map fun x =>
              if x.tseq = q then { x with sends := x.sends + 1, rtoMs := min 64 (2 * x.rtoMs) } else x }).send
              (.datagram (if o.rpt then 5 else 4) n (o.tseq :: o.bytes)))))) ∧
    (s.dev.rings.infoReplies = [] → exec .sysInfoBroadcastReply s = .next s) ∧
    (∀ c l, s.dev.rings.infoReplies = c :: l → exec .sysInfoBroadcastReply s = .next (s.onDev fun d =>
      ({ d with rings := { d.rings with infoReplies := l } }).send (.datagram 4 c.ring (0xFFFFFFFF :: c.bytes))))

/-- SYS_NOP, SYS_INFO, SYS_SET_ADDR, SYS_TRIG_CANCEL and barriers have the effect the spec gives them (R118, R119,
R120, R121, R122, R123, R143). -/
def Obligations.SystemPacketsAndBarriersCompleteAsTheSpecSays : Prop :=
  ∀ (s : State) (p : Packet),
    (Ready 0x0000 p s → Does (.sysNop p.ring p.seq) p .done 0 0 s fun t => Only (Dev.ringed s.dev t.dev) s t) ∧
    (Ready 0x0002 p s → Does (.sysInfo p.ring p.seq) p .done (Config.sysUid % 2 ^ 64) s.dev.sys.addr s fun t =>
      Only (Dev.ringed s.dev t.dev) s t) ∧
    (Ready 0x0003 p s → chkSysSetAddr p s.dev = none →
      (p.fld 0 0 64 = Config.sysUid % 2 ^ 64 → Does (.sysSetAddr p.ring p.seq) p .done 0 0 s fun t =>
        Only (Dev.ringed { s.dev with sys := { s.dev.sys with addr := p.fld 8 0 12, addrValid := true } } t.dev) s t) ∧
      (p.fld 0 0 64 ≠ Config.sysUid % 2 ^ 64 → Does (.sysSetAddr p.ring p.seq) p .doneEmpty 0 0 s fun t =>
        Only (Dev.ringed s.dev t.dev) s t)) ∧
    (Ready 0x0004 p s → chkSysTrigCancel p s.dev = none → exec (.sysTrigCancel p.ring p.seq) s = .next (s.onDev fun d =>
      (d.complete (p.fld 0 0 8, p.fld 4 0 32) .aborted 0 0).complete p.ref .done 0 0)) ∧
    (Ready 0x0001 p s → chkSysBarrier p s.dev = none →
      let late := (before p.ref s.dev.rings.inflight).any fun q => q.ring = p.ring
      let d := s.dev.modPacket p.ref fun q => { q with phase := .barrier }
      let l := d.rings.inflight.filter fun q => q.op = 0x0001 && q.phase = .barrier && q.barrierId = p.fld 0 0 32
      let all := (List.range 256).all fun n => !(p.fld 8 0 256).testBit n || l.any fun q => q.ring = n
      (late = true → exec (.sysBarrier p.ring p.seq) s = .next s) ∧
      (late = false → all = false → exec (.sysBarrier p.ring p.seq) s = .next { s with dev := d }) ∧
      (late = false → all = true → exec (.sysBarrier p.ring p.seq) s = .next (s.onDev fun _ =>
        d.completeAll (l.map Packet.ref) .done))) ∧
    (Settled s → s.dev.ringsRun = true → ∀ r q,
      let waits := (s.dev.packet? (r, q)).any fun p => p.phase = .barrier
      (waits = false → exec (.barrierTimeout r q) s = .next s) ∧
      (waits = true → exec (.barrierTimeout r q) s = .next (s.onDev (Dev.complete (r, q) .timeout 0 0))))

/-- A raise counts, is logged and makes the source ACTIVE or QUIET; a lower and a quiet time bring it back to IDLE
(R808, R809, R815, R816). -/
def Obligations.FaultPairsFollowTheirSources : Prop :=
  ∀ (s : State) (n : Nat), Settled s → s.dev.on 0 = true → n < 248 → s.dev.sourceOn n = true →
    ((s.dev.src n).reaction = .ignore ∨ (s.dev.src n).reaction = .log →
      (isLevel n = true → (s.dev.src n).raised = false ∧ s.dev.heldUp n = false) →
      Goes (.faultRaise n) s fun t =>
        (t.dev.src n).raises = satInc 16 (s.dev.src n).raises ∧ (t.dev.src n).detail = 0 ∧
        (t.dev.src n).st = (if isLevel n then .active else .quiet) ∧
        ((s.dev.src n).reaction = .log → t.dev.flt.log =
          ({ timeUs := s.dev.ns / 1000 % 2 ^ 48, source := n, kind := 1 } :: s.dev.flt.log).take 256) ∧
        (∀ m, m ≠ n → t.dev.src m = s.dev.src m) ∧ Only { s.dev with flt := t.dev.flt } s t) ∧
    (isLevel n = true → (s.dev.src n).raised = true → s.dev.heldUp n = false →
      Goes (.faultLower n) s fun t =>
        t.dev.src n = { s.dev.src n with
          raised := false, softTimer := none, st := if (s.dev.src n).st = .active then .quiet else (s.dev.src n).st } ∧
        (∀ m, m ≠ n → t.dev.src m = s.dev.src m) ∧ Only { s.dev with flt := t.dev.flt } s t) ∧
    ((s.dev.src n).st = .quiet →
      Goes (.quietExpire n) s fun t =>
        t.dev.src n = { s.dev.src n with st := .idle, recoveries := satInc 16 (s.dev.src n).recoveries } ∧
        (∀ m, m ≠ n → t.dev.src m = s.dev.src m) ∧ Only { s.dev with flt := t.dev.flt } s t)

/-- FLT_CONFIG, FLT_READ, FLT_CLEAR, FLT_INJECT, FLT_INJECT_END and FLT_REINIT complete with the effect the spec gives
them (R836, R838, R839, R840, R841, R810, R815). -/
def Obligations.FaultCommandsReadConfigureClearInject : Prop :=
  ∀ (s : State) (p : Packet),
    (Ready 0x0E00 p s → chkFltConfig p s.dev = none →
      Does (.fltConfig p.ring p.seq) p .done 0 0 s fun t =>
        t.dev.src p.target = { s.dev.src p.target with
          reaction := Reaction.ofCode (p.fld 0 0 3), webStop := p.flag 0 3, quietMs := p.fld 2 0 16,
          timerUs := p.fld 4 0 20 } ∧
        (∀ m, m ≠ p.target → t.dev.src m = s.dev.src m) ∧ Only { Dev.ringed s.dev t.dev with flt := t.dev.flt } s t) ∧
    (Ready 0x0E01 p s → p.target < 248 →
      Does (.fltRead p.ring p.seq) p .done (s.dev.src p.target).result (s.dev.src p.target).detail s fun t =>
        Only (Dev.ringed s.dev t.dev) s t) ∧
    (Ready 0x0E02 p s → chkFltClear p s.dev = none → p.flag 0 2 = false ∨ s.dev.flt.held = false →
      let x := s.dev.src p.target
      let ack := p.flag 0 0 && !isLevel p.target && decide (x.st = .active)
      let counts := p.flag 0 1 && (!(x.raises = 0) || !(x.recoveries = 0) || x.escalated)
      Does (.fltClear p.ring p.seq) p (if ack || counts then .done else .doneEmpty) 0 0 s fun t =>
        t.dev.src p.target = { x with
          softTimer := if ack then none else x.softTimer, st := if ack then .quiet else x.st,
          raises := if counts then 0 else x.raises, recoveries := if counts then 0 else x.recoveries,
          escalated := if counts then false else x.escalated } ∧
        (∀ m, m ≠ p.target → t.dev.src m = s.dev.src m) ∧ Only { Dev.ringed s.dev t.dev with flt := t.dev.flt } s t) ∧
    (Ready 0x0E03 p s → chkFltInject p s.dev = none → p.fld 0 0 2 = 0 →
      (s.dev.src p.target).reaction = .ignore ∨ (s.dev.src p.target).reaction = .log →
      let up := isLevel p.target && ((s.dev.src p.target).raised || s.dev.heldUp p.target)
      Goes (.fltInject p.ring p.seq) s fun t =>
        t.dev.flt.injects = s.dev.flt.injects ++ [{ src := p.target, wire := false, ref := p.ref }] ∧
        (t.dev.src p.target).raises = (if up || !s.dev.sourceOn p.target then (s.dev.src p.target).raises
          else satInc 16 (s.dev.src p.target).raises) ∧
        t.dev.packet? p.ref = some { p with phase := .executing } ∧ Only { s.dev with flt := t.dev.flt, rings := t.dev.rings } s t) ∧
    (∀ i : Inject, Settled s → s.dev.on 0 = true → s.dev.packet? p.ref = some p →
      s.dev.flt.injects.find? (fun j => j.ref = p.ref) = some i →
      Does (.fltInjectEnd p.ring p.seq) p .done 0 0 s fun t =>
        t.dev.flt.injects = s.dev.flt.injects.filter (fun j => !(j.ref = p.ref)) ∧
        (∀ m, m ≠ i.src → t.dev.src m = s.dev.src m) ∧ Only { Dev.ringed s.dev t.dev with flt := t.dev.flt } s t) ∧
    (Ready 0x0EFF p s →
      Does (.fltReinit p.ring p.seq) p .done 0 0 s fun t =>
        (∀ m, t.dev.src m = { s.dev.src m with
          wireErr := (s.dev.src m).wireErr && !(decide (m < 248) && !s.dev.injected true m) }) ∧
        Only { Dev.ringed s.dev t.dev with flt := t.dev.flt } s t)

/-- A wire error, its end, a SOFT timer, a lockstep or watchdog event and a refused fabric word act on their own fault
source (R805, R810, R812, R815, R816, R823, R824). -/
def Obligations.WireErrorsTimersAndReplaysActOnTheirSource : Prop :=
  ∀ (s : State), Settled s →
    (∀ n, s.dev.on 0 = true → n < 248 → s.dev.sourceOn n = true → (s.dev.src n).wireErr = false →
      (s.dev.src n).reaction = .ignore ∨ (s.dev.src n).reaction = .log →
      (isLevel n && ((s.dev.src n).raised || s.dev.heldUp n)) = false →
      Goes (.faultWireError n) s fun t =>
        t.dev.src n = { s.dev.src n with
          wireErr := true, raises := satInc 16 (s.dev.src n).raises, detail := 0,
          st := if isLevel n then .active else .quiet } ∧
        (∀ m, m ≠ n → t.dev.src m = s.dev.src m) ∧ Only { s.dev with flt := t.dev.flt } s t) ∧
    (∀ n, s.dev.on 0 = true → s.dev.injected true n = false →
      Goes (.wireSoundEnd n) s fun t =>
        t.dev.src n = (let x : Src := { s.dev.src n with wireErr := false }
          if isLevel n && !x.raised && !s.dev.injected false n then x.ends else x) ∧
        (∀ m, m ≠ n → t.dev.src m = s.dev.src m) ∧ Only { s.dev with flt := t.dev.flt } s t) ∧
    (∀ n, s.dev.on 0 = true → (s.dev.src n).softTimer.isSome = true →
      exec (.softTimerExpire n) s = .next (State.settle (s.onDev fun d =>
        Dev.enterSafe n (((d.modSrc n fun x => { x with
          softTimer := none, escalated := true, st := if isLevel n then x.st else .quiet }).logEvent n 3).msix 0)))) ∧
    (s.dev.on 5 = true → exec .lockstepMismatch s = .next (State.settle (s.onDev (Dev.raise 12 0)))) ∧
    (s.dev.on 5 = true → exec .fwWatchdogExpire s =
      .next (if s.dev.sys.stage = .operational then State.settle (s.onDev (Dev.raise 13 0)) else s)) ∧
    (∀ region hop again, region < 7 → hop < 4096 → s.dev.on (regionDomain region) = true →
      let run := if again then Tab.get 0 s.dev.flt.fabRun (region * 4096 + hop) + 1 else 1
      let counted : State := s.onDev fun d => { d with flt := { d.flt with
        fabReplays := Tab.set region (satInc 32 (Tab.get 0 d.flt.fabReplays region)) d.flt.fabReplays,
        fabRun := Tab.set (region * 4096 + hop) run d.flt.fabRun } }
      (run ≠ 3 → run ≠ 256 → exec (.fabricParityRefuse region hop again) s = .next counted) ∧
      (run = 3 → exec (.fabricParityRefuse region hop again) s =
        .next (State.settle (counted.onDev (Dev.raise 11 (region + 16 * hop))))))

/-- BL_CONFIG, BL_START, BL_SET_SPEED, BL_STOP and BL_REINIT have the effect the spec gives them on their channel
(R654, R661, R662, R666, R667, R689). -/
def Obligations.ChannelCommandsConfigureStartSetAndStop : Prop :=
  ∀ (s : State) (p : Packet),
    (Ready 0x0A00 p s → chkBlConfig p s.dev = none →
      Does (.blConfig p.ring p.seq) p .done 0 0 s fun t =>
        (t.dev.bch p.target).configured = true ∧ (t.dev.bch p.target).cfg.polePairs = p.fld 1 0 6 ∧
        (t.dev.bch p.target).cfg.fPwm = p.fld 2 0 8 ∧ (t.dev.bch p.target).cfg.iMax = p.fld 12 0 16 ∧
        (t.dev.bch p.target).cfg.iTrip = p.fld 14 0 16 ∧ (t.dev.bch p.target).cfg.maxRpm = p.fld 16 0 16 ∧
        (t.dev.bch p.target).cfg.retryMs = p.fld 58 0 16 ∧
        (∀ m, m ≠ p.target → t.dev.bch m = s.dev.bch m) ∧ Only { Dev.ringed s.dev t.dev with bl := t.dev.bl } s t) ∧
    (Ready 0x0A01 p s → chkBlStart p s.dev = none →
      Does (.blStart p.ring p.seq) p .done 0 0 s fun t =>
        (t.dev.bch p.target).st = .measuring ∧ (t.dev.bch p.target).startResult = 6 ∧
        (t.dev.bch p.target).dir = (if p.sfld 0 0 32 < 0 then -1 else 1) ∧ (t.dev.bch p.target).triesDone = 0 ∧
        ((s.dev.bch p.target).loopSet = none → (t.dev.bch p.target).set = p.sfld 0 0 32) ∧
        (t.dev.bch p.target).cfg = (s.dev.bch p.target).cfg ∧
        (∀ m, m ≠ p.target → t.dev.bch m = s.dev.bch m)) ∧
    (Ready 0x0A02 p s → chkBlSetSpeed p s.dev = none →
      Does (.blSetSpeed p.ring p.seq) p .done 0 0 s fun t =>
        t.dev.bch p.target = { s.dev.bch p.target with set := p.sfld 0 0 32 } ∧
        (∀ m, m ≠ p.target → t.dev.bch m = s.dev.bch m) ∧ Only { Dev.ringed s.dev t.dev with bl := t.dev.bl } s t) ∧
    (Ready 0x0A03 p s → chkBlStop p s.dev = none →
      ((s.dev.bch p.target).st ≠ .running → (s.dev.bch p.target).st ≠ .stopping →
        Goes (.blStop p.ring p.seq) s fun t =>
          (t.dev.bch p.target).st = .stopped ∧ (t.dev.bch p.target).pwmOn = false ∧ (t.dev.bch p.target).stops = [] ∧
          ((s.dev.bch p.target).startResult = 6 → (t.dev.bch p.target).startResult = 5) ∧
          (∀ m, m ≠ p.target → t.dev.bch m = s.dev.bch m)) ∧
      ((s.dev.bch p.target).st = .running → p.fld 0 0 2 = 0 → (s.dev.bch p.target).chopFault = false →
        ((s.dev.bch p.target).cfg.handover : Int) < (s.dev.bch p.target).speed →
        Goes (.blStop p.ring p.seq) s fun t =>
          t.dev.bch p.target = { s.dev.bch p.target with
            st := .stopping, set := 0, brake := false, stopMode := 0, stops := (s.dev.bch p.target).stops ++ [p.ref] } ∧
          t.dev.packet? p.ref = some { p with phase := .executing } ∧
          Only { s.dev with bl := t.dev.bl, rings := t.dev.rings } s t)) ∧
    (Ready 0x0AFF p s → chkBlReinit p s.dev = none →
      Goes (.blReinit p.ring p.seq) s fun t =>
        (t.dev.bch p.target).st = .stopped ∧ (t.dev.bch p.target).pwmOn = false ∧
        (t.dev.bch p.target).overvolt = false ∧ (t.dev.bch p.target).overcurrent = false ∧
        (t.dev.bch p.target).undervolt = false ∧ (t.dev.bch p.target).skipCapped = false ∧
        ((s.dev.bch p.target).startResult = 6 → (t.dev.bch p.target).startResult = 5) ∧
        (t.dev.bch p.target).cfg = (s.dev.bch p.target).cfg ∧ (∀ m, m ≠ p.target → t.dev.bch m = s.dev.bch m))

/-- PWM periods, speed updates, chopper checks and the start sequence's events act on their brushless channel (R656,
R657, R660, R662, R664, R665, R670, R672, R673). -/
def Obligations.ChannelEventsDriveTheStartSequenceAndLoops : Prop :=
  ∀ (s : State) (n : Nat), Settled s → s.dev.on 11 = true →
    (∀ x : BlSample, (s.dev.bch n).st = .running → x.vbus ≤ (s.dev.bch n).cfg.ovLim → (s.dev.bch n).cfg.uvLim ≤ x.vbus →
      x.valid = true → max x.ia.natAbs (max x.ib.natAbs (x.ia + x.ib).natAbs) ≤ (s.dev.bch n).cfg.iTrip →
      Goes (.blPwmPeriod n x) s fun t =>
        (t.dev.bch n).vbus = x.vbus ∧ (t.dev.bch n).speed = x.speed ∧ (t.dev.bch n).st = .running ∧
        (t.dev.bch n).skips = (s.dev.bch n).skips ∧ (t.dev.bch n).periods = (s.dev.bch n).periods + 1 ∧
        (t.dev.bch n).iq = Config.iqOf x.ia x.ib (s.dev.bch n).iqRef ∧
        (∀ m, m ≠ n → t.dev.bch m = s.dev.bch m) ∧ Only { s.dev with bl := t.dev.bl } s t) ∧
    (∀ x : BlSample, (s.dev.bch n).st = .stopped → exec (.blPwmPeriod n x) s = .next s) ∧
    (∀ x : BlSample, (s.dev.bch n).st = .running → x.vbus ≤ (s.dev.bch n).cfg.ovLim → x.valid = true →
      (s.dev.bch n).cfg.iTrip < max x.ia.natAbs (max x.ib.natAbs (x.ia + x.ib).natAbs) →
      exec (.blPwmPeriod n x) s = .next (State.settle (s.onDev fun d =>
        (((d.modBch n fun c => { c with vbus := x.vbus, speed := x.speed }).modBch n fun c =>
          { c with overcurrent := true }).raise (152 + n) 0).blStopped n))) ∧
    ((s.dev.bch n).st = .running →
      Goes (.blSpeedUpdate n) s fun t =>
        - ((s.dev.bch n).cfg.iMax : Int) ≤ (t.dev.bch n).iqRef ∧ (t.dev.bch n).iqRef ≤ (s.dev.bch n).cfg.iMax ∧
        ((s.dev.bch n).limited = true ∨ (s.dev.bch n).holding = true → (t.dev.bch n).ramped = (s.dev.bch n).ramped) ∧
        (∀ m, m ≠ n → t.dev.bch m = s.dev.bch m) ∧ Only { s.dev with bl := t.dev.bl, out := t.dev.out } s t) ∧
    (∀ pass, (s.dev.bch n).chopCheck = true →
      exec (.blChopperCheckEnd n pass) s = .next (State.settle (s.onDev fun d =>
        let d := (d.modBch n fun c => { c with chopCheck := false, chop := false, chopFault := !pass, regenOk := pass }).pin
          .blChop n false
        if pass then d.lower (160 + n) else d.raise (160 + n) 0))) ∧
    ((s.dev.bch n).st = .coasting → (s.dev.bch n).coastWhy = 1 → (s.dev.bch n).vbus < (s.dev.bch n).cfg.vOff →
      Goes (.blBusSettled n) s fun t => (t.dev.bch n).st = .measuring ∧ (t.dev.bch n).triesDone = 0 ∧
        (∀ m, m ≠ n → t.dev.bch m = s.dev.bch m) ∧ Only { s.dev with bl := t.dev.bl, out := t.dev.out } s t) ∧
    (∀ speed : Int, (s.dev.bch n).st = .measuring → (s.dev.bch n).dir = 1 →
      ((s.dev.bch n).cfg.restart : Int) ≤ speed → ((s.dev.bch n).cfg.handover : Int) ≤ speed → speed ≤ (s.dev.bch n).cfg.maxRpm →
      Goes (.blMeasureEnd n true speed) s fun t => (t.dev.bch n).st = .running ∧ (t.dev.bch n).startResult = 1 ∧
        (t.dev.bch n).ramped = speed * 2 ^ 16 ∧ (t.dev.bch n).speed = speed ∧
        (∀ m, m ≠ n → t.dev.bch m = s.dev.bch m) ∧ Only { s.dev with bl := t.dev.bl, out := t.dev.out } s t) ∧
    ((s.dev.bch n).st = .starting →
      Goes (.blAlignEnd n) s fun t => t.dev.bch n = { s.dev.bch n with aligned := true } ∧
        (∀ m, m ≠ n → t.dev.bch m = s.dev.bch m) ∧ Only { s.dev with bl := t.dev.bl } s t) ∧
    ((s.dev.bch n).st = .starting → (s.dev.bch n).aligned = true →
      Goes (.blHandover n true) s fun t => (t.dev.bch n).st = .running ∧
        (t.dev.bch n).startResult = (if (s.dev.bch n).fromRest then 3 else 2) ∧
        (t.dev.bch n).ramped = (s.dev.bch n).dir * (s.dev.bch n).cfg.handover * 2 ^ 16 ∧
        (∀ m, m ≠ n → t.dev.bch m = s.dev.bch m) ∧ Only { s.dev with bl := t.dev.bl, out := t.dev.out } s t) ∧
    ((s.dev.bch n).st = .coasting → (s.dev.bch n).coastWhy = 0 →
      Goes (.blRetryEnd n) s fun t => (t.dev.bch n).st = .measuring ∧
        (t.dev.bch n).triesDone = (s.dev.bch n).triesDone ∧
        (∀ m, m ≠ n → t.dev.bch m = s.dev.bch m) ∧ Only { s.dev with bl := t.dev.bl, out := t.dev.out } s t)

/-- LOOP_CONFIG, LOOP_SET_POINT, LOOP_ENABLE, LOOP_READ, LOOP_REINIT and LOOP_UPDATE act on their loop as the spec
says (R674, R677, R678, R682, R684). -/
def Obligations.LoopCommandsConfigureSetEnableReadAndRestart : Prop :=
  ∀ (s : State) (p : Packet),
    (Ready 0x0B00 p s → chkLoopConfig p s.dev = none →
      exec (.loopConfig p.ring p.seq) s = .next (State.settle (s.onDev fun d =>
        ((d.modLp p.target fun x => { x with
          configured := true, cfg := loopCfgOf p, implausible := false, badUs := 0, rawRun := 0 }).lower
          (168 + p.target)).complete p.ref .done 0 0))) ∧
    (Ready 0x0B01 p s → chkLoopSetPoint p s.dev = none →
      Does (.loopSetPoint p.ring p.seq) p .done 0 0 s fun t =>
        t.dev.lp p.target = { s.dev.lp p.target with set := p.sfld 0 0 32, restart := (s.dev.lp p.target).enabled } ∧
        (∀ m, m ≠ p.target → t.dev.lp m = s.dev.lp m) ∧ Only { Dev.ringed s.dev t.dev with bl := t.dev.bl } s t) ∧
    (Ready 0x0B02 p s → chkLoopEnable p s.dev = none → p.flag 0 0 = true →
      Does (.loopEnable p.ring p.seq) p .done 0 0 s fun t =>
        let y := s.dev.loopY (s.dev.lp p.target).cfg
        (t.dev.lp p.target).enabled = true ∧ (t.dev.lp p.target).i = (s.dev.lp p.target).cfg.outInit ∧
        (t.dev.lp p.target).r = y ∧ (t.dev.lp p.target).yPrev = y ∧ (t.dev.lp p.target).model = y ∧
        (t.dev.lp p.target).dm = 0 ∧
        (∀ m, m ≠ p.target → t.dev.lp m = s.dev.lp m) ∧ Only { Dev.ringed s.dev t.dev with bl := t.dev.bl } s t) ∧
    (Ready 0x0B02 p s → chkLoopEnable p s.dev = none → p.flag 0 0 = false →
      exec (.loopEnable p.ring p.seq) s = .next (State.settle (s.onDev fun d =>
        let d' := (d.modLp p.target fun x => { x with enabled := false, implausible := false }).lower (168 + p.target)
        let k := (d.lp p.target).cfg.outKind
        (if k = 1 ∨ k = 2 then (d'.modLp p.target fun x => { x with out := 0 }).deliver p.target else d').complete
          p.ref .done 0 0))) ∧
    (Ready 0x0B03 p s →
      Does (.loopRead p.ring p.seq) p .done
        (twos 32 (s.dev.lp p.target).y + 2 ^ 32 * twos 32 (s.dev.lp p.target).out) ((s.dev.lp p.target).status % 2 ^ 16) s
        fun t => Only (Dev.ringed s.dev t.dev) s t) ∧
    (Ready 0x0BFF p s →
      exec (.loopReinit p.ring p.seq) s = .next (State.settle (s.onDev fun d =>
        let d := (d.modLp p.target fun x => { x with implausible := false }).lower (168 + p.target)
        (if (d.lp p.target).enabled then d.startLoop p.target else d).complete p.ref .done 0 0))) ∧
    (∀ l, Settled s → s.dev.on 11 = true →
      ((s.dev.lp l).enabled = false → exec (.loopUpdate l) s = .next s) ∧
      ((s.dev.lp l).enabled = true → exec (.loopUpdate l) s = .next (State.settle (s.onDev fun d =>
        let c := (d.lp l).cfg
        let d' := d.modLp l (Loop.compute (d.loopY c) (d.loopRaw c) (Tab.get 0 d.pwr.hkExt c.vsCh)
          (decide (c.outKind = 3) && decide (5 ≤ d.sched.stage)))
        (if (d'.lp l).implausible && !(d.lp l).implausible then d'.raise (168 + l) 0 else d').deliver l))))

/-- One computation of a loop keeps the output and integral within OUT_MIN and OUT_MAX and moves the set-point by at
most one ramp step (R676). -/
def Obligations.LoopOutputAndIntegralStayWithinTheirLimits : Prop :=
  ∀ (y raw : Int) (vs : Nat) (hold : Bool) (x : Loop), x.cfg.outMin ≤ x.cfg.outMax → 0 ≤ x.cfg.ramp →
    let x' := Loop.compute y raw vs hold x
    let most := roundHalfAway (x.cfg.ramp * x.cfg.periodUs) 1000000
    x.cfg.outMin ≤ x'.u ∧ x'.u ≤ x.cfg.outMax ∧
    (x'.i = x.i ∨ x.cfg.outMin ≤ x'.i ∧ x'.i ≤ x.cfg.outMax) ∧
    (if x.restart then y else x.r) - most ≤ x'.r ∧ x'.r ≤ (if x.restart then y else x.r) + most ∧
    x'.cfg = x.cfg ∧ x'.set = x.set ∧ x'.enabled = x.enabled

/-- The eight MOT commands have the effect the spec gives them on their axis and on no other (R605, R607, R610, R616,
R619, R621, R623, R625, R633, R636, R642). -/
def Obligations.AxisCommandsConfigureMoveStopHomeFollowGear : Prop :=
  ∀ (s : State) (p : Packet),
    let n := p.target
    let a := s.dev.axis n
    let others (t : State) : Prop :=
      (∀ m, m ≠ n → t.dev.axis m = s.dev.axis m) ∧ Only { Dev.ringed s.dev t.dev with mot := t.dev.mot } s t
    (Ready 0x0900 p s → chkMotConfig p s.dev = none →
      Does (.motConfig p.ring p.seq) p .done 0 0 s fun t =>
        (t.dev.axis n).configured = true ∧ (t.dev.axis n).stepDiv = p.fld 0 0 4 ∧ (t.dev.axis n).pulse = p.fld 1 0 8 ∧
        (t.dev.axis n).dirSetup = p.fld 2 0 16 ∧ (t.dev.axis n).enSetupMs = p.fld 4 0 16 ∧
        (t.dev.axis n).noHome = p.flag 6 3 ∧ (t.dev.axis n).en = false ∧ (t.dev.axis n).st = .disabled ∧ others t) ∧
    (∀ x : Int, Ready 0x0901 p s → chkMotMove p s.dev = none → moveTarget p a = some x → ¬ (x = a.pos ∧ a.vel = 0) →
      Does (.motMove p.ring p.seq) p .done (twos 40 x) 0 s fun t =>
        (t.dev.axis n).target = x ∧ (t.dev.axis n).plan = a.lim ∧ (t.dev.axis n).kept = none ∧
        (t.dev.axis n).st = .moving ∧ (t.dev.axis n).mode = .toTarget ∧
        (t.dev.axis n).en = true ∧ (t.dev.axis n).enWait = (a.enWait || !a.en) ∧ others t) ∧
    (∀ x : Int, Ready 0x0901 p s → chkMotMove p s.dev = none → moveTarget p a = some x → x = a.pos → a.vel = 0 → a.stops = [] →
      Does (.motMove p.ring p.seq) p .done (twos 40 x) 0 s fun t =>
        (t.dev.axis n).target = x ∧ (t.dev.axis n).pos = x ∧ (t.dev.axis n).atRest = true ∧ others t) ∧
    (Ready 0x0901 p s → chkMotMove p s.dev = none → p.fld 0 0 2 = 3 →
      Does (.motMove p.ring p.seq) p .done 0 0 s fun t =>
        (t.dev.axis n).st = .moving ∧ (t.dev.axis n).mode = .velocity ∧ (t.dev.axis n).vTarget = p.sfld 8 0 40 ∧
        (t.dev.axis n).en = true ∧ others t) ∧
    (Ready 0x0902 p s → chkMotStop p s.dev = none → a.atRest = false → p.fld 0 0 2 = 1 →
      Goes (.motStop p.ring p.seq) s fun t =>
        (t.dev.axis n).vel = 0 ∧ (t.dev.axis n).posLost = true ∧ (t.dev.axis n).homed = false ∧
        (t.dev.axis n).atRest = true ∧ (t.dev.axis n).pos = a.pos ∧ (t.dev.axis n).stops = [] ∧ others t) ∧
    (Ready 0x0902 p s → chkMotStop p s.dev = none → a.atRest = true → a.stops = [] →
      Does (.motStop p.ring p.seq) p .doneEmpty 0 0 s fun t =>
        (t.dev.axis n).en = false ∧ (t.dev.axis n).posLost = true ∧ (t.dev.axis n).st = .disabled ∧ others t) ∧
    (Ready 0x0903 p s → chkMotHome p s.dev = none →
      Does (.motHome p.ring p.seq) p .done 0 0 s fun t =>
        (t.dev.axis n).st = .homing ∧ (t.dev.axis n).homeResult = 2 ∧
        (t.dev.axis n).homeStep = (if a.home then 1 else 2) ∧ (t.dev.axis n).homePos = p.sfld 16 0 40 ∧
        (t.dev.axis n).vFast = p.fld 4 0 32 ∧ (t.dev.axis n).vSlow = p.fld 8 0 32 ∧ (t.dev.axis n).en = true ∧ others t) ∧
    (Ready 0x0904 p s → chkMotFollow p s.dev = none → p.flag 0 0 = true →
      Does (.motFollow p.ring p.seq) p .done 0 0 s fun t =>
        (t.dev.axis n).st = .following ∧ (t.dev.axis n).folIn = p.fld 0 1 2 ∧ (t.dev.axis n).folMult = p.fld 2 0 9 ∧
        (t.dev.axis n).folGap = p.fld 4 0 32 ∧ (t.dev.axis n).en = true ∧ others t) ∧
    (Ready 0x0905 p s → chkMotGear p s.dev = none → p.fld 0 0 2 = 0 → (s.dev.enc s.dev.fire.src).still = false →
      Does (.motGear p.ring p.seq) p .done 0 0 s fun t =>
        (t.dev.axis n).st = .engaging ∧ (t.dev.axis n).ratio = p.sfld 8 0 64 ∧ (t.dev.axis n).en = true ∧ others t) ∧
    (Ready 0x0905 p s → chkMotGear p s.dev = none → p.fld 0 0 2 = 1 → s.dev.fire.s < s.dev.blendAt p →
      Does (.motGear p.ring p.seq) p .done 0 0 s fun t =>
        (t.dev.axis n).chg = some (s.dev.blendAt p, p.sfld 8 0 64, p.fld 24 0 32) ∧ others t) ∧
    (Ready 0x0906 p s → chkMotSetLimits p s.dev = none →
      Does (.motSetLimits p.ring p.seq) p .done 0 0 s fun t =>
        (t.dev.axis n).lim = { vMax := p.fld 4 0 32, aMax := p.fld 8 0 32, dMax := p.fld 12 0 32, jMax := p.fld 16 0 32 } ∧
        (t.dev.axis n).softMin = (if p.flag 0 1 then p.sfld 24 0 40 else a.softMin) ∧
        (t.dev.axis n).softMax = (if p.flag 0 1 then p.sfld 32 0 40 else a.softMax) ∧ others t) ∧
    (Ready 0x09FF p s → chkMotReinit p s.dev = none →
      Goes (.motReinit p.ring p.seq) s fun t =>
        (t.dev.axis n).vel = 0 ∧ (t.dev.axis n).posLost = true ∧ (t.dev.axis n).homed = false ∧
        (t.dev.axis n).atRest = true ∧ others t)

/-- Step pulses, limit and home inputs, coarse steps and gear locks act on their axis as the spec says (R609, R615,
R618, R621, R623, R626, R633, R635). -/
def Obligations.AxisEventsMoveCountStopAndLock : Prop :=
  ∀ (s : State) (n : Nat), Settled s → s.dev.on 11 = true →
    let a := s.dev.axis n
    (∀ (v : Int) (final : Bool), a.en = true → a.enWait = false → a.st = .moving → a.mode = .toTarget → a.chg = none →
      v ≠ 0 → mag v ≤ a.plan.vMax → a.towardsLimit (decide (0 < v)) = false → a.stops = [] →
      Goes (.axisStepPulse n v final) s fun t =>
        (t.dev.axis n).pos = a.pos + (if 0 < v then 1 else -1) * (2 ^ a.stepDiv : Nat) ∧
        (t.dev.axis n).pulses = (a.pulses + 1) % 2 ^ 32 ∧
        ((t.dev.axis n).pos = a.target → final = true → (t.dev.axis n).atRest = true ∧ (t.dev.axis n).vel = 0) ∧
        (final = false → (t.dev.axis n).st = .moving ∧ (t.dev.axis n).vel = v) ∧
        (∀ m, m ≠ n → t.dev.axis m = s.dev.axis m)) ∧
    (Goes (.axisEnableSetupEnd n) s fun t => t.dev.axis n = { a with enWait := false } ∧
        (∀ m, m ≠ n → t.dev.axis m = s.dev.axis m) ∧ Only { s.dev with mot := t.dev.mot } s t) ∧
    (∀ positive active, (active = false ∨ a.atRest = true) →
      Goes (.axisLimitActive n positive active) s fun t =>
        t.dev.axis n = (if positive then { a with limP := active } else { a with limN := active }) ∧
        (∀ m, m ≠ n → t.dev.axis m = s.dev.axis m) ∧ Only { s.dev with mot := t.dev.mot } s t) ∧
    (a.limEn = true → a.atRest = false → 0 < a.vel →
      exec (.axisLimitActive n true true) s = .next (State.settle (s.onDev fun d =>
        (((d.modAxis n fun a => { a with limP := true }).modAxis n fun a => { a with limitHit := true }).stopNow n 4).raise
          (128 + n) 0))) ∧
    (a.st = .homing → a.homeBack = none → a.homeStep = 4 →
      Goes (.axisHomeEdge n true) s fun t => t.dev.axis n = { a with home := true, homeBack := some 0, pos := a.homePos } ∧
        (∀ m, m ≠ n → t.dev.axis m = s.dev.axis m) ∧ Only { s.dev with mot := t.dev.mot } s t) ∧
    (∀ m high, (∀ x, (s.dev.fol m).last = some x → 200 ≤ s.dev.ns - x) →
      (∀ k, k < 8 → ¬ ((s.dev.axis k).st = .following ∧ (s.dev.axis k).folIn = m)) →
      Goes (.followCoarseStep m high) s fun t =>
        t.dev.fol m = { s.dev.fol m with
          count := (s.dev.fol m).count + (if high then 1 else -1), dir := high, last := some s.dev.ns } ∧
        (∀ k, t.dev.axis k = s.dev.axis k) ∧ Only { s.dev with mot := t.dev.mot } s t) ∧
    (a.st = .engaging → mag (a.vel * 2 ^ 56 - a.ratio * s.dev.webV * 1000000000) ≤ 2 ^ 56 →
      Goes (.gearLock n) s fun t =>
        t.dev.axis n = { a with st := .geared, mode := .none, x0 := a.pos * 2 ^ 48, w0 := s.dev.fire.s } ∧
        (∀ m, m ≠ n → t.dev.axis m = s.dev.axis m) ∧ Only { s.dev with mot := t.dev.mot } s t) ∧
    (∀ c, a.chg = some c → a.st = .geared → c.1 ≤ s.dev.fire.s →
      Goes (.gearBlendStart n) s fun t => t.dev.axis n = { a with blending := true } ∧
        (∀ m, m ≠ n → t.dev.axis m = s.dev.axis m) ∧ Only { s.dev with mot := t.dev.mot } s t)

/-- PTP messages, their time-outs, relays and link changes act on their instance and port as the spec says (R565,
R569, R570, R574, R576, R577). -/
def Obligations.PtpMessagesDriveTheServoMasterAndRelays : Prop :=
  ∀ (s : State) (k port : Nat) (m : PtpMsg), Settled s → s.dev.on 9 = true →
    (m.wellFormed = true → m.version = 2 → s.dev.ptpTakes k m = true → s.dev.fromMaster k m.source = true →
      (m.twoStep = true → Goes (.ptpSyncReceive k port m) s fun t =>
        (t.dev.tb k).syncWait =
          some (m.seq, s.dev.tbAt k m.ago / 2 ^ 40, m.corr + (s.dev.eth port).asym * 2 ^ 8, port) ∧
        (∀ j, j ≠ k → t.dev.tb j = s.dev.tb j) ∧ Only { s.dev with time := t.dev.time } s t) ∧
      (m.twoStep = false → exec (.ptpSyncReceive k port m) s = .next (State.settle (s.onDev fun d =>
        let ms := d.tbAt k m.ago / 2 ^ 40 - m.stamp * 2 ^ 16 - (m.corr + (d.eth port).asym * 2 ^ 8)
        ((d.modTb k fun b => { b with syncPort := port }).modTb k fun b => { b with ms := ms, syncWait := none }).servo k
          (ms - (if (d.tb k).p2p then (d.eth port).peer * 2 ^ 8 else (d.tb k).mpd * 2 ^ 8 : Int)))))) ∧
    (∀ t2 corr : Int, ∀ ing, m.wellFormed = true → m.version = 2 → s.dev.ptpTakes k m = true →
      s.dev.fromMaster k m.source = true → (s.dev.tb k).syncWait = some (m.seq, t2, corr, ing) →
      exec (.ptpFollowUpReceive k port m) s = .next (State.settle (s.onDev fun d =>
        let ms := t2 - m.stamp * 2 ^ 16 - corr - m.corr
        (d.modTb k fun b => { b with ms := ms, syncWait := none }).servo k
          (ms - (if (d.tb k).p2p then (d.eth ing).peer * 2 ^ 8 else (d.tb k).mpd * 2 ^ 8 : Int))))) ∧
    (∀ t3 : Int, m.wellFormed = true → m.version = 2 → s.dev.ptpTakes k m = true → s.dev.fromMaster k m.source = true →
      (s.dev.tb k).delayReq = some (m.seq, t3) → (s.dev.tb k).p2p = false →
      Goes (.ptpDelayRespReceive k port m) s fun t =>
        (t.dev.tb k).delayReq = none ∧ (t.dev.tb k).y = (s.dev.tb k).y ∧
        (∀ j, j ≠ k → t.dev.tb j = s.dev.tb j) ∧ Only { s.dev with time := t.dev.time } s t) ∧
    (s.dev.ptpTakes k m = true → m.wellFormed = true → m.version = 2 → (s.dev.tb k).st = .grandmaster →
      (s.dev.tb k).p2p = false →
      exec (.ptpDelayReqReceive k port m) s =
        .next (s.onDev (Dev.send (.ptp k 9 m.seq [s.dev.tbAt k m.ago / nsUnit, m.corr, m.source])))) ∧
    (m.wellFormed = true → m.version = 2 → s.dev.p2pMode = true → m.type = 2 →
      exec (.ptpPdelayReceive port m) s =
        .next (s.onDev (Dev.send (.ptp 0 3 m.seq [s.dev.tbAt 0 m.ago / 2 ^ 40, m.corr, m.source])))) ∧
    (∀ a : Announce, a.wellFormed = true → a.version = 2 →
      ((s.dev.tb k).enable = false ∨ a.domain ≠ (s.dev.tb k).domain → exec (.ptpAnnounceReceive k port a) s = .next s) ∧
      ((s.dev.tb k).enable = true → a.domain = (s.dev.tb k).domain → (s.dev.tb k).master = none →
        exec (.ptpAnnounceReceive k port a) s = .next (State.settle (s.onDev (Dev.selectMaster k
          (some [a.prio1, a.clockClass, a.accuracy, a.variance, a.prio2, a.gm, a.stepsRemoved, a.source])))))) ∧
    ((s.dev.tb k).enable = true → (s.dev.tb k).st ≠ .grandmaster →
      exec (.ptpSyncTimeout k) s = .next (State.settle (s.onDev (Dev.holdover k))) ∧
      exec (.ptpAnnounceTimeout k) s = .next (State.settle (s.onDev fun d => (d.holdover k).selectMaster k none))) ∧
    ((s.dev.tb k).enable = true → (s.dev.tb k).st = .grandmaster →
      Goes (.ptpMessageSend k 11) s fun t => (t.dev.tb k).seq = ((s.dev.tb k).seq + 1) % 2 ^ 16 ∧
        t.dev.out = .ptp k 11 (s.dev.tb k).seq ((s.dev.ownData k).map fun x => (x : Int)) :: s.dev.out ∧
        (∀ j, j ≠ k → t.dev.tb j = s.dev.tb j) ∧ Only { s.dev with time := t.dev.time, out := t.dev.out } s t) ∧
    (∀ residence, m.wellFormed = true → m.version = 2 → s.dev.p2pMode = false →
      Goes (.ptpEventRelay port m residence) s fun t =>
        t.dev.out = .relay (1 - port) (m.corr + roundOpen 7 (residence * (2 ^ 40 + (s.dev.tb 0).y)) (2 ^ 40) + 0)
          [m.type, m.seq] :: s.dev.out ∧
        (t.dev.eth port).resMax = max (s.dev.eth port).resMax (residence / 2 ^ 16) ∧
        Only { s.dev with time := t.dev.time, out := t.dev.out } s t) ∧
    (∀ multicast bytes, exec (.ethFrameRelay port multicast bytes) s =
      .next (s.onDev (Dev.send (.relay (1 - port) 0 bytes)))) ∧
    (port < 2 →
      (∀ up, up = true ∨ (s.dev.eth (1 - port)).link = true →
        exec (.ethLinkChange port up) s = .next (s.onDev (Dev.modEth port fun e => { e with link := up }))) ∧
      ((s.dev.eth (1 - port)).link = false →
        exec (.ethLinkChange port false) s = .next (State.settle (s.onDev fun d =>
          let d := d.modEth port fun e => { e with link := false }
          let d := if (d.tb 0).enable then d.holdover 0 else d
          if (d.tb 1).enable then d.holdover 1 else d))))

/-- TIME_CONFIG_PTP, SET, ADJUST, TOUT_CONFIG, TIN_CONFIG, READ and REINIT have the effect the spec gives them (R571,
R573, R581, R582, R583, R584, R585, R586, R592). -/
def Obligations.TimeCommandsSetAdjustConfigureAndRead : Prop :=
  ∀ (s : State) (p : Packet),
    (Ready 0x0800 p s → chkTimeConfigPtp p s.dev = none → (s.dev.tb p.target).st ≠ .holdover →
      Goes (.timeConfigPtp p.ring p.seq) s fun t =>
        let b := t.dev.tb p.target
        b.enable = p.flag 0 0 ∧ b.p2p = p.flag 0 1 ∧ b.twoStep = p.flag 0 4 ∧ b.slaveOnly = p.flag 0 5 ∧
        b.domain = p.fld 1 0 8 ∧ b.prio1 = p.fld 2 0 8 ∧ b.prio2 = p.fld 3 0 8 ∧ b.clockClass = p.fld 4 0 8 ∧
        b.kp = p.fld 10 0 16 ∧ b.ki = p.fld 12 0 16 ∧ b.lockNs = p.fld 14 0 16 ∧ b.stepNs = p.fld 16 0 32 ∧
        b.slewPpm = p.fld 20 0 8 ∧ b.y = (s.dev.tb p.target).yi ∧
        b.st = (if p.flag 0 0 then .holdover else .host) ∧ (p.flag 0 0 = true → b.master = none) ∧
        (∀ j, j ≠ p.target → t.dev.tb j = s.dev.tb j) ∧ Only { Dev.ringed s.dev t.dev with time := t.dev.time } s t) ∧
    (Ready 0x0801 p s → chkTimeSet p s.dev = none →
      exec (.timeSet p.ring p.seq) s = .next (State.settle (s.onDev fun d =>
        (d.stepTb p.target (p.time 0)).complete p.ref .done 0 0)) ∧
      ((s.dev.stepTb p.target (p.time 0)).tb p.target) = { s.dev.tb p.target with
        t := p.time 0, steps := ((s.dev.tb p.target).steps + 1) % 2 ^ 32, stepped := true }) ∧
    (Ready 0x0802 p s → chkTimeAdjust p s.dev = none → p.flag 0 0 = true → p.flag 0 1 = false →
      Does (.timeAdjust p.ring p.seq) p .done 0 0 s fun t =>
        t.dev.tb p.target = { s.dev.tb p.target with yi := p.sfld 4 0 32, y := p.sfld 4 0 32 } ∧
        (∀ j, j ≠ p.target → t.dev.tb j = s.dev.tb j) ∧ Only { Dev.ringed s.dev t.dev with time := t.dev.time } s t) ∧
    (Ready 0x0803 p s → chkTimeToutConfig p s.dev = none →
      Does (.timeToutConfig p.ring p.seq) p .done 0 0 s fun t =>
        let o := t.dev.tout p.target
        o.cfg.mode = p.fld 0 0 2 ∧ o.cfg.base = p.fld 0 2 2 ∧ o.cfg.invert = p.flag 0 4 ∧ o.cfg.width = p.fld 4 0 32 ∧
        o.cfg.start = p.time 8 ∧ o.cfg.period = p.fld 24 0 48 ∧
        o.old = (if (s.dev.tout p.target).cfg.mode = 0 then none
          else some ((s.dev.tout p.target).cfg, s.dev.ns + 1000)) ∧
        o.edges = (s.dev.tout p.target).edges ∧
        (∀ j, j ≠ p.target → t.dev.tout j = s.dev.tout j) ∧ Only { Dev.ringed s.dev t.dev with time := t.dev.time } s t) ∧
    (Ready 0x0804 p s → chkTimeTinConfig p s.dev = none →
      Does (.timeTinConfig p.ring p.seq) p .done 0 0 s fun t =>
        t.dev.tin p.target = { s.dev.tin p.target with edge := p.fld 0 0 2, filterNs := p.fld 1 0 8 } ∧
        (∀ j, j ≠ p.target → t.dev.tin j = s.dev.tin j) ∧ Only { Dev.ringed s.dev t.dev with time := t.dev.time } s t) ∧
    (Ready 0x0805 p s →
      Does (.timeRead p.ring p.seq) p .done (twos 64 (s.dev.tbAt p.target 0 / nsUnit))
        (twos 16 (s.dev.tbAt p.target 0 / 2 ^ 40)) s fun t => Only (Dev.ringed s.dev t.dev) s t) ∧
    (Ready 0x08FF p s → chkTimeReinit p s.dev = none →
      Goes (.timeReinit p.ring p.seq) s fun t =>
        (t.dev.tb p.target).st = .holdover ∧ (t.dev.tb p.target).y = (s.dev.tb p.target).yi ∧
        (t.dev.tb p.target).master = none ∧ (t.dev.tb p.target).delayReq = none ∧
        (∀ j, j ≠ p.target → t.dev.tb j = s.dev.tb j) ∧ Only { Dev.ringed s.dev t.dev with time := t.dev.time } s t)

/-- Slew ends, output edges, input captures, snapshots and time triggers act at their instant as the spec says (R137,
R580, R587, R593, R594, R598). -/
def Obligations.TimedEdgesCapturesSnapshotsAndTriggers : Prop :=
  ∀ (s : State) (n : Nat), Settled s →
    (s.dev.on 9 = true →
      ((s.dev.tb n).conv = true → (s.dev.tb n).st ≠ .holdover →
        Goes (.timeSlewEnd n) s fun t =>
          t.dev.tb n = { s.dev.tb n with
            y := (s.dev.tb n).yi, remain := 0, goodRun := 0, conv := false
            st := if (s.dev.tb n).st = .host then .host else .acquiring } ∧
          (∀ j, j ≠ n → t.dev.tb j = s.dev.tb j)) ∧
      ((s.dev.tout n).old = none → (s.dev.tout n).cfg.due (s.dev.tbAt (s.dev.tout n).cfg.base 0) = true →
        Goes (.toutEdge n) s fun t =>
          (t.dev.tout n).active = true ∧ (t.dev.tout n).edges = ((s.dev.tout n).edges + 1) % 2 ^ 32 ∧
          (t.dev.tout n).cfg.k = (s.dev.tout n).cfg.k + 1 ∧
          t.dev.out = .pin .tout n (!(s.dev.tout n).cfg.invert) :: s.dev.out ∧
          (∀ j, j ≠ n → t.dev.tout j = s.dev.tout j) ∧ Only { s.dev with time := t.dev.time, out := t.dev.out } s t) ∧
      ((s.dev.tout n).old = none → (s.dev.tout n).cfg.due (s.dev.tbAt (s.dev.tout n).cfg.base 0) = false →
        exec (.toutEdge n) s = .next s) ∧
      ((s.dev.tout n).active = true →
        exec (.toutPulseEnd n) s = .next (s.onDev fun d =>
          (d.modTout n fun o => { o with active := false }).pin .tout n (s.dev.tout n).cfg.invert)) ∧
      (∀ rising ago, (if rising then (s.dev.tin n).edge % 2 = 1 else (s.dev.tin n).edge / 2 = 1) → (s.dev.tin n).last = none →
        ((s.dev.tin n).queue.length < 16 →
          Goes (.tinEdge n rising ago) s fun t =>
            (t.dev.tin n).queue = (s.dev.tin n).queue ++
              [{ tb0 := s.dev.tbAt 0 ago / 2 ^ 40, tb1 := s.dev.tbAt 1 ago / 2 ^ 40, tb2 := ((s.dev.time.tb2 - ago : Nat) : Int)
                 edge := if rising then 1 else 2 }] ∧
            .msix 6 ∈ t.dev.out ∧ (∀ j, j ≠ n → t.dev.tin j = s.dev.tin j)) ∧
        (16 ≤ (s.dev.tin n).queue.length →
          exec (.tinEdge n rising ago) s = .next (State.settle (s.onDev fun d =>
            (d.modTin n fun x => { x with overflow := true, last := some (d.time.tb2 - ago) }).raise 85 0)))) ∧
      (∀ v : BitVec 32,
        Goes (.tinPop n v) s fun t =>
          (t.dev.tin n).queue = (if v.toNat.testBit 0 then (s.dev.tin n).queue.drop 1 else (s.dev.tin n).queue) ∧
          (∀ j, j ≠ n → t.dev.tin j = s.dev.tin j) ∧ Only { s.dev with time := t.dev.time } s t) ∧
      (∀ v : BitVec 32, v.toNat.testBit 0 = true →
        Goes (.timeSnap v) s fun t =>
          (∀ k, k < 3 → Tab.get (0, 0, 0) t.dev.time.snap k =
            (twos 48 (s.dev.tbAt k 0 / nsUnit / 1000000000), (s.dev.tbAt k 0 / nsUnit % 1000000000).toNat,
              twos 16 (s.dev.tbAt k 0 / 2 ^ 40))) ∧
          Only { s.dev with time := t.dev.time } s t)) ∧
    (∀ p : Packet, s.dev.on 5 = true → s.dev.packet? p.ref = some p →
      (p.phase = .parked → p.trigKind = 1 → s.dev.trigPassed p = true →
        exec (.timeTriggerDue p.ring p.seq) s = .next (s.onDev (Dev.startParked p))) ∧
      (p.phase ≠ .parked ∨ p.trigKind ≠ 1 ∨ s.dev.trigPassed p = false →
        exec (.timeTriggerDue p.ring p.seq) s = .next s))

/-- STAGE_OBJ_OPEN, APPEND, CLOSE and FREE have the effect the spec gives them on the ingest objects (R174, R175,
R176, R177, R178, R179, R180). -/
def Obligations.ObjectCommandsOpenAppendCloseAndFree : Prop :=
  ∀ (s : State) (p : Packet) (i : Nat),
    (Ready 0x0300 p s → chkStageObjOpen p s.dev = none → s.dev.nextIndex = some i →
      let gen := if (s.dev.obj i).used then ((s.dev.obj i).gen + 1) % 2 ^ 16 else (s.dev.obj i).gen
      Does (.stageObjOpen p.ring p.seq) p .done (i + gen * 2 ^ 16) 0 s fun t =>
        t.dev.obj i = { Obj.reset with
          isOpen := true, gen := gen, used := true, cap := p.fld 0 0 64, kind := p.fld 8 0 2, data := [], complete := false } ∧
        t.dev.ing.lastIndex = i ∧ (∀ j, j ≠ i → t.dev.obj j = s.dev.obj j) ∧
        Only { Dev.ringed s.dev t.dev with ing := t.dev.ing } s t) ∧
    (s.dev.objIndex (p.fld 0 0 32) = some i →
      (Ready 0x0301 p s → chkStageObjAppend p s.dev = none →
        Does (.stageObjAppend p.ring p.seq) p .done 0 0 s fun t =>
          t.dev.obj i = { s.dev.obj i with data := (s.dev.obj i).data ++ p.payload.drop 16 } ∧
          (∀ j, j ≠ i → t.dev.obj j = s.dev.obj j) ∧ Only { Dev.ringed s.dev t.dev with ing := t.dev.ing } s t) ∧
      (Ready 0x0302 p s → chkStageObjClose p s.dev = none →
        Does (.stageObjClose p.ring p.seq) p .done 0 0 s fun t =>
          t.dev.obj i = { s.dev.obj i with complete := true } ∧
          (∀ j, j ≠ i → t.dev.obj j = s.dev.obj j) ∧ Only { Dev.ringed s.dev t.dev with ing := t.dev.ing } s t) ∧
      (Ready 0x0303 p s → chkStageObjFree p s.dev = none →
        Does (.stageObjFree p.ring p.seq) p .done 0 0 s fun t =>
          (t.dev.obj i).isOpen = false ∧ (t.dev.obj i).gen = (s.dev.obj i).gen ∧ (t.dev.obj i).data = [] ∧
          (∀ j, j ≠ i → t.dev.obj j = s.dev.obj j) ∧ Only { Dev.ringed s.dev t.dev with ing := t.dev.ing } s t))

/-- The look-ahead and staging decodes, STAGE_CAPTURE and the capture queue act as the spec says (R183, R223, R255,
R256, R257, R258, R266, R271, R285, R286). -/
def Obligations.CodecEventsDecodeCaptureAndDeliver : Prop :=
  ∀ (s : State), Settled s →
    (s.dev.on 4 = true →
      (∀ i, exec (.lookaheadDecodeStart i) s = .next
        (if (s.dev.entry i).st = .accepted ∧ (s.dev.entry i).decode = .waiting ∧ s.dev.sourcesReady (s.dev.entry i).desc = true
          then s.onDev (Dev.modEntry i fun e => { e with decode := .running }) else s)) ∧
      (∀ i, (s.dev.entry i).decode = .running → (s.dev.entry i).live = true →
        (∀ l, s.dev.decodeAll (s.dev.entry i).desc = .ok l →
          exec (.lookaheadDecodeEnd i) s = .next (s.onDev (Dev.modEntry i fun e => { e with decode := .ok, segs := l }))) ∧
        (∀ j f, s.dev.decodeAll (s.dev.entry i).desc = .error (j, f) →
          exec (.lookaheadDecodeEnd i) s = .next (State.settle (s.onDev (Dev.codecError i j f))) ∧
          (s.dev.codecError i j f).entry i = { s.dev.entry i with decode := .failed } ∧
          (s.dev.codec.errValid = false →
            let c := (s.dev.codecError i j f).codec
            c.errValid = true ∧ c.errCause = f.cause.code ∧ c.errStream = (s.dev.entry i).stream ∧ c.errSource = j ∧
            c.errId = (s.dev.entry i).desc.id))) ∧
      (∀ i a b, exec (.stagingDecodeEnd i a b false) s = .next s) ∧
      (∀ i a b, (s.dev.entry i).live = true → (s.dev.entry i).decode = .ok →
        exec (.stagingDecodeEnd i a b true) s = .next (State.settle (s.onDev fun d =>
          Dev.codecReset (Dev.raise 82 0 { d with codec := { d.codec with stageErrs := satInc 32 d.codec.stageErrs } })))) ∧
      (∀ n (v : BitVec 32), exec (.capqHeadWrite n v) s = .next (s.onDev (Dev.modCapq n fun q => { q with head := v.toNat }))) ∧
      (∀ n, s.dev.codec.store.find? (fun (r : CapRec) => r.stream = n) = none → exec (.captureRecordDeliver n) s = .next s) ∧
      (∀ n r, s.dev.codec.store.find? (fun (r : CapRec) => r.stream = n) = some r →
        ((s.dev.capq n).fits r.bytes = false → exec (.captureRecordDeliver n) s = .next s) ∧
        ((s.dev.capq n).fits r.bytes = true → r.raw = false → (s.dev.capq n).flush = none →
          Goes (.captureRecordDeliver n) s fun t =>
            t.dev.codec.store = s.dev.codec.store.erase r ∧
            t.dev.capq n = { s.dev.capq n with tail := ((s.dev.capq n).tail + r.bytes) % 2 ^ 32 } ∧
            (∃ v, t.dev.out = .capture n (r.header v ++ r.block.lines.flatten) :: s.dev.out) ∧
            (∀ m, m ≠ n → t.dev.capq m = s.dev.capq m) ∧
            Only { s.dev with codec := t.dev.codec, free := t.dev.free, out := t.dev.out } s t))) ∧
    (∀ p : Packet, Ready 0x0306 p s → chkStageCapture p s.dev = none →
      let newPorts := some (if p.flag 2 0 then p.fld 0 0 16 else 0)
      (p.flag 2 1 = false → Does (.stageCapture p.ring p.seq) p .done 0 0 s fun t =>
        t.dev.capq p.target = { s.dev.capq p.target with newPorts := newPorts } ∧
        (∀ m, m ≠ p.target → t.dev.capq m = s.dev.capq m) ∧ Only { Dev.ringed s.dev t.dev with codec := t.dev.codec } s t) ∧
      (p.flag 2 1 = true → s.dev.captureAny p.target = false → Does (.stageCapture p.ring p.seq) p .doneEmpty 0 0 s fun t =>
        t.dev.capq p.target = { s.dev.capq p.target with newPorts := newPorts } ∧
        Only { Dev.ringed s.dev t.dev with codec := t.dev.codec } s t) ∧
      (p.flag 2 1 = true → s.dev.captureAny p.target = true → Goes (.stageCapture p.ring p.seq) s fun t =>
        t.dev.capq p.target = { s.dev.capq p.target with newPorts := newPorts, flush := some p.ref, flushDue := true } ∧
        t.dev.out = s.dev.out ∧ Only { s.dev with codec := t.dev.codec, rings := t.dev.rings } s t))

/-- DMA transfers start, end, fail, abort and clear as the spec says, from the registers and from the STAGE commands
(R180, R185, R200, R201, R203, R205, R206, R208, R211, R213, R214, R219). -/
def Obligations.DmaChannelsStartEndFailStopAndClear : Prop :=
  ∀ (s : State) (c : Nat), Settled s →
    (s.dev.on 4 = true → c ≤ 27 →
      (∀ v : BitVec 32, (s.dev.chan c).owner = false → v.toNat.testBit 3 = false → v.toNat.testBit 2 = false →
        v.toNat.testBit 1 = false → (s.dev.chan c).st = .idle → (s.dev.chan c).armed = false →
        descLen (s.dev.chan c).shadow ≠ 0 → descReserved (s.dev.chan c).shadow = false →
        s.dev.descCheck (s.dev.chan c).shadow = none →
        Goes (.dmaGo c v) s fun t =>
          t.dev.chan c = { s.dev.chan c with
            st := .running, act := (s.dev.chan c).shadow, armed := false
            actRef := (s.dev.chan c).shadowRef, shadowRef := none } ∧
          (∀ k, k ≠ c → t.dev.chan k = s.dev.chan k) ∧ Only { s.dev with ing := t.dev.ing } s t) ∧
      (∀ v : BitVec 32, (s.dev.chan c).owner = false → v.toNat.testBit 3 = false → v.toNat.testBit 1 = false →
        v.toNat.testBit 0 = false → (s.dev.chan c).st = .halted → (s.dev.chan c).armed = false →
        Goes (.dmaCtrlClear c v) s fun t =>
          t.dev.chan c = { s.dev.chan c with st := .idle, errAddr := 0, errDir := false, errSpace := 0, errKind := 0 } ∧
          (∀ k, k ≠ c → t.dev.chan k = s.dev.chan k) ∧ Only { s.dev with ing := t.dev.ing } s t) ∧
      (∀ v : BitVec 32, (s.dev.chan c).owner = false → v.toNat.testBit 3 = false → v.toNat.testBit 2 = false →
        v.toNat.testBit 0 = false → (s.dev.chan c).st = .running →
        exec (.dmaCtrlAbort c v) s = .next (State.settle ((s.dmaStop c).onDev (Dev.dmaDrop c))) ∧
        ((s.dmaStop c).dev.chan c).st = .idle ∧ ((s.dmaStop c).dev.chan c).lastResult = 2)) ∧
    (s.dev.on 4 = true →
      (∀ moved other src t n, (s.dev.chan c).act = t → descLen t = n → (s.dev.chan c).st = .running → s.dmaSource t moved n = src → src.length = n →
        (descMode t ≠ 2 → ¬ (descDst t = 2 ∧ s.dev.tableRefused (descFld t 8 0 64) n = true) →
          exec (.dmaTransferEnd c moved other) s = .next (State.settle ((s.dmaWrite t src true).onDev fun d =>
            (d.dmaEnd c 0 0 .done n 0 false).dmaNext c))) ∧
        (∀ k, descMode t = 2 → descDst t = 0 → (other.take n).length = n → firstDiff src (other.take n) 0 = some k →
          exec (.dmaTransferEnd c moved other) s = .next (State.settle (s.onDev fun d =>
            (d.modChan c (fun x => { x with cmpOffset := k })).dmaEnd c 3 (n - k) .compareMismatch k 0 false)))) ∧
      (∀ (d : Dev) result residue st res aux halt,
        let e := d.dmaEnd c result residue st res aux halt
        e.chan c = { d.chan c with
          st := if halt then .halted else .idle, lastResult := result, residue := residue, actRef := none } ∧
        e.ing.dmaDone = d.ing.dmaDone ||| 2 ^ c) ∧
      (∀ kind dir addr moved, (s.dev.chan c).st = .running → 1 ≤ kind → kind ≤ 6 → descMode (s.dev.chan c).act = 2 →
        exec (.dmaBusError c kind dir addr moved) s = .next (State.settle (s.onDev fun d =>
          ((d.modChan c (fun x => { x with
              errAddr := addr % 2 ^ 64, errDir := dir
              errSpace := if dir then descDst x.act else descSrc x.act, errKind := kind })).dmaEnd c 4
            (descLen (d.chan c).act - min moved.length (descLen (d.chan c).act)) (busStatus kind dir) (addr % 2 ^ 64) kind
            true).raise 83 c)))) ∧
    (∀ p : Packet,
      (Ready 0x0304 p s → chkStageDmaStart p s.dev = none →
        exec (.stageDmaStart p.ring p.seq) s = .next (State.settle (s.onDev fun d =>
          ((d.executing p).modChan p.target (fun x => { x with shadow := p.descWords, shadowRef := some p.ref })).dmaGo
            p.target))) ∧
      (Ready 0x0305 p s → chkStageDmaAbort p s.dev = none →
        (s.dev.chan p.target).st ≠ .running → (s.dev.chan p.target).armed = false →
        Does (.stageDmaAbort p.ring p.seq) p .doneEmpty 0 0 s fun t => Only (Dev.ringed s.dev t.dev) s t) ∧
      (Ready 0x0305 p s → chkStageDmaAbort p s.dev = none → (s.dev.chan p.target).st = .running →
        exec (.stageDmaAbort p.ring p.seq) s = .next (State.settle ((s.dmaAbort p.target).onDev
          (Dev.complete p.ref .done ((s.dmaAbort p.target).dev.chan p.target).residue 0)))) ∧
      (Ready 0x03FF p s → (∀ k, k < 32 → (s.dev.chan k).st ≠ .running ∧ (s.dev.chan k).armed = false) →
        Does (.stageReinit p.ring p.seq) p .done 0 0 s fun t => Only (Dev.ringed s.dev t.dev) s t))

/-- BAR2_WRITE and the table aperture write the bytes of a HOST bank and nothing else (R867, R875, R878, R879, R881).
-/
def Obligations.TableWindowWritesReachOnlyHostBanks : Prop :=
  ∀ (s : State) (o : Nat) (b : List Nat), Settled s → MemWf s →
    (s.dev.on 6 = true →
      ((b.length = 4 ∨ b.length = 8) → o % b.length = 0 → s.dev.sys.stage = .operational → o < 12 * 0x200000 →
        s.dev.hostBank (o / 0x200000) = true →
        Goes (.bar2Write o b) s fun t =>
          (∀ (i : Nat) (h : i < b.length), t.mem.sram.read sramDefault (o + i) = BitVec.ofNat 8 b[i]) ∧
          (∀ a, a < o ∨ o + b.length ≤ a → t.mem.sram.read sramDefault a = s.mem.sram.read sramDefault a) ∧
          t = { s with mem := { s.mem with sram := t.mem.sram } }) ∧
      (¬ (b.length = 4 ∨ b.length = 8) ∨ o % b.length ≠ 0 ∨ s.dev.sys.stage ≠ .operational ∨ 12 * 0x200000 ≤ o ∨
          s.dev.hostBank (o / 0x200000) = false →
        exec (.bar2Write o b) s = .next s)) ∧
    (s.dev.on 0 = true → ∀ x,
      exec (.tableApertureAccess x none) s = .next s ∧
      (∀ v : BitVec 32, x % 4 ≠ 0 → exec (.tableApertureAccess x (some v)) s = .next s) ∧
      (∀ v : BitVec 32, x % 4 = 0 → s.dev.on 6 = true → exec (.tableApertureAccess x (some v)) s =
        exec (.bar2Write (s.dev.sys.tableBase * 4096 + x % 4096) (leBytes 4 v.toNat)) s))

/-- A command that schedules a change appends it with its line boundary and completes DONE with that boundary's WP
(R356, R365, R374, R375, R376, R378, R383, R422, R423, R492). -/
def Obligations.ScheduledChangesTakeTheirBoundary : Prop :=
  ∀ (s : State) (p : Packet) (k : Nat) (u : Int),
    (∀ x ∈ (s.dev.nst k).changes, x.boundary.isSome = true) →
    let grown (table : List Nat) : List Change := (s.dev.nst k).changes ++ [{ Change.reset with
      op := p.op, target := p.target, boundary := some u, earliest := s.dev.earliestLine k, payload := p.payload
      table := table }]
    let at_ (when_ wp : Nat) : Prop := s.dev.boundaryOf k when_ wp = some u ∧ ¬ (when_ = 0 ∧ s.dev.tooNear k wp = true)
    let sched (c : Instr) (table : List Nat) : Prop :=
      Does c p .done (wpOf u) 0 s fun t =>
        t.dev.nst k = { s.dev.nst k with changes := grown table } ∧
        (∀ j, j ≠ k → t.dev.nst j = s.dev.nst j) ∧ Only { Dev.ringed s.dev t.dev with noz := t.dev.noz } s t
    (Ready 0x0502 p s → chkNozSwapStatus p s.dev = none → k = p.target → at_ (p.fld 0 0 2) (p.fld 8 0 48) →
      Does (.nozSwapStatus p.ring p.seq) p .done (wpOf u) 0 s fun t =>
        t.dev.nst k = { s.dev.nst k with
          changes := grown [], statusNext := (s.dev.nst k).statusPend.getD (s.dev.nst k).status } ∧
        (∀ j, j ≠ k → t.dev.nst j = s.dev.nst j) ∧ Only { Dev.ringed s.dev t.dev with noz := t.dev.noz } s t) ∧
    (Ready 0x0504 p s → chkNozSetStitch p s.dev = none → k = p.target → at_ (p.fld 0 0 2) (p.fld 8 0 48) →
      sched (.nozSetStitch p.ring p.seq) []) ∧
    (Ready 0x0505 p s → chkNozSetDelay p s.dev = none → k = s.dev.streamAt p.target → at_ (p.fld 0 0 2) (p.fld 8 0 48) →
      sched (.nozSetDelay p.ring p.seq) []) ∧
    (Ready 0x0506 p s → chkNozLoadOffsets p s.dev = none → k = s.dev.streamAt p.target →
      (s.dev.hp p.target).st ≠ .up → at_ (p.fld 0 1 2) (p.fld 16 0 48) →
      sched (.nozLoadOffsets p.ring p.seq) (words16 (s.dev.tableBytes 24 p))) ∧
    (Ready 0x0603 p s → chkFireSetDatum p s.dev = none → k = p.target → at_ (p.fld 0 0 2) (p.fld 16 0 48) →
      sched (.fireSetDatum p.ring p.seq) []) ∧
    (Ready 0x0604 p s → chkFireRegister p s.dev = none → k = p.target → at_ (p.fld 0 0 2) (p.fld 16 0 48) →
      sched (.fireRegister p.ring p.seq) []) ∧
    (Ready 0x0703 p s → chkHeadSelectWave p s.dev = none → s.dev.streamOf p.target = some k →
      at_ (p.fld 0 0 2) (p.fld 8 0 48) → sched (.headSelectWave p.ring p.seq) []) ∧
    (Ready 0x0703 p s → chkHeadSelectWave p s.dev = none → s.dev.streamOf p.target = none →
      Does (.headSelectWave p.ring p.seq) p .done unknownWp 0 s fun t =>
        t.dev.hp p.target = { s.dev.hp p.target with slot := p.fld 0 2 3 } ∧
        (∀ j, j ≠ p.target → t.dev.hp j = s.dev.hp j) ∧ Only { Dev.ringed s.dev t.dev with hl := t.dev.hl } s t)

/-- NOZ_CONFIG_STREAM, LOAD_STATUS, LOAD_TAKEOVER and REINIT have the effect the spec gives them (R343, R344, R346,
R354, R355, R359, R360, R385). -/
def Obligations.NozzleCommandsConfigureLoadAndReset : Prop :=
  ∀ (s : State) (p : Packet),
    (Ready 0x0500 p s → chkNozConfigStream p s.dev = none →
      Goes (.nozConfigStream p.ring p.seq) s fun t =>
        t.dev.nst p.target = { NozStream.reset with
          configured := !p.flag 0 7, ports := p.portEntries, maxRate := p.fld 4 0 32
          skipped := (s.dev.nst p.target).skipped, blanked := (s.dev.nst p.target).blanked
          lastApply := (s.dev.nst p.target).lastApply } ∧
        t.dev.ist p.target = (s.dev.ist p.target).unconfigured ∧
        (∀ j, j ≠ p.target → t.dev.nst j = s.dev.nst j ∧ t.dev.ist j = s.dev.ist j) ∧
        t = { s with dev := { Dev.ringed s.dev t.dev with noz := t.dev.noz, imp := t.dev.imp, hl := t.dev.hl } }) ∧
    (Ready 0x0501 p s → chkNozLoadStatus p s.dev = none →
      Does (.nozLoadStatus p.ring p.seq) p .done 0 0 s fun t =>
        t.dev.nst p.target = { s.dev.nst p.target with
          statusPend := some (loadStatus ((s.dev.nst p.target).statusPend.getD (s.dev.nst p.target).status) (p.fld 8 0 32)
            (p.fld 12 0 32) (s.dev.tableBytes 16 p)) } ∧
        (∀ j, j ≠ p.target → t.dev.nst j = s.dev.nst j) ∧ Only { Dev.ringed s.dev t.dev with noz := t.dev.noz } s t) ∧
    (Ready 0x0503 p s → chkNozLoadTakeover p s.dev = none →
      Does (.nozLoadTakeover p.ring p.seq) p .done 0 0 s fun t =>
        (t.dev.nst p.target).takeover = [p.fld 0 0 3, p.fld 0 3 3, p.fld 0 6 3, p.fld 0 9 3, p.fld 0 12 3, p.fld 0 15 3,
          p.fld 0 18 3, p.fld 0 21 3, p.fld 3 0 1, p.fld 4 0 9] ∧
        (t.dev.nst p.target).status = (s.dev.nst p.target).status ∧
        (∀ j, j ≠ p.target → t.dev.nst j = s.dev.nst j) ∧ Only { Dev.ringed s.dev t.dev with noz := t.dev.noz } s t) ∧
    (Ready 0x05FF p s → exec (.nozReinit p.ring p.seq) s =
      .next (State.settle (s.onDev fun d => (d.spoilAll p.target 0x0B).complete p.ref .done 0 0)))

/-- Encoder transitions, index edges, signal loss and return, standstill and FSYNC act as the spec says (R391, R393,
R394, R395, R396, R403, R404, R408, R415, R429, R440). -/
def Obligations.EncoderEventsCountAndMoveTheWeb : Prop :=
  ∀ (s : State) (e : Nat) (a b : Bool) (ago : Nat), Settled s → s.dev.on 11 = true →
    let x := s.dev.enc e
    let now := s.dev.time.tb2 - ago
    let far : Prop := ∀ l, x.lastTrans = some l → l + max 40 (x.filterNs + 8) * 2 ^ 16 ≤ now
    let live : Prop := x.role ≠ 0 ∧ x.signalOk = true
    let fwd := xor (isForward x.a x.b a b) x.invert
    (x.a = a ∧ x.b = b → exec (.encoderTransition e a b ago) s = .next s) ∧
    (¬ (x.a = a ∧ x.b = b) → (x.role = 0 ∨ x.signalOk = false) →
      exec (.encoderTransition e a b ago) s = .next (s.onDev (Dev.modEnc e fun x => { x with a := a, b := b }))) ∧
    (live → x.a ≠ a → x.b ≠ b → exec (.encoderTransition e a b ago) s = .next (State.settle (s.onDev fun d =>
      ((d.modEnc e fun x => { x with
        a := a, b := b, lastTrans := some now, illegal := true, illegalCount := satInc 32 x.illegalCount }).raise (2 + e)
        0).sourceFails e))) ∧
    (live → xor (x.a = a) (x.b = b) = true → ¬ far → exec (.encoderTransition e a b ago) s = .next (State.settle (s.onDev fun d =>
      ((d.modEnc e fun x => { x with a := a, b := b, lastTrans := some now, rateErr := true }).raise (4 + e)
        0).sourceFails e))) ∧
    (live → xor (x.a = a) (x.b = b) = true → far → x.rebase = false →
      (s.dev.fire.src ≠ e ∨ s.dev.fire.lost = true) ∨ (fwd = true ∧ x.deficit = 0 ∧ s.dev.fire.reinits = []) →
      Goes (.encoderTransition e a b ago) s fun t =>
        let y := t.dev.enc e
        y.a = a ∧ y.b = b ∧ y.lastTrans = some now ∧ y.edgeNs = now / 2 ^ 16 ∧
        y.count = (if fwd then x.count + 1 else x.count - 1) ∧
        y.deficit = (if fwd then x.deficit - 1 else satInc 32 x.deficit) ∧
        (fwd = true ∧ x.deficit = 0 → y.m = x.m + 1 ∧ y.tE = now ∧
          y.xE = x.wpBase + 64 * x.ratio * (x.m + 1 - x.mBase) / 2 ^ 16 ∧
          (s.dev.fire.src = e → s.dev.fire.lost = false → t.dev.fire.lastWp = y.xE)) ∧
        (fwd = false ∨ 0 < x.deficit → y.m = x.m ∧ y.xE = x.xE ∧ y.tE = x.tE ∧ t.dev.fire.lastWp = s.dev.fire.lastWp) ∧
        (∀ j, j ≠ e → t.dev.enc j = s.dev.enc j) ∧ Only { s.dev with fire := t.dev.fire } s t) ∧
    (x.role ≠ 0 →
      (x.lastIndex = none → exec (.encoderIndexEdge e) s =
        .next (s.onDev (Dev.modEnc e fun x => { x with lastIndex := some x.count }))) ∧
      (∀ l, x.lastIndex = some l →
        ((x.perIndex = 0 ∨ mag (x.count - l - x.perIndex) ≤ x.indexTol) → exec (.encoderIndexEdge e) s =
          .next (s.onDev (Dev.modEnc e fun x => { x with lastIndex := some x.count, indexSpan := x.count - l }))) ∧
        ((x.perIndex ≠ 0 ∧ (x.indexTol : Int) < mag (x.count - l - x.perIndex)) → exec (.encoderIndexEdge e) s =
          .next (State.settle (s.onDev fun d => (d.modEnc e fun x => { x with
            lastIndex := some x.count, indexSpan := x.count - l, indexErr := true }).raise (6 + e) 0)))) ∧
      exec (.encoderLos e) s = .next (State.settle (s.onDev fun d =>
        ((d.modEnc e fun x => { x with signalOk := false, los := true }).raise e 0).sourceFails e))) ∧
    (x.role = 0 → exec (.encoderLos e) s = .next (s.onDev (Dev.modEnc e fun x => { x with signalOk := false }))) ∧
    exec (.encoderSignalRestore e a b) s = .next (State.settle (s.onDev fun d =>
      (d.modEnc e fun x => { x with signalOk := true, a := a, b := b }).lower e)) ∧
    (s.dev.fire.reinits = [] → Goes .standstill s fun t =>
      let y := s.dev.enc s.dev.fire.src
      t.dev.enc s.dev.fire.src = { y with v := 0, p := y.xE, edgeNew := false, still := true } ∧
      (∀ j, j ≠ s.dev.fire.src → t.dev.enc j = s.dev.enc j) ∧ Only { s.dev with fire := t.dev.fire } s t) ∧
    (∀ q k l f, (List.range 4).find? (fun n => (s.dev.fst n).armed.any (fun a => a.times.any (fun t => t.1 = q))) = some k →
      (s.dev.fst k).armed.find? (fun a => a.times.any (fun t => t.1 = q)) = some l →
      l.times.find? (fun t => t.1 = q) = some f → s.dev.hl.blankDue = false →
      (s.dev.hp q).dropsPend + ((((s.dev.hp q).sentLines.find? (fun x => x.line = l.line)).map (·.levels)).getD []).length <
        256 * 2 ^ 20 →
      Goes (.fsyncEmit q) s fun t =>
        t.dev.out = .fsync q f.2 (twos 42 l.line) :: s.dev.out ∧
        (t.dev.fport q).fsyncNs = f.2 / 2 ^ 16 ∧ (t.dev.fport q).fsyncCount = ((s.dev.fport q).fsyncCount + 1) % 2 ^ 32 ∧
        Only { s.dev with fire := t.dev.fire, hl := t.dev.hl, out := t.dev.out } s t) ∧
    (∀ q, (∀ n, n < 4 → ∀ a ∈ (s.dev.fst n).armed, ∀ t ∈ a.times, t.1 ≠ q) → exec (.fsyncEmit q) s = .next s)

/-- FIRE_CONFIG_ENCODER, SET_RATIO, SET_TRACKING, REINIT and the encoder comparison have the effect the spec gives
them (R391, R397, R399, R400, R402, R405, R407, R412, R418). -/
def Obligations.FireCommandsConfigureAndReset : Prop :=
  ∀ (s : State) (p : Packet),
    (Ready 0x0600 p s → chkFireConfigEncoder p s.dev = none →
      let e := p.target
      let x := s.dev.enc e
      let stored (role : Nat) : Enc := { x with
        role := role, invert := p.flag 0 2, filterNs := p.fld 1 0 8, indexTol := p.fld 2 0 16, perIndex := p.fld 4 0 32 }
      (x.role = p.fld 0 0 2 → x.role ≠ 0 → x.signalOk = true → s.dev.sourceUnder e x.role = some s.dev.fire.src →
        s.dev.fire.lostNoPrimary = false → s.dev.fire.lostSource = false →
        Does (.fireConfigEncoder p.ring p.seq) p .done 0 0 s fun t =>
          t.dev.enc e = stored x.role ∧ (∀ j, j ≠ e → t.dev.enc j = s.dev.enc j) ∧
          t.dev.fire.src = s.dev.fire.src ∧ t.dev.fire.lost = s.dev.fire.lost ∧
          Only { Dev.ringed s.dev t.dev with fire := t.dev.fire } s t) ∧
      (x.role = 0 → p.fld 0 0 2 = 1 → x.signalOk = true → s.dev.fire.lostNoPrimary = true → s.dev.fire.lostSource = false →
        s.dev.fire.lostSat = false →
        Does (.fireConfigEncoder p.ring p.seq) p .done 0 0 s fun t =>
          t.dev.fire.src = e ∧ t.dev.fire.lost = false ∧ (t.dev.enc e).role = 1 ∧ (t.dev.enc e).rebase = true ∧
          (t.dev.enc e).xE = s.dev.fire.lastWp ∧ (∀ j, j ≠ e → t.dev.enc j = s.dev.enc j) ∧
          Only { Dev.ringed s.dev t.dev with fire := t.dev.fire } s t)) ∧
    (Ready 0x0601 p s → chkFireSetRatio p s.dev = none →
      Does (.fireSetRatio p.ring p.seq) p .done 0 0 s fun t =>
        t.dev.enc p.target = { s.dev.enc p.target with ratio := p.fld 0 0 64, rebase := true } ∧
        (∀ j, j ≠ p.target → t.dev.enc j = s.dev.enc j) ∧ Only { Dev.ringed s.dev t.dev with fire := t.dev.fire } s t) ∧
    (Ready 0x0602 p s → chkFireSetTracking p s.dev = none →
      Does (.fireSetTracking p.ring p.seq) p .done 0 0 s fun t =>
        t.dev.fire = { s.dev.fire with
          bwHz := p.fld 0 0 16, zeta := p.fld 2 0 16, lpi := p.fld 4 0 16, revTol := p.fld 6 0 8, stillUs := p.fld 8 0 32
          minRate := p.fld 12 0 32, resumeRate := p.fld 16 0 32 } ∧
        Only { Dev.ringed s.dev t.dev with fire := t.dev.fire } s t) ∧
    (Ready 0x06FF p s → (∀ k, k < 4 → s.dev.onWeb k = []) → s.dev.primary = none → s.dev.fire.reversed = false →
      s.dev.fire.lostSat = false →
      Goes (.fireReinit p.ring p.seq) s fun t =>
        let y := s.dev.enc s.dev.fire.src
        t.dev.enc s.dev.fire.src = { y with
          deficit := 0, m := y.count, rebase := true, v := 0, p := y.xE, edgeNew := false } ∧
        (∀ j, j ≠ s.dev.fire.src → t.dev.enc j = s.dev.enc j) ∧ t.dev.fire.reinits = s.dev.fire.reinits ++ [p.ref] ∧
        t.dev.out = s.dev.out ∧ Only { s.dev with fire := t.dev.fire, rings := t.dev.rings } s t) ∧
    (Settled s → s.dev.on 11 = true →
      let differ (e : Nat) : Prop := (s.dev.enc (1 - e)).role ≠ 0 ∧ (s.dev.enc e).signalOk = true ∧
        (s.dev.enc (1 - e)).signalOk = true ∧ rateGe (s.dev.enc e).v s.dev.fire.minRate = true ∧
        ((s.dev.enc e).v : Int) < 64 * mag (((s.dev.enc e).v : Int) - (s.dev.enc (1 - e)).v)
      (s.dev.primary = none ∨ (∃ e, s.dev.primary = some e ∧ ¬ differ e) → exec .encoderCompare s =
        .next (s.onDev fun d => { d with fire := { d.fire with mismatchRun := 0 } })) ∧
      (∀ e, s.dev.primary = some e → differ e → s.dev.fire.mismatchRun < 9 → exec .encoderCompare s =
        .next (s.onDev fun d => { d with fire := { d.fire with mismatchRun := d.fire.mismatchRun + 1 } })) ∧
      (∀ e, s.dev.primary = some e → differ e → s.dev.fire.mismatchRun = 9 → exec .encoderCompare s =
        .next (State.settle (s.onDev fun d => Dev.raise 8 0 (Dev.modEnc 1 (fun x => { x with mismatch := true })
          (Dev.modEnc 0 (fun x => { x with mismatch := true }) { d with fire := { d.fire with mismatchRun := 10 } }))))))

/-- HEAD_TRAIN, AUTH, LOAD_WAVE, RESET, READ_COUNTER and REINIT have the effect the spec gives them (R478, R479, R489,
R491, R496, R497, R498, R500, R501, R502). -/
def Obligations.HeadCommandsTrainAuthenticateLoadAndReset : Prop :=
  ∀ (s : State) (p : Packet),
    let q := p.target
    (Ready 0x0700 p s → chkHeadTrain p s.dev = none →
      let e := ((s.dev.cutTraining q).modHp q fun h => { h with
        authReq := p.flag 0 0, hvFf := p.flag 0 1, autoRetrain := p.flag 0 2, sendAhead := p.fld 1 0 6
        hrstMs := p.fld 2 0 10, trainRef := some p.ref }).startTraining q (!p.flag 0 3)
      exec (.headTrain p.ring p.seq) s = .next (State.settle (s.onDev fun _ => e.executing p)) ∧
      (e.hp q).st = (if p.flag 0 3 then .training else .reset) ∧ (e.hp q).hrst = !p.flag 0 3 ∧
      (e.hp q).authReq = p.flag 0 0 ∧ (e.hp q).hvFf = p.flag 0 1 ∧ (e.hp q).autoRetrain = p.flag 0 2 ∧
      (e.hp q).sendAhead = p.fld 1 0 6 ∧ (e.hp q).hrstMs = p.fld 2 0 10 ∧ (e.hp q).trainRef = some p.ref) ∧
    (Ready 0x0701 p s → chkHeadAuth p s.dev = none →
      (p.fld 0 0 2 = 1 → Does (.headAuth p.ring p.seq) p .done 0 0 s fun t =>
        t.dev.hl = { s.dev.hl with
          fuses := Tab.set (p.fld 0 2 2) (p.fld 8 0 128) s.dev.hl.fuses, fuseDone := s.dev.hl.fuseDone ||| 2 ^ p.fld 0 2 2 } ∧
        Only { Dev.ringed s.dev t.dev with hl := t.dev.hl } s t) ∧
      (p.fld 0 0 2 ≠ 1 → exec (.headAuth p.ring p.seq) s =
        .next (State.settle (s.onDev fun d => (d.executing p).nextI2c q)))) ∧
    (Ready 0x0702 p s → chkHeadLoadWave p s.dev = none →
      let w : Wave := { loaded := true, count := p.fld 10 0 16, samples := words16 (s.dev.tableBytes 16 p) }
      ((s.dev.hp q).st ≠ .up → Does (.headLoadWave p.ring p.seq) p .done 0 0 s fun t =>
        t.dev.hp q = { s.dev.hp q with slots := Tab.set (p.fld 8 0 3) w (s.dev.hp q).slots } ∧
        (∀ j, j ≠ q → t.dev.hp j = s.dev.hp j) ∧ Only { Dev.ringed s.dev t.dev with hl := t.dev.hl } s t) ∧
      ((s.dev.hp q).st = .up → exec (.headLoadWave p.ring p.seq) s = .next (State.settle (s.onDev fun d =>
        (d.modHp q fun h => { h with slots := Tab.set (p.fld 8 0 3) w h.slots }).startDeviceAct p 5 (2 ^ q) (p.fld 8 0 3))))) ∧
    (Ready 0x0704 p s → chkHeadReset p s.dev = none →
      let e := (s.dev.spoilPort q 0x0B).cutTraining q
      exec (.headReset p.ring p.seq) s = .next (State.settle (s.onDev fun _ => (Dev.setHrst q true
        ((e.modHp q fun h => { h.cut with st := .reset, resetRef := some p.ref }).complete? (e.hp q).resetRef .aborted 0
          0)).executing p))) ∧
    (Ready 0x0705 p s → exec (.headReadCounter p.ring p.seq) s =
      .next (State.settle (s.onDev fun d => (d.executing p).nextI2c q))) ∧
    (∀ d : Dev, (d.hp q).i2c = .idle → (d.hp q).st ≠ .auth → ∀ r, d.authWaiting q = some r →
      d.nextI2c q = (d.modHp q fun h => { h with i2c := .readInfo, authRef := some r }).send (.i2c q 0x00 [] 16)) ∧
    (Ready 0x07FF p s → chkHeadReinit p s.dev = none →
      exec (.headReinit p.ring p.seq) s = .next (State.settle (s.onDev fun d =>
        ((((d.spoilPort q 0x0B).cutTraining q).modHp q fun h => { h with trainRef := some p.ref }).startTraining q
          false).executing p)))

/-- Line sending, LSTAT, timeouts, replays and alerts of a head port act as the spec says (R452, R458, R461, R462,
R464, R468, R470, R472, R482, R499, R503, R507). -/
def Obligations.HeadLinkEventsSendAckConfirmAndAlert : Prop :=
  ∀ (s : State) (q : Nat), Settled s → s.dev.on 10 = true →
    (∀ k, s.dev.streamOf q = some k →
      let n := s.dev.nextLineOf k q
      let i := (s.dev.nst k).indexOf q
      (s.dev.maySend k q n = true → s.dev.lineReady k i n = true → exec (.hlLineSend q) s =
        .next (State.settle (s.onDev fun d => (d.sendLine k i n).modHp q fun h => { h with nextSend := n + 1 }))) ∧
      (s.dev.maySend k q n = false ∨ s.dev.lineReady k i n = false → exec (.hlLineSend q) s = .next s) ∧
      ((s.dev.hp q).st = .up → s.dev.lineReady k i n = false → exec (.hlFeederDeadline q) s =
        .next (s.onDev (Dev.modHp q fun h => { h with nextSend := n + 1 })))) ∧
    (∀ l : Lstat, ((s.dev.hp q).receives = false → exec (.hlLstatReceive q l) s = .next s) ∧
      ((s.dev.hp q).receives = true → exec (.hlLstatReceive q l) s = .next (State.settle (s.onDev fun d =>
        (((d.lstatAcks q l).lstatFired q l).lstatMeasures q l).headHeat q l.temp)))) ∧
    ((s.dev.hp q).st ≠ .up → exec (.hlLstatTimeout q) s = .next s ∧ exec (.hlRxLockLoss q) s = .next s) ∧
    ((s.dev.hp q).st = .up → (s.dev.hp q).autoRetrain = false → (s.dev.hp q).waveRef = none →
      s.dev.sched.acts.all (fun a => !(a.kind = 5 && a.running && a.res = 2 ^ q)) = true →
      let down := State.settle (s.onDev fun d => (d.modHp q fun h => { h.cut with st := .down, downSeen := true }).raise (16 + q) 0)
      exec (.hlLstatTimeout q) s = .next down ∧ exec (.hlRxLockLoss q) s = .next down) ∧
    (∀ n f, (s.dev.hp q).unacked.find? (fun f => f.tseq = n) = some f →
      Goes (.hlReplayTimeout q n) s fun t =>
        (t.dev.hp q).replays = satInc 32 (s.dev.hp q).replays ∧
        (t.dev.hp q).unacked = (s.dev.hp q).unacked.map (fun g => if g.tseq = f.tseq then { g with sent := g.sent + 1 } else g) ∧
        t.dev.out = .frame q f.type f.tseq f.fields :: s.dev.out ∧
        Only { s.dev with hl := t.dev.hl, out := t.dev.out } s t) ∧
    (∀ n, (s.dev.hp q).unacked.find? (fun f => f.tseq = n) = none → exec (.hlReplayTimeout q n) s = .next s) ∧
    ((s.dev.hp q).confirm = [] → exec (.hlFireConfirmTimeout q) s = .next s) ∧
    ((s.dev.hp q).confirm ≠ [] → exec (.hlFireConfirmTimeout q) s = .next (State.settle (s.onDev (Dev.fireFail q)))) ∧
    exec (.hlVoidCheckTimeout q) s = .next
      (if (s.dev.hp q).st = .up ∧ (s.dev.hp q).voidSent ≠ (s.dev.hp q).voidSeen
        then State.settle (s.onDev (Dev.raise (48 + q) 0)) else s) ∧
    exec (.hlHalertLow q) s = .next (State.settle (s.onDev fun d =>
      (d.modHp q fun h => { h with halert := true, alertSeen := true }).raise (64 + q) 0)) ∧
    exec (.hlHalertRelease q) s = .next (s.onDev (Dev.modHp q fun h => { h with halert := false })) ∧
    exec (.hlRxFrameDiscard q) s = .next (s.onDev (Dev.modHp q fun h => { h with crcErrs := satInc 32 h.crcErrs })) ∧
    ((s.dev.hp q).i2c = .idle → (s.dev.hp q).authRef = none → (s.dev.hp q).st ≠ .auth → 2 ^ 20 ≤ (s.dev.hp q).dropsPend →
      Goes (.hlUsageIncrementTimer q) s fun t =>
        t.dev.hp q = { s.dev.hp q with i2c := .increment, dropsPend := (s.dev.hp q).dropsPend % 2 ^ 20 } ∧
        t.dev.out = .i2c q 0x38 (leBytes 4 ((s.dev.hp q).dropsPend / 2 ^ 20)) 0 :: s.dev.out ∧
        (∀ j, j ≠ q → t.dev.hp j = s.dev.hp j) ∧ Only { s.dev with hl := t.dev.hl, out := t.dev.out } s t)

/-- Reset release, training sets, DECLARE, RESP, timeouts and I2C ends take a head port through its training and
authentication (R457, R479, R480, R491, R495, R496, R497, R501). -/
def Obligations.HeadTrainingAndAuthenticationGoThroughTheirSteps : Prop :=
  ∀ (s : State) (q : Nat), Settled s → s.dev.on 10 = true →
    let h := s.dev.hp q
    (h.hrst = false → exec (.hlHrstRelease q) s = .next s) ∧
    (∀ p : Packet, h.hrst = true → h.resetRef = some p.ref → s.dev.packet? p.ref = some p →
      Goes (.hlHrstRelease q) s fun t =>
        Completed p .done 0 0 s t ∧ t.dev.hp q = { h with hrst := false, st := .down, resetRef := none } ∧
        (∀ j, j ≠ q → t.dev.hp j = s.dev.hp j) ∧ Only { Dev.ringed s.dev t.dev with hl := t.dev.hl } s t) ∧
    (h.hrst = true → h.resetRef = none → h.st = .reset → Goes (.hlHrstRelease q) s fun t =>
      t.dev.hp q = { h with hrst := false, st := .training } ∧ t.dev.out = .pin .hrst q true :: s.dev.out) ∧
    (∀ second n, h.st ≠ .training → exec (.hlTrainingSetReceive q second n) s = .next s) ∧
    (∀ n, h.st = .training → h.phase = 0 → h.ts2 < 16 → 16 ≤ h.ts1 + n → Goes (.hlTrainingSetReceive q false n) s fun t =>
      t.dev.hp q = { h with ts1 := h.ts1 + n, phase := 1 } ∧ t.dev.out = .train q 2 :: s.dev.out) ∧
    (∀ n, h.st = .training → h.phase = 1 → 16 ≤ h.ts2 + n → Goes (.hlTrainingSetReceive q true n) s fun t =>
      t.dev.hp q = { h with ts2 := h.ts2 + n, phase := 2 } ∧ t.dev.out = .train q 0 :: s.dev.out) ∧
    (∀ x : Declare, h.st = .training → h.phase = 2 →
      (s.dev.declareBad q x = true → exec (.hlDeclareReceive q x) s =
        .next (State.settle (s.onDev (Dev.trainFail q 2 .badField)))) ∧
      (s.dev.declareBad q x = false →
        (s.dev.streamOf q).any (fun k => decide (x.maxRate < (s.dev.nst k).maxRate)) = true →
        exec (.hlDeclareReceive q x) s = .next (State.settle (s.onDev (Dev.trainFail q 3 .refused)))) ∧
      (s.dev.declareBad q x = false →
        (s.dev.streamOf q).any (fun k => decide (x.maxRate < (s.dev.nst k).maxRate)) = false →
        exec (.hlDeclareReceive q x) s = .next (State.settle (s.onDev fun d =>
          let e := (d.modHp q fun h => { h with
            levels := x.levels, nozzles := x.nozzles, hblat := x.hblat, bufLines := x.bufLines, waves := x.waves
            waveSamples := x.waveSamples, hvRef := x.hvRef, maxRate := x.maxRate, uid := x.uid, model := x.model }).modFport q
            fun f => { f with hblat := x.hblat }
          if h.authReq then (e.modHp q fun h => { h with st := .auth }).nextI2c q else e.startLoading q)))) ∧
    (∀ op r, h.st = .loading →
      (r ≠ 0 → exec (.hlRespReceive q op r) s = .next (State.settle (s.onDev (Dev.trainFail q 2 .badField)))) ∧
      (r = 0 → op = 1 → exec (.hlRespReceive q op r) s = .next (State.settle (s.onDev (Dev.portUp q)))) ∧
      (r = 0 → op = 2 → exec (.hlRespReceive q op r) s =
        .next (s.onDev (Dev.modHp q fun h => { h with loadQ := h.loadQ.drop 1 })))) ∧
    (h.st = .training ∨ h.st = .auth ∨ h.st = .loading → exec (.hlTrainingTimeout q) s =
      .next (State.settle (s.onDev (Dev.trainFail q 1 .timeout)))) ∧
    (∀ ok data, h.i2c = .idle → exec (.hlI2cTransactionEnd q ok data) s = .next s) ∧
    (∀ data, h.i2c ≠ .idle → h.i2c ≠ .increment → exec (.hlI2cTransactionEnd q false data) s =
      .next (State.settle (s.onDev (Dev.authEnd q false 0)))) ∧
    (∀ data, h.i2c = .readInfo → Goes (.hlI2cTransactionEnd q true data) s fun t =>
      t.dev.hp q = { h with
        infoUid := leNat (data.take 8), infoModel := leNat ((data.drop 8).take 4), keyVer := bits (leNat data) 96 2
        i2c := .writeChallenge, challenge := Config.challenge s.dev.free % 2 ^ 128 } ∧
      t.dev.out = .i2c q 0x10 (leBytes 16 (Config.challenge s.dev.free % 2 ^ 128)) 0 :: s.dev.out) ∧
    (∀ data, h.i2c = .writeChallenge → Goes (.hlI2cTransactionEnd q true data) s fun t =>
      t.dev.hp q = { h with i2c := .readResponse } ∧ t.dev.out = .i2c q 0x20 [] 16 :: s.dev.out) ∧
    (∀ data, h.i2c = .readResponse → Goes (.hlI2cTransactionEnd q true data) s fun t =>
      t.dev.hp q = { h with i2c := .readCounter, resp := leNat (data.take 16) } ∧
      t.dev.out = .i2c q 0x30 [] 8 :: s.dev.out) ∧
    (∀ data, h.i2c = .readCounter → exec (.hlI2cTransactionEnd q true data) s =
      .next (State.settle (s.onDev fun d => d.authEnd q (d.responseOk q (leNat (data.take 8))) (leNat (data.take 8)))))

/-- IMP_CONFIG_STREAM, IMP_RECOVER and IMP_REINIT have the effect the spec gives them (R38, R42, R80, R115, R130). -/
def Obligations.ImprintStreamCommandsConfigureAndRecover : Prop :=
  ∀ (s : State) (p : Packet),
    (Ready 0x0204 p s → chkImpConfigStream p s.dev = none →
      Does (.impConfigStream p.ring p.seq) p .done 0 0 s fun t =>
        t.dev.ist p.target = { s.dev.ist p.target with
          configured := true, policy := p.flag 0 0, markLevel := p.fld 1 0 3, markCount := p.fld 2 0 16
          markFirst := p.fld 4 0 16, markLines := p.fld 6 0 16, stopDistance := p.fld 8 0 24, horizon := p.fld 12 0 24
          shortHorizon := decide (p.fld 12 0 24 < p.fld 8 0 24 + s.dev.stageLead p.target) } ∧
        (∀ k, k ≠ p.target → t.dev.ist k = s.dev.ist k) ∧ t.dev.imp.entries = s.dev.imp.entries ∧
        Only { Dev.ringed s.dev t.dev with imp := t.dev.imp } s t) ∧
    (Ready 0x0205 p s →
      (s.dev.imp.scanDone = false → Goes (.impRecover p.ring p.seq) s fun t =>
        t.dev.packet? p.ref = some { p with phase := .executing } ∧ t.dev.out = s.dev.out ∧
        Only { s.dev with rings := t.dev.rings } s t) ∧
      (s.dev.imp.scanDone = true →
        (∀ r, s.dev.imp.ring.find? (fun r => r.stream = p.target && !(r.event = 3)) = some r →
          Does (.impRecover p.ring p.seq) p .done r.id (r.attempt + 16 * r.event + 256 * b2n s.dev.imp.orderly) s fun t =>
            Only (Dev.ringed s.dev t.dev) s t) ∧
        (s.dev.imp.ring.find? (fun r => r.stream = p.target && !(r.event = 3)) = none →
          Does (.impRecover p.ring p.seq) p .done 0 (256 * b2n s.dev.imp.orderly) s fun t =>
            Only (Dev.ringed s.dev t.dev) s t))) ∧
    (Ready 0x02FF p s → s.dev.onWeb p.target = [] →
      Does (.impReinit p.ring p.seq) p .done 0 0 s fun t =>
        (∀ i, i ∈ (s.dev.ist p.target).queue → (s.dev.entry i).onWeb = false →
          t.dev.entry i = { s.dev.entry i with
            lines := [], carry := [], staged := false
            st := if (s.dev.entry i).st = .staged then .accepted else (s.dev.entry i).st }) ∧
        (∀ i, i ∉ (s.dev.ist p.target).queue → t.dev.entry i = s.dev.entry i) ∧ (t.dev.sst p.target).cur = none ∧
        (∀ k, t.dev.ist k = s.dev.ist k) ∧
        Only { Dev.ringed s.dev t.dev with imp := t.dev.imp, scr := t.dev.scr } s t)

/-- A spoil counts one attempt of each imprint it names, checkpoints it, and changes no other imprint (R45, R52, R54,
R55, R60, R65, R67). -/
def Obligations.SpoiledImprintsAreCheckpointedAndTakeTheirNextAttempt : Prop :=
  (∀ (d : Dev) (k : Nat) (l : List (Nat × Nat)), (l.map (·.1)).Nodup →
    (∀ e ∈ l, (d.spoilSet k l).entry e.1 = (d.entry e.1).next e.2) ∧
    (∀ j, j ∉ l.map (·.1) → (d.spoilSet k l).entry j = d.entry j) ∧
    (d.spoilSet k l).imp.jobs.map (·.record) = d.imp.jobs.map (·.record) ++ l.map (fun e =>
      { CkptRec.reset with
        id := (d.entry e.1).desc.id, acceptNum := (d.entry e.1).acceptNum, stream := (d.entry e.1).stream, event := 2
        attempt := (d.entry e.1).attempt })) ∧
  (∀ (e : Entry) (r : Nat), (e.next r).attempt = e.attempt + 1 ∧ (e.next r).cause = r ∧ (e.next r).staged = false ∧
    (e.next r).lines = [] ∧ ((e.next r).st = .cancelled ↔ e.desc.maxAttempts ≤ e.attempt + 1) ∧
    ((e.next r).st = .accepted ↔ e.attempt + 1 < e.desc.maxAttempts)) ∧
  (∀ (s : State) (p : Packet) (i : Nat) (e : Entry), Ready 0x0202 p s → chkImpSpoil p s.dev = none →
    s.dev.entryOf p.imprint = some (i, e) → exec (.impSpoil p.ring p.seq) s =
      .next (State.settle (s.onDev fun d => (d.spoil i 0x09).complete p.ref .done 0 0)))

/-- IMP_SUBMIT, IMP_CANCEL and IMP_RELEASE have the effect the spec gives them on Cairn (R36, R45, R51, R53, R63, R64,
R68, R76, R78, R128, R129). -/
def Obligations.ImprintsAreSubmittedCancelledAndReleased : Prop :=
  ∀ (s : State) (p : Packet),
    (Ready 0x0200 p s → chkImpSubmit p s.dev = none →
      let x := p.desc
      let k := x.stream
      let i := s.dev.freeIndex
      let a := (s.dev.ist k).nextAccept
      (s.dev.imp.scanDone = false → Goes (.impSubmit p.ring p.seq) s fun t =>
        t.dev.packet? p.ref = some { p with phase := .executing } ∧ Only { s.dev with rings := t.dev.rings } s t) ∧
      (s.dev.imp.scanDone = true →
        (∀ e, s.dev.sameEntry x = some e →
          Does (.impSubmit p.ring p.seq) p .alreadyAccepted (e.1 + (s.dev.entry e.1).acceptNum * 2 ^ 20)
            (s.dev.entry e.1).attempt s fun t => Only (Dev.ringed s.dev t.dev) s t) ∧
        (s.dev.sameEntry x = none → s.dev.imp.printedRecord x.id = none → s.dev.imp.seen.contains x.id = true →
          Does (.impSubmit p.ring p.seq) p .accepted (i + a * 2 ^ 20) 0 s fun t =>
            t.dev.entry i = { Entry.reset with desc := x, acceptNum := a, st := .accepted, ring := p.ring, seq := p.seq } ∧
            (∀ j, j ≠ i → t.dev.entry j = s.dev.entry j) ∧
            t.dev.ist k = { s.dev.ist k with
              nextAccept := (a + 1) % 2 ^ 32, awaiting := (s.dev.ist k).awaiting ++ [(a, i)], queue := (s.dev.ist k).queue ++ [i] } ∧
            (∀ j, j ≠ k → t.dev.ist j = s.dev.ist j) ∧ Only { Dev.ringed s.dev t.dev with imp := t.dev.imp } s t) ∧
        (∀ r, s.dev.sameEntry x = none → s.dev.imp.printedRecord x.id = some r →
          Does (.impSubmit p.ring p.seq) p .alreadyPrinted (i + a * 2 ^ 20) r.attempt s fun t =>
            (t.dev.entry i).st = .printed ∧ (t.dev.entry i).attempt = r.attempt ∧ (t.dev.entry i).desc = x ∧
            (∀ j, j ≠ i → t.dev.entry j = s.dev.entry j) ∧ (t.dev.ist k).queue = (s.dev.ist k).queue ∧
            Only { Dev.ringed s.dev t.dev with imp := t.dev.imp } s t))) ∧
    (Ready 0x0201 p s → chkImpCancel p s.dev = none → ∀ i e, s.dev.entryOf p.imprint = some (i, e) →
      Does (.impCancel p.ring p.seq) p .done 0 0 s fun t =>
        t.dev.entry i = { s.dev.entry i with st := .cancelled, staged := false, lines := [], held := false, unresolved := false } ∧
        (∀ j, j ≠ i → t.dev.entry j = s.dev.entry j) ∧
        (t.dev.ist (s.dev.entry i).stream).queue = (s.dev.ist (s.dev.entry i).stream).queue.filter (fun j => !(j = i)) ∧
        Only { Dev.ringed s.dev t.dev with imp := t.dev.imp, scr := t.dev.scr } s t) ∧
    (Ready 0x0203 p s → chkImpRelease p s.dev = none → ∀ i e, s.dev.entryOf p.imprint = some (i, e) →
      Does (.impRelease p.ring p.seq) p .done 0 0 s fun t =>
        t.dev.entry i = Entry.reset ∧ (∀ j, j ≠ i → t.dev.entry j = s.dev.entry j) ∧
        Only { Dev.ringed s.dev t.dev with imp := t.dev.imp } s t)

/-- The checkpoint ring's records are programmed, its sectors erased and the ring scanned as the spec says (R64, R67,
R70, R72, R73, R80, R82, R83, R87, R807). -/
def Obligations.CheckpointRecordsAreProgrammedErasedAndScanned : Prop :=
  ∀ s : State, Settled s → s.dev.on 0 = true →
    let x := s.dev.imp
    let n := s.mem.ckptSectors
    (∀ ok, s.recordReady = false → exec (.ckptRecordProgrammed ok) s = .next s) ∧
    (s.recordReady = true →
      exec (.ckptRecordProgrammed false) s =
        .next (State.settle (s.onDev fun d => { d with imp := { d.imp with ckptFail := true } }.raise 15 0)) ∧
      ∀ j rest, x.jobs = j :: rest → Goes (.ckptRecordProgrammed true) s fun t =>
        let r := { j.record with lap := x.written / (256 * n) % 256 }
        t.mem = s.mem.program (s.mem.ckptRegion.1 + 16 * (x.written % (256 * n))) r.bytes ∧
        t.dev.imp.ring = r :: x.ring ∧ t.dev.imp.written = x.written + 1 ∧ t.dev.imp.jobs = rest ∧
        t.pending = s.pending ∧ t.dev = { Dev.ringed s.dev t.dev with imp := t.dev.imp, scr := t.dev.scr }) ∧
    ((x.scanDone && x.eraseDue n && !s.dev.sectorHeld n) = false → exec .ckptSectorErased s = .next s) ∧
    ((x.scanDone && x.eraseDue n && !s.dev.sectorHeld n) = true → Goes .ckptSectorErased s fun t =>
      let k := x.nextSector n
      let a := s.mem.ckptRegion.1 + 4096 * (k % n)
      t.mem.sram = s.mem.sram ∧
      (∀ b, Memory.read flashDefault t.mem.flash b =
        if a ≤ b ∧ b < a + 4096 then flashDefault else Memory.read flashDefault s.mem.flash b) ∧
      t.dev.imp.ring = x.ring.take (x.written - 256 * (k + 1 - n)) ∧ t.dev.imp.erased = k + 1 ∧ t.dev.imp.ckptFull = false ∧
      Tab.get 0 t.dev.imp.erases (k % n) = Tab.get 0 x.erases (k % n) + 1 ∧
      t.pending = s.pending ∧ t.dev = { s.dev with imp := t.dev.imp, out := t.dev.out }) ∧
    (x.scanning = false → exec .ckptScanEnd s = .next s) ∧
    (x.scanning = true → ∃ d : Dev, d.imp.scanning = false ∧ d.imp.scanDone = true ∧ d.imp.scanned = x.ring ∧
      d.imp.orderly = x.ring.head?.any (fun r => r.event = 3) ∧
      (∀ k, k < 4 → d.ist k = { s.dev.ist k with nextAccept := nextAcceptOf x.ring k }) ∧
      d = { s.dev with imp := d.imp } ∧ exec .ckptScanEnd s = .next (State.settle (s.onDev fun _ =>
        forL (s.dev.rings.inflight.filter (fun p => p.phase = .executing && (p.op = 0x0200 || p.op = 0x0205))) Dev.afterScan d)))

/-- SCREEN_LINE_DONE, ATTEMPT_BOUNDARY, SCR_CAPACITY_UPDATE and the SCR_LANE_MAP write act as the spec says (R45,
R288, R298, R299, R302, R307, R308, R313, R320, R324, R337, R887). -/
def Obligations.ScreeningEventsScreenLinesAndAdoptTables : Prop :=
  ∀ (s : State) (k : Nat), Settled s →
    (s.dev.on 5 = true →
      ((s.dev.sst k).cur = none → exec (.screenLineDone k) s = .next s) ∧
      (∀ i, (s.dev.sst k).cur = some i →
        (((s.dev.entry i).desc.mode ≠ 0 ∧ s.dev.lanes k = 0) → exec (.screenLineDone k) s = .next s) ∧
        (¬ ((s.dev.entry i).desc.mode ≠ 0 ∧ s.dev.lanes k = 0) → Goes (.screenLineDone k) s fun t =>
          let d := s.dev.shedFallback i
          let e := d.entry i
          let l := e.lines.length
          let r := d.screened e l
          let lined := { e with lines := e.lines ++ [d.dropLine e l r.1], carry := r.2.1 }
          t.dev.entry i = (if e.desc.segLines 0 ≤ l + 1 ∧ (e.st = .accepted ∨ e.st = .staged)
            then { lined with st := .staged, staged := true } else lined) ∧
          (∀ j, j ≠ i → t.dev.entry j = s.dev.entry j) ∧
          (t.dev.sst k).saturations = min (2 ^ 32 - 1) ((d.sst k).saturations + r.2.2) ∧
          (t.dev.sst k).cur = (if e.desc.length ≤ l + 1 then none else some i) ∧
          Only { s.dev with imp := t.dev.imp, scr := t.dev.scr } s t)) ∧
      ((s.dev.sst k).cur ≠ none ∨ s.dev.nextAttempt k = none → exec (.attemptBoundary k) s = .next s) ∧
      (∀ i, (s.dev.sst k).cur = none → s.dev.nextAttempt k = some i → Goes (.attemptBoundary k) s fun t =>
        let x := s.dev.sst k
        let g := (s.dev.adopt k).chooseSet (s.dev.entry i)
        t.dev.entry i = { s.dev.entry i with
          degThresh := g.thresh, degReduce := g.reduce, shedFallback := false, lines := []
          carry := List.replicate (s.dev.nst k).width 0 } ∧
        (∀ j, j ≠ i → t.dev.entry j = s.dev.entry j) ∧
        t.dev.sst k = { x with
          tone := (match x.tonePend with | some y => some y | none => x.tone)
          tonePend := none, density := x.densityPend.getD x.density, densityPend := none
          curCross := x.phaseCross, curWeb := x.phaseWeb, curStatus := (s.dev.nst k).statusNext
          curShift := (s.dev.nst k).shiftScreen, cur := some i
          degraded := if g.thresh || g.reduce then satInc 32 x.degraded else x.degraded } ∧
        Only { s.dev with imp := t.dev.imp, scr := t.dev.scr } s t) ∧
      (∀ a b, Goes (.scrCapacityUpdate k a b) s fun t =>
        t.dev.sst k = { s.dev.sst k with
          capDiff := if s.dev.lanes k = 0 then 0 else a % 2 ^ 16, capThresh := if s.dev.lanes k = 0 then 0 else b % 2 ^ 16 } ∧
        (∀ j, j ≠ k → t.dev.sst j = s.dev.sst j) ∧ Only { s.dev with sched := t.dev.sched, scr := t.dev.scr } s t)) ∧
    (s.dev.on 1 = true → ∀ v : BitVec 32, exec (.scrLaneMapWrite v) s = .next (s.onDev fun d =>
      { d with scr := if d.laneMapRefused v.toNat then { d.scr with laneMapRefused := true }
        else { d.scr with laneMap := v.toNat % 2 ^ 24 } }))

/-- The SCR table loads and SCR_REINIT have the effect the spec gives them (R295, R301, R305, R320, R322, R323, R330,
R331, R332, R334). -/
def Obligations.ScreeningTablesLoadAndReset : Prop :=
  ∀ (s : State) (p : Packet),
    (Ready 0x0400 p s → chkScrLoadTone p s.dev = none →
      Does (.scrLoadTone p.ring p.seq) p .done 0 0 s fun t =>
        t.dev.sst p.target = { s.dev.sst p.target with tonePend := some (words16 (s.dev.tableBytes 16 p)) } ∧
        (∀ j, j ≠ p.target → t.dev.sst j = s.dev.sst j) ∧ Only { Dev.ringed s.dev t.dev with scr := t.dev.scr } s t) ∧
    (Ready 0x0401 p s → chkScrLoadDensity p s.dev = none →
      Does (.scrLoadDensity p.ring p.seq) p .done 0 0 s fun t =>
        let w := words16 (s.dev.tableBytes 16 p)
        let x := s.dev.sst p.target
        (∃ tab, t.dev.sst p.target = { x with densityPend := some tab } ∧
          ∀ i, Tab.get Density.reset tab i =
            if p.fld 8 0 32 ≤ i ∧ i < p.fld 8 0 32 + p.fld 12 0 32 then
              { gain := w.getD (2 * (i - p.fld 8 0 32)) 0, offset := sInt 12 (w.getD (2 * (i - p.fld 8 0 32) + 1) 0) }
            else Tab.get Density.reset (x.densityPend.getD x.density) i) ∧
        (∀ j, j ≠ p.target → t.dev.sst j = s.dev.sst j) ∧ Only { Dev.ringed s.dev t.dev with scr := t.dev.scr } s t) ∧
    (Ready 0x0402 p s → chkScrLoadThresh p s.dev = none →
      Does (.scrLoadThresh p.ring p.seq) p .done 0 0 s fun t =>
        t.dev.thresh p.target = { width := p.fld 8 0 16, height := p.fld 10 0 16, cells := cellsOf (s.dev.tableBytes 16 p) } ∧
        (∀ j, j ≠ p.target → t.dev.thresh j = s.dev.thresh j) ∧ Only { Dev.ringed s.dev t.dev with scr := t.dev.scr } s t) ∧
    (Ready 0x0403 p s → chkScrSetDiffusion p s.dev = none →
      Does (.scrSetDiffusion p.ring p.seq) p .done 0 0 s fun t =>
        t.dev.diffSet p.target = {
          loaded := true, kernel := (List.range 5).map p.byte, dead := (List.range 5).map (fun k => p.byte (5 + k))
          maxLevel := p.fld 10 0 3, fallback := p.fld 11 0 4, values := (List.range 8).map p.levelValue } ∧
        (∀ j, j ≠ p.target → t.dev.diffSet j = s.dev.diffSet j) ∧ Only { Dev.ringed s.dev t.dev with scr := t.dev.scr } s t) ∧
    (Ready 0x0404 p s → chkScrLoadDropmap p s.dev = none →
      Does (.scrLoadDropmap p.ring p.seq) p .done 0 0 s fun t =>
        let m := s.dev.dropMap p.target
        t.dev.dropMap p.target = (if (s.dev.streamOf p.target).isSome then { m with pend := some (p.mapAt 0, p.mapAt 4) }
          else { m with normal := p.mapAt 0, reduced := p.mapAt 4 }) ∧
        (∀ j, j ≠ p.target → t.dev.dropMap j = s.dev.dropMap j) ∧ Only { Dev.ringed s.dev t.dev with scr := t.dev.scr } s t) ∧
    (Ready 0x04FF p s → s.dev.onWeb p.target = [] →
      Does (.scrReinit p.ring p.seq) p .done 0 0 s fun t =>
        (∀ i, i ∈ (s.dev.ist p.target).queue → (s.dev.entry i).onWeb = false →
          t.dev.entry i = { s.dev.entry i with lines := [], carry := [], staged := false }) ∧
        (∀ i, i ∉ (s.dev.ist p.target).queue → t.dev.entry i = s.dev.entry i) ∧ (t.dev.sst p.target).cur = none ∧
        (∀ k, t.dev.ist k = s.dev.ist k) ∧ Only { Dev.ringed s.dev t.dev with imp := t.dev.imp, scr := t.dev.scr } s t)

/-- A line of error diffusion fires nothing at dead and disabled positions, keeps its carries in range and loses no
tone value (R305, R306, R307, R309). -/
def Obligations.DiffusionLosesNoTone : Prop :=
  ∀ (f : Diff) (status v : Nat → Nat) (cur : List Int) (w : Nat),
    (∀ p, status p = 3 → cur.getD p 0 = 0) →
    let r := f.line status v cur w
    let sum (g : Nat → Int) : Int := ((List.range w).map fun p => if status p = 3 then 0 else g p).sum
    r.1.length = w ∧ (∀ k ∈ r.1, k ≤ f.maxLevel) ∧
    (∀ p, p < w → status p = 2 ∨ status p = 3 → r.1.getD p 0 = 0) ∧
    r.2.1.length = w ∧ (∀ x ∈ r.2.1, -65536 ≤ x ∧ x ≤ 65535) ∧ (∀ p, status p = 3 → r.2.1.getD p 0 = 0) ∧
    (r.2.2 = 0 → sum (fun p => 16 * (v p : Int)) + sum (fun p => cur.getD p 0) =
      sum (fun p => 16 * (f.values.getD (r.1.getD p 0) 0 : Nat)) + r.2.1.sum)

/-- The core voltage loop, its AVSBus transactions and the die sensors act as the spec says (R532, R533, R534, R535,
R536, R537, R538, R744). -/
def Obligations.CoreVoltageLoopKeepsFloorAndFollowsSlack : Prop :=
  ∀ s : State, Settled s →
    let c := s.dev.sched
    (s.dev.on 5 = true →
      (s.dev.coreRuns = false → exec .coreVfloorUpdate s = .next s) ∧
      (s.dev.coreRuns = true → Goes .coreVfloorUpdate s fun t =>
        let v := s.dev.rateVoltages.foldl max (max c.vMinMv c.needV)
        t.dev.sched.vFloor = v ∧ v ≤ t.dev.sched.target ∧ (v ≤ c.target → t.dev.sched.target = c.target ∧ t.dev.out = s.dev.out) ∧
        (c.target < v → t.dev.sched.target = v ∧ t.dev.sched.avsBusy = c.avsBusy ++ [0] ∧ t.dev.out = .avs 0 v :: s.dev.out) ∧
        Only { s.dev with sched := t.dev.sched, out := t.dev.out } s t)) ∧
    (s.dev.on 0 = true → s.dev.coreRuns = false → ∀ a b, exec (.coreSlackRaiseTick a b) s = .next s ∧
      exec (.coreSlackLowerTimer a b) s = .next s ∧ exec .avsPoll s = .next s ∧ exec .avsAlert s = .next s) ∧
    (s.dev.on 0 = true → s.dev.coreRuns = true → ∀ a b,
      let stored := { c with slack := min 255 a, slackMon := b % 64 }
      (a < c.slackLow → c.target < c.vMaxMv → exec (.coreSlackRaiseTick a b) s =
        .next (s.onDev fun d => { d with
          sched := { stored with target := min c.vMaxMv (c.target + 5), avsBusy := c.avsBusy ++ [0] }
          out := .avs 0 (min c.vMaxMv (c.target + 5)) :: d.out })) ∧
      (a < c.slackLow → c.vMaxMv ≤ c.target → exec (.coreSlackRaiseTick a b) s = .next (State.settle (s.onDev fun d =>
        Dev.when (!c.slackFault) (fun d => d.raise 91 0) { d with sched := { stored with slackFault := true } }))) ∧
      (c.slackLow ≤ a → exec (.coreSlackRaiseTick a b) s = .next (State.settle (s.onDev fun d =>
        Dev.when c.slackFault (fun d => d.lower 91) { d with sched := { stored with slackFault := false } }))) ∧
      (c.slackFault = false → c.slackHigh < a → c.vFloor + 5 ≤ c.target → exec (.coreSlackLowerTimer a b) s =
        .next (s.onDev fun d => { d with
          sched := { stored with target := c.target - 5, avsBusy := c.avsBusy ++ [0] }, out := .avs 0 (c.target - 5) :: d.out })) ∧
      (c.slackFault = false → a ≤ c.slackHigh ∨ c.target < c.vFloor + 5 → exec (.coreSlackLowerTimer a b) s =
        .next (s.onDev fun d => { d with sched := stored }))) ∧
    (s.dev.on 0 = true → s.dev.coreRuns = true →
      let t := s.onDev fun d => { d with
        sched := { c with avsBusy := c.avsBusy ++ [1, 2, 3] }, out := .avs 3 0 :: .avs 2 0 :: .avs 1 0 :: d.out }
      exec .avsPoll s = .next t ∧ exec .avsAlert s = .next t) ∧
    (s.dev.on 0 = true → ∀ v,
      (c.avsBusy = [] → ∀ ok, exec (.avsTransactionEnd ok v) s = .next s) ∧
      ∀ k rest, c.avsBusy = k :: rest →
        exec (.avsTransactionEnd true v) s = .next (State.settle (s.onDev fun d => Dev.when c.avsFail (fun d => d.lower 92)
          { d with sched := { c with
              avsBusy := rest, avsErrRun := 0, avsFail := false, measured := if k = 1 then v else c.measured
              confirmed := if k = 1 then v else c.confirmed } })) ∧
        exec (.avsTransactionEnd false v) s = .next (State.settle (s.onDev fun d =>
          Dev.when (!c.avsFail && decide (2 ≤ c.avsErrRun)) (fun d => d.raise 92 0) { d with sched := { c with
            avsBusy := rest, avsErrRun := min 3 (c.avsErrRun + 1), avsFail := c.avsFail || decide (2 ≤ c.avsErrRun) } }))) ∧
    (s.dev.on 0 = true → ∀ temps,
      let x := { c with therm := (List.range 8).map (fun i => sInt 16 (twos 16 (temps.getD i 0))) }
      exec (.thermSample temps) s = .next (State.settle (s.onDev fun d =>
        let d := { d with sched := x }
        let d := if ((16 * c.limitC : Nat) : Int) ≤ x.die then d.raise 93 0 else d.lower 93
        if (1760 : Int) ≤ x.die then d.raise 94 0 else d.lower 94)))

/-- The token fraction the die temperature allows lies between a quarter and one, and is one below the throttle
temperature (R538, R560). -/
def Obligations.ThrottleFractionStaysBetweenAQuarterAndOne : Prop :=
  ∀ c : Sched, 64 ≤ c.throttle ∧ c.throttle ≤ 255 ∧ (c.die < 16 * c.throttleC → c.throttle = 255) ∧
    (16 * (c.limitC : Int) ≤ c.die → c.throttleC ≤ c.limitC → c.throttle = 64)

/-- No activity runs while an earlier open one conflicts with it, and none waits that nothing blocks (R545, R547,
R548, R550). -/
def Obligations.ConflictingActivitiesNeverRunTogether : Prop :=
  let ordered (d : Dev) : Prop := (d.sched.acts.map (·.id)).Nodup ∧
    ∀ a ∈ d.sched.acts, a.running = true → blocker d.sched.acts a = none
  ∀ d : Dev, ordered d →
    (∀ kind res ms arg ref, (∀ a ∈ d.sched.acts, a.id ≠ d.sched.nextId) → ordered (d.openAct kind res ms arg ref).2.2) ∧
    (∀ n, ordered (d.pumpActs n)) ∧
    (∀ id st, ordered (d.endAct id st)) ∧
    (∀ id st, ∀ a ∈ (d.endAct id st).sched.acts, a.running = false → blocker (d.endAct id st).sched.acts a ≠ none) ∧
    (∀ a ∈ d.sched.acts, ∀ b ∈ d.sched.acts, a.running = true → b.running = true → a.id ≠ b.id → conflicts a b = false)

/-- PWR_SET_CAP, PWR_SET_EXT_BUDGET and the MAINT commands have the effect the spec gives them (R115, R524, R525,
R526, R548, R549, R550, R552, R553, R554). -/
def Obligations.BudgetAndMaintenanceCommandsActAsTheSpecSays : Prop :=
  ∀ (s : State) (p : Packet),
    let c := s.dev.sched
    (Ready 0x0C03 p s → chkPwrSetCap p s.dev = none → Does (.pwrSetCap p.ring p.seq) p .done 0 0 s fun t =>
      t.dev.sched = { c with capMw := p.fld 0 0 32 } ∧ Only { Dev.ringed s.dev t.dev with sched := t.dev.sched } s t) ∧
    (Ready 0x0C04 p s → chkPwrSetExtBudget p s.dev = none →
      (p.fld 0 0 2 = 0 → Does (.pwrSetExtBudget p.ring p.seq) p .done 0 0 s fun t =>
        t.dev.sched = { c with headMw := p.fld 4 0 32, dryerMw := p.fld 8 0 32, maxSpacing := p.fld 12 0 16 } ∧
        Only { Dev.ringed s.dev t.dev with sched := t.dev.sched } s t) ∧
      (p.fld 0 0 2 = 1 →
        exec (.pwrSetExtBudget p.ring p.seq) s =
          .next (State.settle (s.onDev fun d => (d.setPortModel p).complete p.ref .done 0 0)) ∧
        ((s.dev.pmodel p.target).warn = false → s.dev.setPortModel p = s.dev.modPmodel p.target fun m => { m with
          idleMw := p.fld 4 0 16, heaterLoop := p.fld 6 0 8, pumpLoop := p.fld 7 0 8
          eDrop := (List.range 7).map (fun k => p.fld (8 + 2 * k) 0 16), vol := (List.range 7).map (fun k => p.fld (22 + k) 0 8)
          rTh := p.fld 30 0 16, tauMs := p.fld 32 0 16, warnT := p.sfld 34 0 16, critT := p.sfld 36 0 16
          resumeT := p.sfld 38 0 16 })) ∧
      (p.fld 0 0 2 = 2 → Does (.pwrSetExtBudget p.ring p.seq) p .done 0 0 s fun t =>
        t.dev.zone p.target = { s.dev.zone p.target with
          mask := p.fld 4 0 4, loop := p.fld 5 0 8, dist := p.fld 8 0 40, idleMw := p.fld 16 0 32, maxMw := p.fld 20 0 32
          k := p.fld 24 0 32, leadMs := p.fld 28 0 16 } ∧
        (∀ j, j ≠ p.target → t.dev.zone j = s.dev.zone j) ∧ Only { Dev.ringed s.dev t.dev with sched := t.dev.sched } s t)) ∧
    (Ready 0x0F00 p s → chkMaintStart p s.dev = none →
      let a := { Activity.reset with id := c.nextId, kind := p.fld 0 0 4, res := p.fld 2 0 16, maxMs := p.fld 4 0 32 }
      let opened (d : Dev) := { d with sched := { c with acts := c.acts ++ [a], nextId := nextActId c.nextId } }
      (∀ b, blocker (c.acts ++ [a]) a = some b → Does (.maintStart p.ring p.seq) p .queued b.id a.id s fun t =>
        Only (opened (Dev.ringed s.dev t.dev)) s t) ∧
      (blocker (c.acts ++ [a]) a = none → exec (.maintStart p.ring p.seq) s = .next (State.settle (s.onDev fun d =>
        ((opened d).pumpActs ((c.acts ++ [a]).length + 1)).complete p.ref .done 0 a.id)))) ∧
    (Ready 0x0F01 p s → chkMaintEnd p s.dev = none → exec (.maintEnd p.ring p.seq) s = .next (State.settle (s.onDev fun d =>
      (d.endAct (p.fld 0 0 16) (if (d.act? (p.fld 0 0 16)).any (·.running) then .done else .aborted)).complete p.ref .done 0 0))) ∧
    (Ready 0x0F02 p s → chkMaintQuery p s.dev = none →
      (∀ a, s.dev.act? (p.fld 0 0 16) = some a →
        (a.running = true → Does (.maintQuery p.ring p.seq) p .done 0 1 s fun t => Only (Dev.ringed s.dev t.dev) s t) ∧
        (a.running = false → p.fld 4 0 32 = 0 → Does (.maintQuery p.ring p.seq) p .timeout (s.dev.blockerOf (p.fld 0 0 16)) 0 s
          fun t => Only (Dev.ringed s.dev t.dev) s t) ∧
        (a.running = false → p.fld 4 0 32 ≠ 0 → exec (.maintQuery p.ring p.seq) s = .next (s.onDev
          (Dev.modPacket p.ref fun q => { q with phase := .executing, activity := p.fld 0 0 16 })))) ∧
      (∀ o, s.dev.act? (p.fld 0 0 16) = none → s.dev.endedAct (p.fld 0 0 16) = some o →
        Does (.maintQuery p.ring p.seq) p .done 0 (2 + 2 ^ 8 * o.code) s fun t => Only (Dev.ringed s.dev t.dev) s t)) ∧
    (Settled s → s.dev.on 5 = true → ∀ r q,
      (s.dev.packet? (r, q) = some p → p.op = 0x0F02 → p.phase = .executing → exec (.maintQueryTimeout r q) s =
        .next (s.onDev (Dev.complete (r, q) .timeout (s.dev.blockerOf p.activity) 0))) ∧
      (s.dev.packet? (r, q) = none → exec (.maintQueryTimeout r q) s = .next s)) ∧
    (Settled s → s.dev.on 5 = true → ∀ id,
      exec (.maintActivityTimeout id) s = .next (State.settle (s.onDev fun d =>
        if (d.act? id).any (fun a => a.running && decide (a.kind ≤ 4)) then d.endAct id .timeout else d))) ∧
    (Ready 0x0FFF p s → exec (.maintReinit p.ring p.seq) s = .next (State.settle (s.onDev fun d =>
      (forL ((c.acts.filter (fun a => decide (a.kind ≤ 4))).map (·.id)) (fun id d => d.endAct id .aborted) d).complete
        p.ref .done 0 0)))

/-- ORDERLY_STOP_END, HEAT_BIAS_UPDATE and HELD_ATTEMPT_TIMER act as the spec says (R517, R520, R531, R542, R544,
R706, R763, R782, R833). -/
def Obligations.SchedulerTimersStopReheatAndRestage : Prop :=
  ∀ s : State, Settled s →
    (s.dev.on 0 = true →
      let ended (d : Dev) : Dev := ({ d with sched := { d.sched with stopping := false, stopDone := true } }).selfRefresh.saveWear
      ((s.dev.sched.stopping && !s.dev.anyArmed && (s.dev.imp.jobs.isEmpty || !s.dev.ckptWrites)) = false →
        exec .orderlyStopEnd s = .next s) ∧
      ((s.dev.sched.stopping && !s.dev.anyArmed && (s.dev.imp.jobs.isEmpty || !s.dev.ckptWrites)) = true →
        ((s.dev.pwr.cycling || s.dev.pwr.timedDue) = true →
          exec .orderlyStopEnd s = .next (State.settle (s.onDev fun d => (ended d).timedShutdown))) ∧
        ((s.dev.pwr.cycling || s.dev.pwr.timedDue) = false → s.dev.stageCalled 7 = true →
          exec .orderlyStopEnd s = .next (State.settle (s.onDev fun d => (ended d).enterStage7))) ∧
        ((s.dev.pwr.cycling || s.dev.pwr.timedDue) = false → s.dev.stageCalled 7 = false → Goes .orderlyStopEnd s fun t =>
          t.dev.sched = { s.dev.sched with stopping := false, stopDone := true } ∧
          t.dev.wear = { s.dev.wear with saved := some (s.dev.wear.inds, s.dev.wear.stored) } ∧
          (∀ c, c < 2 → t.dev.dch c = if (s.dev.dch c).st = .serving then { s.dev.dch c with st := .selfRefresh } else s.dev.dch c) ∧
          Only { s.dev with sched := t.dev.sched, ddr := t.dev.ddr, wear := t.dev.wear } s t))) ∧
    (s.dev.on 5 = true →
      (∃ d : Dev, exec .heatBiasUpdate s = .next (State.settle (s.onDev fun _ => d)) ∧
        (∀ p, p < 16 → (s.dev.hp p).st ≠ .up → d.pmodel p = s.dev.pmodel p) ∧
        (∀ p, p < 16 → (s.dev.hp p).st = .up →
          let m := s.dev.pmodel p
          let diff := (s.dev.hp p).temp - m.pred
          (d.pmodel p).overMs = (if 32 < diff then min 1100 (m.overMs + 100) else 0) ∧
          (d.pmodel p).bias = (clampI (m.bias + roundOpen 31 ((diff - m.bias) * Config.expRise 1 10) (2 ^ 32)) 0 160).toNat) ∧
        ((∀ p, p < 16 → (s.dev.hp p).st = .up → (s.dev.hp p).temp - (s.dev.pmodel p).pred ≤ 32) → d.flt = s.dev.flt) ∧
        d = { s.dev with sched := d.sched, flt := d.flt }) ∧
      ∀ k,
        let due (i : Nat) (g : Degrade) : Prop :=
          ((((s.dev.entry i).desc.sets.dropWhile (fun g => !(g =
            { thresh := (s.dev.entry i).degThresh, reduce := (s.dev.entry i).degReduce }))).drop 1).find? fun g =>
              s.dev.fits (s.dev.entry i) g) = some g ∧
          (s.dev.entry i).held = true ∧ (s.dev.entry i).heldAt.any (fun t => decide (t + 100000000 ≤ s.dev.ns)) = true
        (s.dev.candidate k = none → exec (.heldAttemptTimer k) s = .next s) ∧
        (∀ i, s.dev.candidate k = some i → (¬ ∃ g, due i g) → exec (.heldAttemptTimer k) s = .next s) ∧
        (∀ i g, s.dev.candidate k = some i → due i g → Goes (.heldAttemptTimer k) s fun t =>
          t.dev.entry i = { s.dev.entry i with
            degThresh := g.thresh, degReduce := g.reduce, shedFallback := false, lines := [], staged := false, held := false
            heldAt := none, carry := List.replicate (s.dev.nst k).width 0 } ∧
          (t.dev.sst k).cur = some i ∧ (t.dev.sst k).tonePend = none ∧ (t.dev.sst k).densityPend = none ∧
          (∀ j, j ≠ i → (s.dev.sst k).cur ≠ some j → t.dev.entry j = s.dev.entry j) ∧
          Only { s.dev with imp := t.dev.imp, scr := t.dev.scr } s t))

/-- The daily wear sample and the WEAR commands have the effect the spec gives them (R115, R540, R832, R833, R835,
R842, R877). -/
def Obligations.WearIndicatorsSampleAndPredict : Prop :=
  (∀ (s : State) (v : List (Nat × Nat)), Settled s → s.dev.on 5 = true →
    ((1 ≤ s.dev.sched.stage ∨ s.dev.sys.stage ≠ .operational) → exec (.wearDailySample v) s = .next s) ∧
    (s.dev.sched.stage = 0 → s.dev.sys.stage = .operational → ∃ d : Dev,
      exec (.wearDailySample v) s = .next (State.settle (s.onDev fun _ => d.saveWear.wearAlerts)) ∧
      (∀ n, n ∈ wearIds → (d.wearInd n).latest = s.dev.indValue n v ∧
        (d.wearInd n).samples = (s.dev.indValue n v :: (s.dev.wearInd n).samples).take 64) ∧
      (∀ n, n ∉ wearIds → d.wearInd n = s.dev.wearInd n) ∧
      d.wear.stored = min 64 (s.dev.wear.stored + 1) ∧ d = { s.dev with wear := d.wear })) ∧
  (∀ (s : State) (p : Packet),
    let x := s.dev.wearInd p.target
    (Ready 0x1000 p s → Does (.wearRead p.ring p.seq) p .done x.latest x.samples.length s fun t =>
      Only (Dev.ringed s.dev t.dev) s t) ∧
    (Ready 0x1001 p s → chkWearPredict p s.dev = none →
      (p.flag 0 0 = false →
        (x.predict = none → Does (.wearPredict p.ring p.seq) p .done 0xFFFFFFFF 0 s fun t => Only (Dev.ringed s.dev t.dev) s t) ∧
        (∀ h, x.predict = some h → h < 0xFFFFFFFF →
          Does (.wearPredict p.ring p.seq) p .done (h + 2 ^ 32 * x.window) 0 s fun t => Only (Dev.ringed s.dev t.dev) s t) ∧
        (∀ h, x.predict = some h → 0xFFFFFFFF ≤ h → Does (.wearPredict p.ring p.seq) p .done
          (Config.freeValue s.dev.free % 2 ^ 32 + 2 ^ 32 * x.window) 0 s fun t =>
            Only { Dev.ringed s.dev t.dev with free := s.dev.free + 1 } s t)) ∧
      (p.flag 0 0 = true →
        let d := (s.dev.modWearInd p.target fun x => { x with
          window := p.fld 1 0 7, warnH := p.fld 2 0 16, limit := p.fld 8 0 64 }).wearAlerts
        exec (.wearPredict p.ring p.seq) s = .next (State.settle (s.onDev fun _ =>
          (d.predictResult (d.wearInd p.target)).2.complete p.ref .done (d.predictResult (d.wearInd p.target)).1 0)))) ∧
    (Ready 0x10FF p s → exec (.wearReinit p.ring p.seq) s = .next (State.settle (s.onDev fun d =>
      (d.modWearInd p.target fun x => { x with samples := [], first := none }).wearAlerts.complete p.ref .done 0 0))))

/-- The DIAG commands and the ends of their tests have the effect the spec gives them (R115, R719, R816, R843, R844).
-/
def Obligations.DiagnosticCommandsTestAndReport : Prop :=
  ∀ (s : State) (p : Packet),
    (Ready 0x1100 p s → Does (.diagEcho p.ring p.seq) p .done (crc32 p.payload) p.payload.length s fun t =>
      Only (Dev.ringed s.dev t.dev) s t) ∧
    (Ready 0x1101 p s → chkDiagLoopback p s.dev = none → exec (.diagLoopback p.ring p.seq) s = .next (s.onDev fun d =>
      { d.executing p with diag := { d.diag with loops := d.diag.loops ++ [{ target := p.target, ref := p.ref }] } })) ∧
    (Ready 0x1102 p s → chkDiagTrace p s.dev = none →
      (∀ e, s.dev.flt.log[p.fld 0 0 8]? = some e → Does (.diagTrace p.ring p.seq) p .done
        (e.timeUs % 2 ^ 48 + 2 ^ 48 * (e.source % 256) + 2 ^ 56 * (e.kind % 256)) 0 s fun t => Only (Dev.ringed s.dev t.dev) s t) ∧
      (s.dev.flt.log[p.fld 0 0 8]? = none → Does (.diagTrace p.ring p.seq) p .doneEmpty 0 0 s fun t =>
        Only (Dev.ringed s.dev t.dev) s t)) ∧
    (Ready 0x1103 p s → chkDiagMemtest p s.dev = none → Goes (.diagMemtest p.ring p.seq) s fun t =>
      t.dev.bank p.target = { s.dev.bank p.target with memtest := some p.ref } ∧
      (∀ n, n ≠ p.target → t.dev.bank n = s.dev.bank n) ∧ t.dev.out = s.dev.out ∧
      Only { s.dev with banks := t.dev.banks, rings := t.dev.rings } s t) ∧
    (Ready 0x11FF p s →
      (s.dev.testRuns = false → Does (.diagReinit p.ring p.seq) p .doneEmpty 0 0 s fun t =>
        t.dev.diag.loops = [] ∧ t.mem = s.mem ∧ t.dev.banks = s.dev.banks) ∧
      Goes (.diagReinit p.ring p.seq) s fun t =>
        t.dev.diag.loops = [] ∧ (∀ n, n < 12 → (t.dev.bank n).memtest = none) ∧
        (∀ n, n < 12 → (s.dev.bank n).memtest ≠ none → ∀ a, n * bankBytes ≤ a → a < n * bankBytes + bankBytes →
          Memory.read sramDefault t.mem.sram a = sramDefault) ∧ t.mem.flash = s.mem.flash) ∧
    (Settled s → s.dev.on 0 = true → ∀ r q errors lock,
      ((∀ l ∈ s.dev.diag.loops, l.ref ≠ (r, q)) → exec (.diagLoopbackEnd r q errors lock) s = .next s) ∧
      ((∃ l ∈ s.dev.diag.loops, l.ref = (r, q)) → exec (.diagLoopbackEnd r q errors lock) s = .next (s.onDev fun d =>
        ({ d with diag := { d.diag with loops := d.diag.loops.filter (fun l => !(l.ref = (r, q))) } }).complete (r, q) .done
          (errors % 2 ^ 64) (b2n lock)))) ∧
    (Settled s → s.dev.on 6 = true → ∀ r q failing,
      ((∀ n, n < 12 → (s.dev.bank n).memtest ≠ some (r, q)) → exec (.diagMemtestEnd r q failing) s = .next s) ∧
      (∀ n, (List.range 12).find? (fun n => (s.dev.bank n).memtest = some (r, q)) = some n →
        exec (.diagMemtestEnd r q failing) s = .next { s with
          mem := { s.mem with sram := Memory.clear (n * bankBytes) bankBytes s.mem.sram }
          dev := (s.dev.modBank n (fun b => { b with memtest := none })).complete (r, q) .done (failing % 2 ^ 64) 0 } ∧
        ∀ a, Memory.read sramDefault (Memory.clear (n * bankBytes) bankBytes s.mem.sram) a =
          if n * bankBytes ≤ a ∧ a < n * bankBytes + bankBytes then sramDefault else Memory.read sramDefault s.mem.sram a))

/-- A tick of the tracking loop never moves S back or past the next count, and commits only a staged attempt that
nothing holds (R46, R399, R402, R411, R413, R414, R416, R420, R516, R518, R519, R523). -/
def Obligations.TrackingTickAdvancesSAndCommitsOnlyWhatFits : Prop :=
  (∀ s : State, s.dev.on 11 = true → exec .trackingLoopTick s = .next (State.settle (s.onDev fun d =>
    let d := ((d.updateLoop 0).updateLoop 1).advanceS
    let l := (List.range 4).filter d.reached
    let d := (forL l Dev.passLines d).commits l
    let d := forN 4 Dev.checkPrinted (forN 4 Dev.arm d)
    (forN 8 Dev.checkGear d).feedForward))) ∧
  (∀ d : Dev,
    let e := d.enc d.fire.src
    (d.fire.lost = true → d.advanceS = d) ∧ d.fire.s ≤ d.advanceS.fire.s ∧
    d.advanceS.fire.s ≤ max d.fire.s (e.xE + 64 * e.ratio / 2 ^ 16 - 1) ∧
    d.advanceS = { d with fire := { d.fire with s := d.advanceS.fire.s } }) ∧
  (∀ (d : Dev) (k : Nat),
    ((d.evaluate k).1 = true → ∃ i f, d.candidate k = some i ∧ (d.entry i).st = .staged ∧ (d.entry i).unresolved = false ∧
      d.inHorizon (d.entry i) = true ∧ d.holdCauses k (d.entry i) = [] ∧
      d.fitLine (d.entry i) (d.entry i).degrade = .ok f ∧
      ((d.evaluate k).2.entry i).st = .committed ∧ ((d.evaluate k).2.entry i).firstLine = some f ∧
      (∀ j, j ≠ i → (d.evaluate k).2.entry j = d.entry j)) ∧
    ((d.evaluate k).1 = false → ∀ j, ((d.evaluate k).2.entry j).st = (d.entry j).st ∧
      ((d.evaluate k).2.entry j).firstLine = (d.entry j).firstLine))
end

