-- ==== Sys2Proof/Laws/Tab.lean ====
section
/-! SUPPORT. Laws of the sparse tables: read after write. -/

namespace Sys2Proof.Machine

/-- The entry just set is read back. -/
@[simp] theorem Tab.get_set_same {α : Type} (e : α) (n : Nat) (x : α) (t : Tab α) : Tab.get e (Tab.set n x t) n = x := by
  induction t with
  | nil => simp [Tab.set, Tab.get]
  | cons c t ih =>
    obtain ⟨i, y⟩ := c
    simp only [Tab.set]
    split
    · simp [Tab.get]
    · split
      · simp [Tab.get]
      · simp only [Tab.get, ih]
        split
        · omega
        · rfl

/-- Every other entry reads as before. -/
theorem Tab.get_set_ne {α : Type} (e : α) (n : Nat) (x : α) {k : Nat} (h : k ≠ n) (t : Tab α) :
    Tab.get e (Tab.set n x t) k = Tab.get e t k := by
  have hn : ¬ n = k := fun q => h q.symm
  induction t with
  | nil => simp [Tab.set, Tab.get, hn]
  | cons c t ih =>
    obtain ⟨i, y⟩ := c
    simp only [Tab.set]
    split
    · simp [Tab.get, hn]
    · split
      · rename_i h2; subst h2; simp [Tab.get, hn]
      · simp [Tab.get, ih]

/-- The later of two writes of one entry stands. -/
@[simp] theorem Tab.set_set {α : Type} (n : Nat) (x y : α) (t : Tab α) : Tab.set n x (Tab.set n y t) = Tab.set n x t := by
  induction t with
  | nil => simp [Tab.set]
  | cons c t ih =>
    obtain ⟨i, z⟩ := c
    simp only [Tab.set]
    split
    · simp [Tab.set]
    · split
      · simp [Tab.set]
      · rename_i h1 h2
        simp [Tab.set, h1, h2, ih]

/-- An erased entry reads as the default. -/
theorem Tab.get_erase_same {α : Type} (e : α) (n : Nat) (t : Tab α) : Tab.get e (Tab.erase n t) n = e := by
  induction t with
  | nil => rfl
  | cons c t ih =>
    obtain ⟨i, y⟩ := c
    unfold Tab.erase at ih ⊢
    simp only [List.filter_cons]
    split
    · rename_i h; simp only [bne_iff_ne, ne_eq] at h; simp only [Tab.get, if_neg h]; exact ih
    · exact ih

/-- Every other entry reads as before an erase. -/
theorem Tab.get_erase_ne {α : Type} (e : α) (n : Nat) (t : Tab α) {k : Nat} (h : k ≠ n) :
    Tab.get e (Tab.erase n t) k = Tab.get e t k := by
  induction t with
  | nil => rfl
  | cons c t ih =>
    obtain ⟨i, y⟩ := c
    unfold Tab.erase at ih ⊢
    simp only [List.filter_cons]
    split
    · simp only [Tab.get, ih]
    · rename_i h1; simp only [bne_iff_ne, ne_eq, not_not] at h1; simp only [Tab.get, if_neg (show ¬ i = k by omega)]; exact ih

end Sys2Proof.Machine
end

