-- ==== Sys2Proof/Laws/State.lean ====
section
/-! SUPPORT. One lemma per field per update of the device, true by rfl, and the read-after-write laws of its replicated units. -/

namespace Sys2Proof.Machine

variable (d : Dev) (n k : Nat)

/-! ### modSrc -/

@[simp] theorem Dev.modSrc_sys (f : Src → Src) : (d.modSrc n f).sys = d.sys := rfl
@[simp] theorem Dev.modSrc_pwr (f : Src → Src) : (d.modSrc n f).pwr = d.pwr := rfl
@[simp] theorem Dev.modSrc_clk (f : Src → Src) : (d.modSrc n f).clk = d.clk := rfl
@[simp] theorem Dev.modSrc_rings (f : Src → Src) : (d.modSrc n f).rings = d.rings := rfl
@[simp] theorem Dev.modSrc_imp (f : Src → Src) : (d.modSrc n f).imp = d.imp := rfl
@[simp] theorem Dev.modSrc_ing (f : Src → Src) : (d.modSrc n f).ing = d.ing := rfl
@[simp] theorem Dev.modSrc_codec (f : Src → Src) : (d.modSrc n f).codec = d.codec := rfl
@[simp] theorem Dev.modSrc_scr (f : Src → Src) : (d.modSrc n f).scr = d.scr := rfl
@[simp] theorem Dev.modSrc_noz (f : Src → Src) : (d.modSrc n f).noz = d.noz := rfl
@[simp] theorem Dev.modSrc_fire (f : Src → Src) : (d.modSrc n f).fire = d.fire := rfl
@[simp] theorem Dev.modSrc_hl (f : Src → Src) : (d.modSrc n f).hl = d.hl := rfl
@[simp] theorem Dev.modSrc_sched (f : Src → Src) : (d.modSrc n f).sched = d.sched := rfl
@[simp] theorem Dev.modSrc_time (f : Src → Src) : (d.modSrc n f).time = d.time := rfl
@[simp] theorem Dev.modSrc_mot (f : Src → Src) : (d.modSrc n f).mot = d.mot := rfl
@[simp] theorem Dev.modSrc_bl (f : Src → Src) : (d.modSrc n f).bl = d.bl := rfl
@[simp] theorem Dev.modSrc_ddr (f : Src → Src) : (d.modSrc n f).ddr = d.ddr := rfl
@[simp] theorem Dev.modSrc_banks (f : Src → Src) : (d.modSrc n f).banks = d.banks := rfl
@[simp] theorem Dev.modSrc_wear (f : Src → Src) : (d.modSrc n f).wear = d.wear := rfl
@[simp] theorem Dev.modSrc_diag (f : Src → Src) : (d.modSrc n f).diag = d.diag := rfl
@[simp] theorem Dev.modSrc_out (f : Src → Src) : (d.modSrc n f).out = d.out := rfl
@[simp] theorem Dev.modSrc_free (f : Src → Src) : (d.modSrc n f).free = d.free := rfl
@[simp] theorem Dev.src_modSrc (f : Src → Src) : (d.modSrc n f).src n = f (d.src n) := Tab.get_set_same ..
theorem Dev.src_modSrc_ne (f : Src → Src) (h : k ≠ n) : (d.modSrc n f).src k = d.src k := Tab.get_set_ne _ _ _ h _

/-! ### modRail -/

@[simp] theorem Dev.modRail_sys (f : Rail → Rail) : (d.modRail n f).sys = d.sys := rfl
@[simp] theorem Dev.modRail_clk (f : Rail → Rail) : (d.modRail n f).clk = d.clk := rfl
@[simp] theorem Dev.modRail_flt (f : Rail → Rail) : (d.modRail n f).flt = d.flt := rfl
@[simp] theorem Dev.modRail_rings (f : Rail → Rail) : (d.modRail n f).rings = d.rings := rfl
@[simp] theorem Dev.modRail_imp (f : Rail → Rail) : (d.modRail n f).imp = d.imp := rfl
@[simp] theorem Dev.modRail_ing (f : Rail → Rail) : (d.modRail n f).ing = d.ing := rfl
@[simp] theorem Dev.modRail_codec (f : Rail → Rail) : (d.modRail n f).codec = d.codec := rfl
@[simp] theorem Dev.modRail_scr (f : Rail → Rail) : (d.modRail n f).scr = d.scr := rfl
@[simp] theorem Dev.modRail_noz (f : Rail → Rail) : (d.modRail n f).noz = d.noz := rfl
@[simp] theorem Dev.modRail_fire (f : Rail → Rail) : (d.modRail n f).fire = d.fire := rfl
@[simp] theorem Dev.modRail_hl (f : Rail → Rail) : (d.modRail n f).hl = d.hl := rfl
@[simp] theorem Dev.modRail_sched (f : Rail → Rail) : (d.modRail n f).sched = d.sched := rfl
@[simp] theorem Dev.modRail_time (f : Rail → Rail) : (d.modRail n f).time = d.time := rfl
@[simp] theorem Dev.modRail_mot (f : Rail → Rail) : (d.modRail n f).mot = d.mot := rfl
@[simp] theorem Dev.modRail_bl (f : Rail → Rail) : (d.modRail n f).bl = d.bl := rfl
@[simp] theorem Dev.modRail_ddr (f : Rail → Rail) : (d.modRail n f).ddr = d.ddr := rfl
@[simp] theorem Dev.modRail_banks (f : Rail → Rail) : (d.modRail n f).banks = d.banks := rfl
@[simp] theorem Dev.modRail_wear (f : Rail → Rail) : (d.modRail n f).wear = d.wear := rfl
@[simp] theorem Dev.modRail_diag (f : Rail → Rail) : (d.modRail n f).diag = d.diag := rfl
@[simp] theorem Dev.modRail_out (f : Rail → Rail) : (d.modRail n f).out = d.out := rfl
@[simp] theorem Dev.modRail_free (f : Rail → Rail) : (d.modRail n f).free = d.free := rfl
@[simp] theorem Dev.rail_modRail (f : Rail → Rail) : (d.modRail n f).rail n = f (d.rail n) := Tab.get_set_same ..
theorem Dev.rail_modRail_ne (f : Rail → Rail) (h : k ≠ n) : (d.modRail n f).rail k = d.rail k := Tab.get_set_ne _ _ _ h _

/-! ### modDom -/

@[simp] theorem Dev.modDom_sys (f : Dom → Dom) : (d.modDom n f).sys = d.sys := rfl
@[simp] theorem Dev.modDom_clk (f : Dom → Dom) : (d.modDom n f).clk = d.clk := rfl
@[simp] theorem Dev.modDom_flt (f : Dom → Dom) : (d.modDom n f).flt = d.flt := rfl
@[simp] theorem Dev.modDom_rings (f : Dom → Dom) : (d.modDom n f).rings = d.rings := rfl
@[simp] theorem Dev.modDom_imp (f : Dom → Dom) : (d.modDom n f).imp = d.imp := rfl
@[simp] theorem Dev.modDom_ing (f : Dom → Dom) : (d.modDom n f).ing = d.ing := rfl
@[simp] theorem Dev.modDom_codec (f : Dom → Dom) : (d.modDom n f).codec = d.codec := rfl
@[simp] theorem Dev.modDom_scr (f : Dom → Dom) : (d.modDom n f).scr = d.scr := rfl
@[simp] theorem Dev.modDom_noz (f : Dom → Dom) : (d.modDom n f).noz = d.noz := rfl
@[simp] theorem Dev.modDom_fire (f : Dom → Dom) : (d.modDom n f).fire = d.fire := rfl
@[simp] theorem Dev.modDom_hl (f : Dom → Dom) : (d.modDom n f).hl = d.hl := rfl
@[simp] theorem Dev.modDom_sched (f : Dom → Dom) : (d.modDom n f).sched = d.sched := rfl
@[simp] theorem Dev.modDom_time (f : Dom → Dom) : (d.modDom n f).time = d.time := rfl
@[simp] theorem Dev.modDom_mot (f : Dom → Dom) : (d.modDom n f).mot = d.mot := rfl
@[simp] theorem Dev.modDom_bl (f : Dom → Dom) : (d.modDom n f).bl = d.bl := rfl
@[simp] theorem Dev.modDom_ddr (f : Dom → Dom) : (d.modDom n f).ddr = d.ddr := rfl
@[simp] theorem Dev.modDom_banks (f : Dom → Dom) : (d.modDom n f).banks = d.banks := rfl
@[simp] theorem Dev.modDom_wear (f : Dom → Dom) : (d.modDom n f).wear = d.wear := rfl
@[simp] theorem Dev.modDom_diag (f : Dom → Dom) : (d.modDom n f).diag = d.diag := rfl
@[simp] theorem Dev.modDom_out (f : Dom → Dom) : (d.modDom n f).out = d.out := rfl
@[simp] theorem Dev.modDom_free (f : Dom → Dom) : (d.modDom n f).free = d.free := rfl
@[simp] theorem Dev.dom_modDom (f : Dom → Dom) : (d.modDom n f).dom n = f (d.dom n) := Tab.get_set_same ..
theorem Dev.dom_modDom_ne (f : Dom → Dom) (h : k ≠ n) : (d.modDom n f).dom k = d.dom k := Tab.get_set_ne _ _ _ h _

/-! ### modSrst -/

@[simp] theorem Dev.modSrst_sys (f : Srst → Srst) : (d.modSrst n f).sys = d.sys := rfl
@[simp] theorem Dev.modSrst_clk (f : Srst → Srst) : (d.modSrst n f).clk = d.clk := rfl
@[simp] theorem Dev.modSrst_flt (f : Srst → Srst) : (d.modSrst n f).flt = d.flt := rfl
@[simp] theorem Dev.modSrst_rings (f : Srst → Srst) : (d.modSrst n f).rings = d.rings := rfl
@[simp] theorem Dev.modSrst_imp (f : Srst → Srst) : (d.modSrst n f).imp = d.imp := rfl
@[simp] theorem Dev.modSrst_ing (f : Srst → Srst) : (d.modSrst n f).ing = d.ing := rfl
@[simp] theorem Dev.modSrst_codec (f : Srst → Srst) : (d.modSrst n f).codec = d.codec := rfl
@[simp] theorem Dev.modSrst_scr (f : Srst → Srst) : (d.modSrst n f).scr = d.scr := rfl
@[simp] theorem Dev.modSrst_noz (f : Srst → Srst) : (d.modSrst n f).noz = d.noz := rfl
@[simp] theorem Dev.modSrst_fire (f : Srst → Srst) : (d.modSrst n f).fire = d.fire := rfl
@[simp] theorem Dev.modSrst_hl (f : Srst → Srst) : (d.modSrst n f).hl = d.hl := rfl
@[simp] theorem Dev.modSrst_sched (f : Srst → Srst) : (d.modSrst n f).sched = d.sched := rfl
@[simp] theorem Dev.modSrst_time (f : Srst → Srst) : (d.modSrst n f).time = d.time := rfl
@[simp] theorem Dev.modSrst_mot (f : Srst → Srst) : (d.modSrst n f).mot = d.mot := rfl
@[simp] theorem Dev.modSrst_bl (f : Srst → Srst) : (d.modSrst n f).bl = d.bl := rfl
@[simp] theorem Dev.modSrst_ddr (f : Srst → Srst) : (d.modSrst n f).ddr = d.ddr := rfl
@[simp] theorem Dev.modSrst_banks (f : Srst → Srst) : (d.modSrst n f).banks = d.banks := rfl
@[simp] theorem Dev.modSrst_wear (f : Srst → Srst) : (d.modSrst n f).wear = d.wear := rfl
@[simp] theorem Dev.modSrst_diag (f : Srst → Srst) : (d.modSrst n f).diag = d.diag := rfl
@[simp] theorem Dev.modSrst_out (f : Srst → Srst) : (d.modSrst n f).out = d.out := rfl
@[simp] theorem Dev.modSrst_free (f : Srst → Srst) : (d.modSrst n f).free = d.free := rfl
@[simp] theorem Dev.srst_modSrst (f : Srst → Srst) : (d.modSrst n f).srst n = f (d.srst n) := Tab.get_set_same ..
theorem Dev.srst_modSrst_ne (f : Srst → Srst) (h : k ≠ n) : (d.modSrst n f).srst k = d.srst k := Tab.get_set_ne _ _ _ h _

/-! ### modPll -/

@[simp] theorem Dev.modPll_sys (f : Pll → Pll) : (d.modPll n f).sys = d.sys := rfl
@[simp] theorem Dev.modPll_pwr (f : Pll → Pll) : (d.modPll n f).pwr = d.pwr := rfl
@[simp] theorem Dev.modPll_flt (f : Pll → Pll) : (d.modPll n f).flt = d.flt := rfl
@[simp] theorem Dev.modPll_rings (f : Pll → Pll) : (d.modPll n f).rings = d.rings := rfl
@[simp] theorem Dev.modPll_imp (f : Pll → Pll) : (d.modPll n f).imp = d.imp := rfl
@[simp] theorem Dev.modPll_ing (f : Pll → Pll) : (d.modPll n f).ing = d.ing := rfl
@[simp] theorem Dev.modPll_codec (f : Pll → Pll) : (d.modPll n f).codec = d.codec := rfl
@[simp] theorem Dev.modPll_scr (f : Pll → Pll) : (d.modPll n f).scr = d.scr := rfl
@[simp] theorem Dev.modPll_noz (f : Pll → Pll) : (d.modPll n f).noz = d.noz := rfl
@[simp] theorem Dev.modPll_fire (f : Pll → Pll) : (d.modPll n f).fire = d.fire := rfl
@[simp] theorem Dev.modPll_hl (f : Pll → Pll) : (d.modPll n f).hl = d.hl := rfl
@[simp] theorem Dev.modPll_sched (f : Pll → Pll) : (d.modPll n f).sched = d.sched := rfl
@[simp] theorem Dev.modPll_time (f : Pll → Pll) : (d.modPll n f).time = d.time := rfl
@[simp] theorem Dev.modPll_mot (f : Pll → Pll) : (d.modPll n f).mot = d.mot := rfl
@[simp] theorem Dev.modPll_bl (f : Pll → Pll) : (d.modPll n f).bl = d.bl := rfl
@[simp] theorem Dev.modPll_ddr (f : Pll → Pll) : (d.modPll n f).ddr = d.ddr := rfl
@[simp] theorem Dev.modPll_banks (f : Pll → Pll) : (d.modPll n f).banks = d.banks := rfl
@[simp] theorem Dev.modPll_wear (f : Pll → Pll) : (d.modPll n f).wear = d.wear := rfl
@[simp] theorem Dev.modPll_diag (f : Pll → Pll) : (d.modPll n f).diag = d.diag := rfl
@[simp] theorem Dev.modPll_out (f : Pll → Pll) : (d.modPll n f).out = d.out := rfl
@[simp] theorem Dev.modPll_free (f : Pll → Pll) : (d.modPll n f).free = d.free := rfl
@[simp] theorem Dev.pll_modPll (f : Pll → Pll) : (d.modPll n f).pll n = f (d.pll n) := Tab.get_set_same ..
theorem Dev.pll_modPll_ne (f : Pll → Pll) (h : k ≠ n) : (d.modPll n f).pll k = d.pll k := Tab.get_set_ne _ _ _ h _

/-! ### modRing -/

@[simp] theorem Dev.modRing_sys (f : Ring → Ring) : (d.modRing n f).sys = d.sys := rfl
@[simp] theorem Dev.modRing_pwr (f : Ring → Ring) : (d.modRing n f).pwr = d.pwr := rfl
@[simp] theorem Dev.modRing_clk (f : Ring → Ring) : (d.modRing n f).clk = d.clk := rfl
@[simp] theorem Dev.modRing_flt (f : Ring → Ring) : (d.modRing n f).flt = d.flt := rfl
@[simp] theorem Dev.modRing_imp (f : Ring → Ring) : (d.modRing n f).imp = d.imp := rfl
@[simp] theorem Dev.modRing_ing (f : Ring → Ring) : (d.modRing n f).ing = d.ing := rfl
@[simp] theorem Dev.modRing_codec (f : Ring → Ring) : (d.modRing n f).codec = d.codec := rfl
@[simp] theorem Dev.modRing_scr (f : Ring → Ring) : (d.modRing n f).scr = d.scr := rfl
@[simp] theorem Dev.modRing_noz (f : Ring → Ring) : (d.modRing n f).noz = d.noz := rfl
@[simp] theorem Dev.modRing_fire (f : Ring → Ring) : (d.modRing n f).fire = d.fire := rfl
@[simp] theorem Dev.modRing_hl (f : Ring → Ring) : (d.modRing n f).hl = d.hl := rfl
@[simp] theorem Dev.modRing_sched (f : Ring → Ring) : (d.modRing n f).sched = d.sched := rfl
@[simp] theorem Dev.modRing_time (f : Ring → Ring) : (d.modRing n f).time = d.time := rfl
@[simp] theorem Dev.modRing_mot (f : Ring → Ring) : (d.modRing n f).mot = d.mot := rfl
@[simp] theorem Dev.modRing_bl (f : Ring → Ring) : (d.modRing n f).bl = d.bl := rfl
@[simp] theorem Dev.modRing_ddr (f : Ring → Ring) : (d.modRing n f).ddr = d.ddr := rfl
@[simp] theorem Dev.modRing_banks (f : Ring → Ring) : (d.modRing n f).banks = d.banks := rfl
@[simp] theorem Dev.modRing_wear (f : Ring → Ring) : (d.modRing n f).wear = d.wear := rfl
@[simp] theorem Dev.modRing_diag (f : Ring → Ring) : (d.modRing n f).diag = d.diag := rfl
@[simp] theorem Dev.modRing_out (f : Ring → Ring) : (d.modRing n f).out = d.out := rfl
@[simp] theorem Dev.modRing_free (f : Ring → Ring) : (d.modRing n f).free = d.free := rfl
@[simp] theorem Dev.ring_modRing (f : Ring → Ring) : (d.modRing n f).ring n = f (d.ring n) := Tab.get_set_same ..
theorem Dev.ring_modRing_ne (f : Ring → Ring) (h : k ≠ n) : (d.modRing n f).ring k = d.ring k := Tab.get_set_ne _ _ _ h _

/-! ### modRptq -/

@[simp] theorem Dev.modRptq_sys (f : RptQ → RptQ) : (d.modRptq n f).sys = d.sys := rfl
@[simp] theorem Dev.modRptq_pwr (f : RptQ → RptQ) : (d.modRptq n f).pwr = d.pwr := rfl
@[simp] theorem Dev.modRptq_clk (f : RptQ → RptQ) : (d.modRptq n f).clk = d.clk := rfl
@[simp] theorem Dev.modRptq_flt (f : RptQ → RptQ) : (d.modRptq n f).flt = d.flt := rfl
@[simp] theorem Dev.modRptq_imp (f : RptQ → RptQ) : (d.modRptq n f).imp = d.imp := rfl
@[simp] theorem Dev.modRptq_ing (f : RptQ → RptQ) : (d.modRptq n f).ing = d.ing := rfl
@[simp] theorem Dev.modRptq_codec (f : RptQ → RptQ) : (d.modRptq n f).codec = d.codec := rfl
@[simp] theorem Dev.modRptq_scr (f : RptQ → RptQ) : (d.modRptq n f).scr = d.scr := rfl
@[simp] theorem Dev.modRptq_noz (f : RptQ → RptQ) : (d.modRptq n f).noz = d.noz := rfl
@[simp] theorem Dev.modRptq_fire (f : RptQ → RptQ) : (d.modRptq n f).fire = d.fire := rfl
@[simp] theorem Dev.modRptq_hl (f : RptQ → RptQ) : (d.modRptq n f).hl = d.hl := rfl
@[simp] theorem Dev.modRptq_sched (f : RptQ → RptQ) : (d.modRptq n f).sched = d.sched := rfl
@[simp] theorem Dev.modRptq_time (f : RptQ → RptQ) : (d.modRptq n f).time = d.time := rfl
@[simp] theorem Dev.modRptq_mot (f : RptQ → RptQ) : (d.modRptq n f).mot = d.mot := rfl
@[simp] theorem Dev.modRptq_bl (f : RptQ → RptQ) : (d.modRptq n f).bl = d.bl := rfl
@[simp] theorem Dev.modRptq_ddr (f : RptQ → RptQ) : (d.modRptq n f).ddr = d.ddr := rfl
@[simp] theorem Dev.modRptq_banks (f : RptQ → RptQ) : (d.modRptq n f).banks = d.banks := rfl
@[simp] theorem Dev.modRptq_wear (f : RptQ → RptQ) : (d.modRptq n f).wear = d.wear := rfl
@[simp] theorem Dev.modRptq_diag (f : RptQ → RptQ) : (d.modRptq n f).diag = d.diag := rfl
@[simp] theorem Dev.modRptq_out (f : RptQ → RptQ) : (d.modRptq n f).out = d.out := rfl
@[simp] theorem Dev.modRptq_free (f : RptQ → RptQ) : (d.modRptq n f).free = d.free := rfl
@[simp] theorem Dev.rptq_modRptq (f : RptQ → RptQ) : (d.modRptq n f).rptq n = f (d.rptq n) := Tab.get_set_same ..
theorem Dev.rptq_modRptq_ne (f : RptQ → RptQ) (h : k ≠ n) : (d.modRptq n f).rptq k = d.rptq k := Tab.get_set_ne _ _ _ h _

/-! ### modEntry -/

@[simp] theorem Dev.modEntry_sys (f : Entry → Entry) : (d.modEntry n f).sys = d.sys := rfl
@[simp] theorem Dev.modEntry_pwr (f : Entry → Entry) : (d.modEntry n f).pwr = d.pwr := rfl
@[simp] theorem Dev.modEntry_clk (f : Entry → Entry) : (d.modEntry n f).clk = d.clk := rfl
@[simp] theorem Dev.modEntry_flt (f : Entry → Entry) : (d.modEntry n f).flt = d.flt := rfl
@[simp] theorem Dev.modEntry_rings (f : Entry → Entry) : (d.modEntry n f).rings = d.rings := rfl
@[simp] theorem Dev.modEntry_ing (f : Entry → Entry) : (d.modEntry n f).ing = d.ing := rfl
@[simp] theorem Dev.modEntry_codec (f : Entry → Entry) : (d.modEntry n f).codec = d.codec := rfl
@[simp] theorem Dev.modEntry_scr (f : Entry → Entry) : (d.modEntry n f).scr = d.scr := rfl
@[simp] theorem Dev.modEntry_noz (f : Entry → Entry) : (d.modEntry n f).noz = d.noz := rfl
@[simp] theorem Dev.modEntry_fire (f : Entry → Entry) : (d.modEntry n f).fire = d.fire := rfl
@[simp] theorem Dev.modEntry_hl (f : Entry → Entry) : (d.modEntry n f).hl = d.hl := rfl
@[simp] theorem Dev.modEntry_sched (f : Entry → Entry) : (d.modEntry n f).sched = d.sched := rfl
@[simp] theorem Dev.modEntry_time (f : Entry → Entry) : (d.modEntry n f).time = d.time := rfl
@[simp] theorem Dev.modEntry_mot (f : Entry → Entry) : (d.modEntry n f).mot = d.mot := rfl
@[simp] theorem Dev.modEntry_bl (f : Entry → Entry) : (d.modEntry n f).bl = d.bl := rfl
@[simp] theorem Dev.modEntry_ddr (f : Entry → Entry) : (d.modEntry n f).ddr = d.ddr := rfl
@[simp] theorem Dev.modEntry_banks (f : Entry → Entry) : (d.modEntry n f).banks = d.banks := rfl
@[simp] theorem Dev.modEntry_wear (f : Entry → Entry) : (d.modEntry n f).wear = d.wear := rfl
@[simp] theorem Dev.modEntry_diag (f : Entry → Entry) : (d.modEntry n f).diag = d.diag := rfl
@[simp] theorem Dev.modEntry_out (f : Entry → Entry) : (d.modEntry n f).out = d.out := rfl
@[simp] theorem Dev.modEntry_free (f : Entry → Entry) : (d.modEntry n f).free = d.free := rfl
@[simp] theorem Dev.entry_modEntry (f : Entry → Entry) : (d.modEntry n f).entry n = f (d.entry n) := Tab.get_set_same ..
theorem Dev.entry_modEntry_ne (f : Entry → Entry) (h : k ≠ n) : (d.modEntry n f).entry k = d.entry k := Tab.get_set_ne _ _ _ h _

/-! ### modIst -/

@[simp] theorem Dev.modIst_sys (f : ImpStream → ImpStream) : (d.modIst n f).sys = d.sys := rfl
@[simp] theorem Dev.modIst_pwr (f : ImpStream → ImpStream) : (d.modIst n f).pwr = d.pwr := rfl
@[simp] theorem Dev.modIst_clk (f : ImpStream → ImpStream) : (d.modIst n f).clk = d.clk := rfl
@[simp] theorem Dev.modIst_flt (f : ImpStream → ImpStream) : (d.modIst n f).flt = d.flt := rfl
@[simp] theorem Dev.modIst_rings (f : ImpStream → ImpStream) : (d.modIst n f).rings = d.rings := rfl
@[simp] theorem Dev.modIst_ing (f : ImpStream → ImpStream) : (d.modIst n f).ing = d.ing := rfl
@[simp] theorem Dev.modIst_codec (f : ImpStream → ImpStream) : (d.modIst n f).codec = d.codec := rfl
@[simp] theorem Dev.modIst_scr (f : ImpStream → ImpStream) : (d.modIst n f).scr = d.scr := rfl
@[simp] theorem Dev.modIst_noz (f : ImpStream → ImpStream) : (d.modIst n f).noz = d.noz := rfl
@[simp] theorem Dev.modIst_fire (f : ImpStream → ImpStream) : (d.modIst n f).fire = d.fire := rfl
@[simp] theorem Dev.modIst_hl (f : ImpStream → ImpStream) : (d.modIst n f).hl = d.hl := rfl
@[simp] theorem Dev.modIst_sched (f : ImpStream → ImpStream) : (d.modIst n f).sched = d.sched := rfl
@[simp] theorem Dev.modIst_time (f : ImpStream → ImpStream) : (d.modIst n f).time = d.time := rfl
@[simp] theorem Dev.modIst_mot (f : ImpStream → ImpStream) : (d.modIst n f).mot = d.mot := rfl
@[simp] theorem Dev.modIst_bl (f : ImpStream → ImpStream) : (d.modIst n f).bl = d.bl := rfl
@[simp] theorem Dev.modIst_ddr (f : ImpStream → ImpStream) : (d.modIst n f).ddr = d.ddr := rfl
@[simp] theorem Dev.modIst_banks (f : ImpStream → ImpStream) : (d.modIst n f).banks = d.banks := rfl
@[simp] theorem Dev.modIst_wear (f : ImpStream → ImpStream) : (d.modIst n f).wear = d.wear := rfl
@[simp] theorem Dev.modIst_diag (f : ImpStream → ImpStream) : (d.modIst n f).diag = d.diag := rfl
@[simp] theorem Dev.modIst_out (f : ImpStream → ImpStream) : (d.modIst n f).out = d.out := rfl
@[simp] theorem Dev.modIst_free (f : ImpStream → ImpStream) : (d.modIst n f).free = d.free := rfl
@[simp] theorem Dev.ist_modIst (f : ImpStream → ImpStream) : (d.modIst n f).ist n = f (d.ist n) := Tab.get_set_same ..
theorem Dev.ist_modIst_ne (f : ImpStream → ImpStream) (h : k ≠ n) : (d.modIst n f).ist k = d.ist k := Tab.get_set_ne _ _ _ h _

/-! ### modObj -/

@[simp] theorem Dev.modObj_sys (f : Obj → Obj) : (d.modObj n f).sys = d.sys := rfl
@[simp] theorem Dev.modObj_pwr (f : Obj → Obj) : (d.modObj n f).pwr = d.pwr := rfl
@[simp] theorem Dev.modObj_clk (f : Obj → Obj) : (d.modObj n f).clk = d.clk := rfl
@[simp] theorem Dev.modObj_flt (f : Obj → Obj) : (d.modObj n f).flt = d.flt := rfl
@[simp] theorem Dev.modObj_rings (f : Obj → Obj) : (d.modObj n f).rings = d.rings := rfl
@[simp] theorem Dev.modObj_imp (f : Obj → Obj) : (d.modObj n f).imp = d.imp := rfl
@[simp] theorem Dev.modObj_codec (f : Obj → Obj) : (d.modObj n f).codec = d.codec := rfl
@[simp] theorem Dev.modObj_scr (f : Obj → Obj) : (d.modObj n f).scr = d.scr := rfl
@[simp] theorem Dev.modObj_noz (f : Obj → Obj) : (d.modObj n f).noz = d.noz := rfl
@[simp] theorem Dev.modObj_fire (f : Obj → Obj) : (d.modObj n f).fire = d.fire := rfl
@[simp] theorem Dev.modObj_hl (f : Obj → Obj) : (d.modObj n f).hl = d.hl := rfl
@[simp] theorem Dev.modObj_sched (f : Obj → Obj) : (d.modObj n f).sched = d.sched := rfl
@[simp] theorem Dev.modObj_time (f : Obj → Obj) : (d.modObj n f).time = d.time := rfl
@[simp] theorem Dev.modObj_mot (f : Obj → Obj) : (d.modObj n f).mot = d.mot := rfl
@[simp] theorem Dev.modObj_bl (f : Obj → Obj) : (d.modObj n f).bl = d.bl := rfl
@[simp] theorem Dev.modObj_ddr (f : Obj → Obj) : (d.modObj n f).ddr = d.ddr := rfl
@[simp] theorem Dev.modObj_banks (f : Obj → Obj) : (d.modObj n f).banks = d.banks := rfl
@[simp] theorem Dev.modObj_wear (f : Obj → Obj) : (d.modObj n f).wear = d.wear := rfl
@[simp] theorem Dev.modObj_diag (f : Obj → Obj) : (d.modObj n f).diag = d.diag := rfl
@[simp] theorem Dev.modObj_out (f : Obj → Obj) : (d.modObj n f).out = d.out := rfl
@[simp] theorem Dev.modObj_free (f : Obj → Obj) : (d.modObj n f).free = d.free := rfl
@[simp] theorem Dev.obj_modObj (f : Obj → Obj) : (d.modObj n f).obj n = f (d.obj n) := Tab.get_set_same ..
theorem Dev.obj_modObj_ne (f : Obj → Obj) (h : k ≠ n) : (d.modObj n f).obj k = d.obj k := Tab.get_set_ne _ _ _ h _

/-! ### modChan -/

@[simp] theorem Dev.modChan_sys (f : Dma → Dma) : (d.modChan n f).sys = d.sys := rfl
@[simp] theorem Dev.modChan_pwr (f : Dma → Dma) : (d.modChan n f).pwr = d.pwr := rfl
@[simp] theorem Dev.modChan_clk (f : Dma → Dma) : (d.modChan n f).clk = d.clk := rfl
@[simp] theorem Dev.modChan_flt (f : Dma → Dma) : (d.modChan n f).flt = d.flt := rfl
@[simp] theorem Dev.modChan_rings (f : Dma → Dma) : (d.modChan n f).rings = d.rings := rfl
@[simp] theorem Dev.modChan_imp (f : Dma → Dma) : (d.modChan n f).imp = d.imp := rfl
@[simp] theorem Dev.modChan_codec (f : Dma → Dma) : (d.modChan n f).codec = d.codec := rfl
@[simp] theorem Dev.modChan_scr (f : Dma → Dma) : (d.modChan n f).scr = d.scr := rfl
@[simp] theorem Dev.modChan_noz (f : Dma → Dma) : (d.modChan n f).noz = d.noz := rfl
@[simp] theorem Dev.modChan_fire (f : Dma → Dma) : (d.modChan n f).fire = d.fire := rfl
@[simp] theorem Dev.modChan_hl (f : Dma → Dma) : (d.modChan n f).hl = d.hl := rfl
@[simp] theorem Dev.modChan_sched (f : Dma → Dma) : (d.modChan n f).sched = d.sched := rfl
@[simp] theorem Dev.modChan_time (f : Dma → Dma) : (d.modChan n f).time = d.time := rfl
@[simp] theorem Dev.modChan_mot (f : Dma → Dma) : (d.modChan n f).mot = d.mot := rfl
@[simp] theorem Dev.modChan_bl (f : Dma → Dma) : (d.modChan n f).bl = d.bl := rfl
@[simp] theorem Dev.modChan_ddr (f : Dma → Dma) : (d.modChan n f).ddr = d.ddr := rfl
@[simp] theorem Dev.modChan_banks (f : Dma → Dma) : (d.modChan n f).banks = d.banks := rfl
@[simp] theorem Dev.modChan_wear (f : Dma → Dma) : (d.modChan n f).wear = d.wear := rfl
@[simp] theorem Dev.modChan_diag (f : Dma → Dma) : (d.modChan n f).diag = d.diag := rfl
@[simp] theorem Dev.modChan_out (f : Dma → Dma) : (d.modChan n f).out = d.out := rfl
@[simp] theorem Dev.modChan_free (f : Dma → Dma) : (d.modChan n f).free = d.free := rfl
@[simp] theorem Dev.chan_modChan (f : Dma → Dma) : (d.modChan n f).chan n = f (d.chan n) := Tab.get_set_same ..
theorem Dev.chan_modChan_ne (f : Dma → Dma) (h : k ≠ n) : (d.modChan n f).chan k = d.chan k := Tab.get_set_ne _ _ _ h _

/-! ### modCapq -/

@[simp] theorem Dev.modCapq_sys (f : CapQ → CapQ) : (d.modCapq n f).sys = d.sys := rfl
@[simp] theorem Dev.modCapq_pwr (f : CapQ → CapQ) : (d.modCapq n f).pwr = d.pwr := rfl
@[simp] theorem Dev.modCapq_clk (f : CapQ → CapQ) : (d.modCapq n f).clk = d.clk := rfl
@[simp] theorem Dev.modCapq_flt (f : CapQ → CapQ) : (d.modCapq n f).flt = d.flt := rfl
@[simp] theorem Dev.modCapq_rings (f : CapQ → CapQ) : (d.modCapq n f).rings = d.rings := rfl
@[simp] theorem Dev.modCapq_imp (f : CapQ → CapQ) : (d.modCapq n f).imp = d.imp := rfl
@[simp] theorem Dev.modCapq_ing (f : CapQ → CapQ) : (d.modCapq n f).ing = d.ing := rfl
@[simp] theorem Dev.modCapq_scr (f : CapQ → CapQ) : (d.modCapq n f).scr = d.scr := rfl
@[simp] theorem Dev.modCapq_noz (f : CapQ → CapQ) : (d.modCapq n f).noz = d.noz := rfl
@[simp] theorem Dev.modCapq_fire (f : CapQ → CapQ) : (d.modCapq n f).fire = d.fire := rfl
@[simp] theorem Dev.modCapq_hl (f : CapQ → CapQ) : (d.modCapq n f).hl = d.hl := rfl
@[simp] theorem Dev.modCapq_sched (f : CapQ → CapQ) : (d.modCapq n f).sched = d.sched := rfl
@[simp] theorem Dev.modCapq_time (f : CapQ → CapQ) : (d.modCapq n f).time = d.time := rfl
@[simp] theorem Dev.modCapq_mot (f : CapQ → CapQ) : (d.modCapq n f).mot = d.mot := rfl
@[simp] theorem Dev.modCapq_bl (f : CapQ → CapQ) : (d.modCapq n f).bl = d.bl := rfl
@[simp] theorem Dev.modCapq_ddr (f : CapQ → CapQ) : (d.modCapq n f).ddr = d.ddr := rfl
@[simp] theorem Dev.modCapq_banks (f : CapQ → CapQ) : (d.modCapq n f).banks = d.banks := rfl
@[simp] theorem Dev.modCapq_wear (f : CapQ → CapQ) : (d.modCapq n f).wear = d.wear := rfl
@[simp] theorem Dev.modCapq_diag (f : CapQ → CapQ) : (d.modCapq n f).diag = d.diag := rfl
@[simp] theorem Dev.modCapq_out (f : CapQ → CapQ) : (d.modCapq n f).out = d.out := rfl
@[simp] theorem Dev.modCapq_free (f : CapQ → CapQ) : (d.modCapq n f).free = d.free := rfl
@[simp] theorem Dev.capq_modCapq (f : CapQ → CapQ) : (d.modCapq n f).capq n = f (d.capq n) := Tab.get_set_same ..
theorem Dev.capq_modCapq_ne (f : CapQ → CapQ) (h : k ≠ n) : (d.modCapq n f).capq k = d.capq k := Tab.get_set_ne _ _ _ h _

/-! ### modCapBlock -/

@[simp] theorem Dev.modCapBlock_sys (f : CapBlock → CapBlock) : (d.modCapBlock n f).sys = d.sys := rfl
@[simp] theorem Dev.modCapBlock_pwr (f : CapBlock → CapBlock) : (d.modCapBlock n f).pwr = d.pwr := rfl
@[simp] theorem Dev.modCapBlock_clk (f : CapBlock → CapBlock) : (d.modCapBlock n f).clk = d.clk := rfl
@[simp] theorem Dev.modCapBlock_flt (f : CapBlock → CapBlock) : (d.modCapBlock n f).flt = d.flt := rfl
@[simp] theorem Dev.modCapBlock_rings (f : CapBlock → CapBlock) : (d.modCapBlock n f).rings = d.rings := rfl
@[simp] theorem Dev.modCapBlock_imp (f : CapBlock → CapBlock) : (d.modCapBlock n f).imp = d.imp := rfl
@[simp] theorem Dev.modCapBlock_ing (f : CapBlock → CapBlock) : (d.modCapBlock n f).ing = d.ing := rfl
@[simp] theorem Dev.modCapBlock_scr (f : CapBlock → CapBlock) : (d.modCapBlock n f).scr = d.scr := rfl
@[simp] theorem Dev.modCapBlock_noz (f : CapBlock → CapBlock) : (d.modCapBlock n f).noz = d.noz := rfl
@[simp] theorem Dev.modCapBlock_fire (f : CapBlock → CapBlock) : (d.modCapBlock n f).fire = d.fire := rfl
@[simp] theorem Dev.modCapBlock_hl (f : CapBlock → CapBlock) : (d.modCapBlock n f).hl = d.hl := rfl
@[simp] theorem Dev.modCapBlock_sched (f : CapBlock → CapBlock) : (d.modCapBlock n f).sched = d.sched := rfl
@[simp] theorem Dev.modCapBlock_time (f : CapBlock → CapBlock) : (d.modCapBlock n f).time = d.time := rfl
@[simp] theorem Dev.modCapBlock_mot (f : CapBlock → CapBlock) : (d.modCapBlock n f).mot = d.mot := rfl
@[simp] theorem Dev.modCapBlock_bl (f : CapBlock → CapBlock) : (d.modCapBlock n f).bl = d.bl := rfl
@[simp] theorem Dev.modCapBlock_ddr (f : CapBlock → CapBlock) : (d.modCapBlock n f).ddr = d.ddr := rfl
@[simp] theorem Dev.modCapBlock_banks (f : CapBlock → CapBlock) : (d.modCapBlock n f).banks = d.banks := rfl
@[simp] theorem Dev.modCapBlock_wear (f : CapBlock → CapBlock) : (d.modCapBlock n f).wear = d.wear := rfl
@[simp] theorem Dev.modCapBlock_diag (f : CapBlock → CapBlock) : (d.modCapBlock n f).diag = d.diag := rfl
@[simp] theorem Dev.modCapBlock_out (f : CapBlock → CapBlock) : (d.modCapBlock n f).out = d.out := rfl
@[simp] theorem Dev.modCapBlock_free (f : CapBlock → CapBlock) : (d.modCapBlock n f).free = d.free := rfl
@[simp] theorem Dev.capBlock_modCapBlock (f : CapBlock → CapBlock) : (d.modCapBlock n f).capBlock n = f (d.capBlock n) := Tab.get_set_same ..
theorem Dev.capBlock_modCapBlock_ne (f : CapBlock → CapBlock) (h : k ≠ n) : (d.modCapBlock n f).capBlock k = d.capBlock k := Tab.get_set_ne _ _ _ h _

/-! ### modSst -/

@[simp] theorem Dev.modSst_sys (f : ScrStream → ScrStream) : (d.modSst n f).sys = d.sys := rfl
@[simp] theorem Dev.modSst_pwr (f : ScrStream → ScrStream) : (d.modSst n f).pwr = d.pwr := rfl
@[simp] theorem Dev.modSst_clk (f : ScrStream → ScrStream) : (d.modSst n f).clk = d.clk := rfl
@[simp] theorem Dev.modSst_flt (f : ScrStream → ScrStream) : (d.modSst n f).flt = d.flt := rfl
@[simp] theorem Dev.modSst_rings (f : ScrStream → ScrStream) : (d.modSst n f).rings = d.rings := rfl
@[simp] theorem Dev.modSst_imp (f : ScrStream → ScrStream) : (d.modSst n f).imp = d.imp := rfl
@[simp] theorem Dev.modSst_ing (f : ScrStream → ScrStream) : (d.modSst n f).ing = d.ing := rfl
@[simp] theorem Dev.modSst_codec (f : ScrStream → ScrStream) : (d.modSst n f).codec = d.codec := rfl
@[simp] theorem Dev.modSst_noz (f : ScrStream → ScrStream) : (d.modSst n f).noz = d.noz := rfl
@[simp] theorem Dev.modSst_fire (f : ScrStream → ScrStream) : (d.modSst n f).fire = d.fire := rfl
@[simp] theorem Dev.modSst_hl (f : ScrStream → ScrStream) : (d.modSst n f).hl = d.hl := rfl
@[simp] theorem Dev.modSst_sched (f : ScrStream → ScrStream) : (d.modSst n f).sched = d.sched := rfl
@[simp] theorem Dev.modSst_time (f : ScrStream → ScrStream) : (d.modSst n f).time = d.time := rfl
@[simp] theorem Dev.modSst_mot (f : ScrStream → ScrStream) : (d.modSst n f).mot = d.mot := rfl
@[simp] theorem Dev.modSst_bl (f : ScrStream → ScrStream) : (d.modSst n f).bl = d.bl := rfl
@[simp] theorem Dev.modSst_ddr (f : ScrStream → ScrStream) : (d.modSst n f).ddr = d.ddr := rfl
@[simp] theorem Dev.modSst_banks (f : ScrStream → ScrStream) : (d.modSst n f).banks = d.banks := rfl
@[simp] theorem Dev.modSst_wear (f : ScrStream → ScrStream) : (d.modSst n f).wear = d.wear := rfl
@[simp] theorem Dev.modSst_diag (f : ScrStream → ScrStream) : (d.modSst n f).diag = d.diag := rfl
@[simp] theorem Dev.modSst_out (f : ScrStream → ScrStream) : (d.modSst n f).out = d.out := rfl
@[simp] theorem Dev.modSst_free (f : ScrStream → ScrStream) : (d.modSst n f).free = d.free := rfl
@[simp] theorem Dev.sst_modSst (f : ScrStream → ScrStream) : (d.modSst n f).sst n = f (d.sst n) := Tab.get_set_same ..
theorem Dev.sst_modSst_ne (f : ScrStream → ScrStream) (h : k ≠ n) : (d.modSst n f).sst k = d.sst k := Tab.get_set_ne _ _ _ h _

/-! ### modDropMap -/

@[simp] theorem Dev.modDropMap_sys (f : DropMap → DropMap) : (d.modDropMap n f).sys = d.sys := rfl
@[simp] theorem Dev.modDropMap_pwr (f : DropMap → DropMap) : (d.modDropMap n f).pwr = d.pwr := rfl
@[simp] theorem Dev.modDropMap_clk (f : DropMap → DropMap) : (d.modDropMap n f).clk = d.clk := rfl
@[simp] theorem Dev.modDropMap_flt (f : DropMap → DropMap) : (d.modDropMap n f).flt = d.flt := rfl
@[simp] theorem Dev.modDropMap_rings (f : DropMap → DropMap) : (d.modDropMap n f).rings = d.rings := rfl
@[simp] theorem Dev.modDropMap_imp (f : DropMap → DropMap) : (d.modDropMap n f).imp = d.imp := rfl
@[simp] theorem Dev.modDropMap_ing (f : DropMap → DropMap) : (d.modDropMap n f).ing = d.ing := rfl
@[simp] theorem Dev.modDropMap_codec (f : DropMap → DropMap) : (d.modDropMap n f).codec = d.codec := rfl
@[simp] theorem Dev.modDropMap_noz (f : DropMap → DropMap) : (d.modDropMap n f).noz = d.noz := rfl
@[simp] theorem Dev.modDropMap_fire (f : DropMap → DropMap) : (d.modDropMap n f).fire = d.fire := rfl
@[simp] theorem Dev.modDropMap_hl (f : DropMap → DropMap) : (d.modDropMap n f).hl = d.hl := rfl
@[simp] theorem Dev.modDropMap_sched (f : DropMap → DropMap) : (d.modDropMap n f).sched = d.sched := rfl
@[simp] theorem Dev.modDropMap_time (f : DropMap → DropMap) : (d.modDropMap n f).time = d.time := rfl
@[simp] theorem Dev.modDropMap_mot (f : DropMap → DropMap) : (d.modDropMap n f).mot = d.mot := rfl
@[simp] theorem Dev.modDropMap_bl (f : DropMap → DropMap) : (d.modDropMap n f).bl = d.bl := rfl
@[simp] theorem Dev.modDropMap_ddr (f : DropMap → DropMap) : (d.modDropMap n f).ddr = d.ddr := rfl
@[simp] theorem Dev.modDropMap_banks (f : DropMap → DropMap) : (d.modDropMap n f).banks = d.banks := rfl
@[simp] theorem Dev.modDropMap_wear (f : DropMap → DropMap) : (d.modDropMap n f).wear = d.wear := rfl
@[simp] theorem Dev.modDropMap_diag (f : DropMap → DropMap) : (d.modDropMap n f).diag = d.diag := rfl
@[simp] theorem Dev.modDropMap_out (f : DropMap → DropMap) : (d.modDropMap n f).out = d.out := rfl
@[simp] theorem Dev.modDropMap_free (f : DropMap → DropMap) : (d.modDropMap n f).free = d.free := rfl
@[simp] theorem Dev.dropMap_modDropMap (f : DropMap → DropMap) : (d.modDropMap n f).dropMap n = f (d.dropMap n) := Tab.get_set_same ..
theorem Dev.dropMap_modDropMap_ne (f : DropMap → DropMap) (h : k ≠ n) : (d.modDropMap n f).dropMap k = d.dropMap k := Tab.get_set_ne _ _ _ h _

/-! ### modThresh -/

@[simp] theorem Dev.modThresh_sys (f : Thresh → Thresh) : (d.modThresh n f).sys = d.sys := rfl
@[simp] theorem Dev.modThresh_pwr (f : Thresh → Thresh) : (d.modThresh n f).pwr = d.pwr := rfl
@[simp] theorem Dev.modThresh_clk (f : Thresh → Thresh) : (d.modThresh n f).clk = d.clk := rfl
@[simp] theorem Dev.modThresh_flt (f : Thresh → Thresh) : (d.modThresh n f).flt = d.flt := rfl
@[simp] theorem Dev.modThresh_rings (f : Thresh → Thresh) : (d.modThresh n f).rings = d.rings := rfl
@[simp] theorem Dev.modThresh_imp (f : Thresh → Thresh) : (d.modThresh n f).imp = d.imp := rfl
@[simp] theorem Dev.modThresh_ing (f : Thresh → Thresh) : (d.modThresh n f).ing = d.ing := rfl
@[simp] theorem Dev.modThresh_codec (f : Thresh → Thresh) : (d.modThresh n f).codec = d.codec := rfl
@[simp] theorem Dev.modThresh_noz (f : Thresh → Thresh) : (d.modThresh n f).noz = d.noz := rfl
@[simp] theorem Dev.modThresh_fire (f : Thresh → Thresh) : (d.modThresh n f).fire = d.fire := rfl
@[simp] theorem Dev.modThresh_hl (f : Thresh → Thresh) : (d.modThresh n f).hl = d.hl := rfl
@[simp] theorem Dev.modThresh_sched (f : Thresh → Thresh) : (d.modThresh n f).sched = d.sched := rfl
@[simp] theorem Dev.modThresh_time (f : Thresh → Thresh) : (d.modThresh n f).time = d.time := rfl
@[simp] theorem Dev.modThresh_mot (f : Thresh → Thresh) : (d.modThresh n f).mot = d.mot := rfl
@[simp] theorem Dev.modThresh_bl (f : Thresh → Thresh) : (d.modThresh n f).bl = d.bl := rfl
@[simp] theorem Dev.modThresh_ddr (f : Thresh → Thresh) : (d.modThresh n f).ddr = d.ddr := rfl
@[simp] theorem Dev.modThresh_banks (f : Thresh → Thresh) : (d.modThresh n f).banks = d.banks := rfl
@[simp] theorem Dev.modThresh_wear (f : Thresh → Thresh) : (d.modThresh n f).wear = d.wear := rfl
@[simp] theorem Dev.modThresh_diag (f : Thresh → Thresh) : (d.modThresh n f).diag = d.diag := rfl
@[simp] theorem Dev.modThresh_out (f : Thresh → Thresh) : (d.modThresh n f).out = d.out := rfl
@[simp] theorem Dev.modThresh_free (f : Thresh → Thresh) : (d.modThresh n f).free = d.free := rfl
@[simp] theorem Dev.thresh_modThresh (f : Thresh → Thresh) : (d.modThresh n f).thresh n = f (d.thresh n) := Tab.get_set_same ..
theorem Dev.thresh_modThresh_ne (f : Thresh → Thresh) (h : k ≠ n) : (d.modThresh n f).thresh k = d.thresh k := Tab.get_set_ne _ _ _ h _

/-! ### modDiffSet -/

@[simp] theorem Dev.modDiffSet_sys (f : Diff → Diff) : (d.modDiffSet n f).sys = d.sys := rfl
@[simp] theorem Dev.modDiffSet_pwr (f : Diff → Diff) : (d.modDiffSet n f).pwr = d.pwr := rfl
@[simp] theorem Dev.modDiffSet_clk (f : Diff → Diff) : (d.modDiffSet n f).clk = d.clk := rfl
@[simp] theorem Dev.modDiffSet_flt (f : Diff → Diff) : (d.modDiffSet n f).flt = d.flt := rfl
@[simp] theorem Dev.modDiffSet_rings (f : Diff → Diff) : (d.modDiffSet n f).rings = d.rings := rfl
@[simp] theorem Dev.modDiffSet_imp (f : Diff → Diff) : (d.modDiffSet n f).imp = d.imp := rfl
@[simp] theorem Dev.modDiffSet_ing (f : Diff → Diff) : (d.modDiffSet n f).ing = d.ing := rfl
@[simp] theorem Dev.modDiffSet_codec (f : Diff → Diff) : (d.modDiffSet n f).codec = d.codec := rfl
@[simp] theorem Dev.modDiffSet_noz (f : Diff → Diff) : (d.modDiffSet n f).noz = d.noz := rfl
@[simp] theorem Dev.modDiffSet_fire (f : Diff → Diff) : (d.modDiffSet n f).fire = d.fire := rfl
@[simp] theorem Dev.modDiffSet_hl (f : Diff → Diff) : (d.modDiffSet n f).hl = d.hl := rfl
@[simp] theorem Dev.modDiffSet_sched (f : Diff → Diff) : (d.modDiffSet n f).sched = d.sched := rfl
@[simp] theorem Dev.modDiffSet_time (f : Diff → Diff) : (d.modDiffSet n f).time = d.time := rfl
@[simp] theorem Dev.modDiffSet_mot (f : Diff → Diff) : (d.modDiffSet n f).mot = d.mot := rfl
@[simp] theorem Dev.modDiffSet_bl (f : Diff → Diff) : (d.modDiffSet n f).bl = d.bl := rfl
@[simp] theorem Dev.modDiffSet_ddr (f : Diff → Diff) : (d.modDiffSet n f).ddr = d.ddr := rfl
@[simp] theorem Dev.modDiffSet_banks (f : Diff → Diff) : (d.modDiffSet n f).banks = d.banks := rfl
@[simp] theorem Dev.modDiffSet_wear (f : Diff → Diff) : (d.modDiffSet n f).wear = d.wear := rfl
@[simp] theorem Dev.modDiffSet_diag (f : Diff → Diff) : (d.modDiffSet n f).diag = d.diag := rfl
@[simp] theorem Dev.modDiffSet_out (f : Diff → Diff) : (d.modDiffSet n f).out = d.out := rfl
@[simp] theorem Dev.modDiffSet_free (f : Diff → Diff) : (d.modDiffSet n f).free = d.free := rfl
@[simp] theorem Dev.diffSet_modDiffSet (f : Diff → Diff) : (d.modDiffSet n f).diffSet n = f (d.diffSet n) := Tab.get_set_same ..
theorem Dev.diffSet_modDiffSet_ne (f : Diff → Diff) (h : k ≠ n) : (d.modDiffSet n f).diffSet k = d.diffSet k := Tab.get_set_ne _ _ _ h _

/-! ### modNst -/

@[simp] theorem Dev.modNst_sys (f : NozStream → NozStream) : (d.modNst n f).sys = d.sys := rfl
@[simp] theorem Dev.modNst_pwr (f : NozStream → NozStream) : (d.modNst n f).pwr = d.pwr := rfl
@[simp] theorem Dev.modNst_clk (f : NozStream → NozStream) : (d.modNst n f).clk = d.clk := rfl
@[simp] theorem Dev.modNst_flt (f : NozStream → NozStream) : (d.modNst n f).flt = d.flt := rfl
@[simp] theorem Dev.modNst_rings (f : NozStream → NozStream) : (d.modNst n f).rings = d.rings := rfl
@[simp] theorem Dev.modNst_imp (f : NozStream → NozStream) : (d.modNst n f).imp = d.imp := rfl
@[simp] theorem Dev.modNst_ing (f : NozStream → NozStream) : (d.modNst n f).ing = d.ing := rfl
@[simp] theorem Dev.modNst_codec (f : NozStream → NozStream) : (d.modNst n f).codec = d.codec := rfl
@[simp] theorem Dev.modNst_scr (f : NozStream → NozStream) : (d.modNst n f).scr = d.scr := rfl
@[simp] theorem Dev.modNst_fire (f : NozStream → NozStream) : (d.modNst n f).fire = d.fire := rfl
@[simp] theorem Dev.modNst_hl (f : NozStream → NozStream) : (d.modNst n f).hl = d.hl := rfl
@[simp] theorem Dev.modNst_sched (f : NozStream → NozStream) : (d.modNst n f).sched = d.sched := rfl
@[simp] theorem Dev.modNst_time (f : NozStream → NozStream) : (d.modNst n f).time = d.time := rfl
@[simp] theorem Dev.modNst_mot (f : NozStream → NozStream) : (d.modNst n f).mot = d.mot := rfl
@[simp] theorem Dev.modNst_bl (f : NozStream → NozStream) : (d.modNst n f).bl = d.bl := rfl
@[simp] theorem Dev.modNst_ddr (f : NozStream → NozStream) : (d.modNst n f).ddr = d.ddr := rfl
@[simp] theorem Dev.modNst_banks (f : NozStream → NozStream) : (d.modNst n f).banks = d.banks := rfl
@[simp] theorem Dev.modNst_wear (f : NozStream → NozStream) : (d.modNst n f).wear = d.wear := rfl
@[simp] theorem Dev.modNst_diag (f : NozStream → NozStream) : (d.modNst n f).diag = d.diag := rfl
@[simp] theorem Dev.modNst_out (f : NozStream → NozStream) : (d.modNst n f).out = d.out := rfl
@[simp] theorem Dev.modNst_free (f : NozStream → NozStream) : (d.modNst n f).free = d.free := rfl
@[simp] theorem Dev.nst_modNst (f : NozStream → NozStream) : (d.modNst n f).nst n = f (d.nst n) := Tab.get_set_same ..
theorem Dev.nst_modNst_ne (f : NozStream → NozStream) (h : k ≠ n) : (d.modNst n f).nst k = d.nst k := Tab.get_set_ne _ _ _ h _

/-! ### modNport -/

@[simp] theorem Dev.modNport_sys (f : NozPort → NozPort) : (d.modNport n f).sys = d.sys := rfl
@[simp] theorem Dev.modNport_pwr (f : NozPort → NozPort) : (d.modNport n f).pwr = d.pwr := rfl
@[simp] theorem Dev.modNport_clk (f : NozPort → NozPort) : (d.modNport n f).clk = d.clk := rfl
@[simp] theorem Dev.modNport_flt (f : NozPort → NozPort) : (d.modNport n f).flt = d.flt := rfl
@[simp] theorem Dev.modNport_rings (f : NozPort → NozPort) : (d.modNport n f).rings = d.rings := rfl
@[simp] theorem Dev.modNport_imp (f : NozPort → NozPort) : (d.modNport n f).imp = d.imp := rfl
@[simp] theorem Dev.modNport_ing (f : NozPort → NozPort) : (d.modNport n f).ing = d.ing := rfl
@[simp] theorem Dev.modNport_codec (f : NozPort → NozPort) : (d.modNport n f).codec = d.codec := rfl
@[simp] theorem Dev.modNport_scr (f : NozPort → NozPort) : (d.modNport n f).scr = d.scr := rfl
@[simp] theorem Dev.modNport_fire (f : NozPort → NozPort) : (d.modNport n f).fire = d.fire := rfl
@[simp] theorem Dev.modNport_hl (f : NozPort → NozPort) : (d.modNport n f).hl = d.hl := rfl
@[simp] theorem Dev.modNport_sched (f : NozPort → NozPort) : (d.modNport n f).sched = d.sched := rfl
@[simp] theorem Dev.modNport_time (f : NozPort → NozPort) : (d.modNport n f).time = d.time := rfl
@[simp] theorem Dev.modNport_mot (f : NozPort → NozPort) : (d.modNport n f).mot = d.mot := rfl
@[simp] theorem Dev.modNport_bl (f : NozPort → NozPort) : (d.modNport n f).bl = d.bl := rfl
@[simp] theorem Dev.modNport_ddr (f : NozPort → NozPort) : (d.modNport n f).ddr = d.ddr := rfl
@[simp] theorem Dev.modNport_banks (f : NozPort → NozPort) : (d.modNport n f).banks = d.banks := rfl
@[simp] theorem Dev.modNport_wear (f : NozPort → NozPort) : (d.modNport n f).wear = d.wear := rfl
@[simp] theorem Dev.modNport_diag (f : NozPort → NozPort) : (d.modNport n f).diag = d.diag := rfl
@[simp] theorem Dev.modNport_out (f : NozPort → NozPort) : (d.modNport n f).out = d.out := rfl
@[simp] theorem Dev.modNport_free (f : NozPort → NozPort) : (d.modNport n f).free = d.free := rfl
@[simp] theorem Dev.nport_modNport (f : NozPort → NozPort) : (d.modNport n f).nport n = f (d.nport n) := Tab.get_set_same ..
theorem Dev.nport_modNport_ne (f : NozPort → NozPort) (h : k ≠ n) : (d.modNport n f).nport k = d.nport k := Tab.get_set_ne _ _ _ h _

/-! ### modEnc -/

@[simp] theorem Dev.modEnc_sys (f : Enc → Enc) : (d.modEnc n f).sys = d.sys := rfl
@[simp] theorem Dev.modEnc_pwr (f : Enc → Enc) : (d.modEnc n f).pwr = d.pwr := rfl
@[simp] theorem Dev.modEnc_clk (f : Enc → Enc) : (d.modEnc n f).clk = d.clk := rfl
@[simp] theorem Dev.modEnc_flt (f : Enc → Enc) : (d.modEnc n f).flt = d.flt := rfl
@[simp] theorem Dev.modEnc_rings (f : Enc → Enc) : (d.modEnc n f).rings = d.rings := rfl
@[simp] theorem Dev.modEnc_imp (f : Enc → Enc) : (d.modEnc n f).imp = d.imp := rfl
@[simp] theorem Dev.modEnc_ing (f : Enc → Enc) : (d.modEnc n f).ing = d.ing := rfl
@[simp] theorem Dev.modEnc_codec (f : Enc → Enc) : (d.modEnc n f).codec = d.codec := rfl
@[simp] theorem Dev.modEnc_scr (f : Enc → Enc) : (d.modEnc n f).scr = d.scr := rfl
@[simp] theorem Dev.modEnc_noz (f : Enc → Enc) : (d.modEnc n f).noz = d.noz := rfl
@[simp] theorem Dev.modEnc_hl (f : Enc → Enc) : (d.modEnc n f).hl = d.hl := rfl
@[simp] theorem Dev.modEnc_sched (f : Enc → Enc) : (d.modEnc n f).sched = d.sched := rfl
@[simp] theorem Dev.modEnc_time (f : Enc → Enc) : (d.modEnc n f).time = d.time := rfl
@[simp] theorem Dev.modEnc_mot (f : Enc → Enc) : (d.modEnc n f).mot = d.mot := rfl
@[simp] theorem Dev.modEnc_bl (f : Enc → Enc) : (d.modEnc n f).bl = d.bl := rfl
@[simp] theorem Dev.modEnc_ddr (f : Enc → Enc) : (d.modEnc n f).ddr = d.ddr := rfl
@[simp] theorem Dev.modEnc_banks (f : Enc → Enc) : (d.modEnc n f).banks = d.banks := rfl
@[simp] theorem Dev.modEnc_wear (f : Enc → Enc) : (d.modEnc n f).wear = d.wear := rfl
@[simp] theorem Dev.modEnc_diag (f : Enc → Enc) : (d.modEnc n f).diag = d.diag := rfl
@[simp] theorem Dev.modEnc_out (f : Enc → Enc) : (d.modEnc n f).out = d.out := rfl
@[simp] theorem Dev.modEnc_free (f : Enc → Enc) : (d.modEnc n f).free = d.free := rfl
@[simp] theorem Dev.enc_modEnc (f : Enc → Enc) : (d.modEnc n f).enc n = f (d.enc n) := Tab.get_set_same ..
theorem Dev.enc_modEnc_ne (f : Enc → Enc) (h : k ≠ n) : (d.modEnc n f).enc k = d.enc k := Tab.get_set_ne _ _ _ h _

/-! ### modFst -/

@[simp] theorem Dev.modFst_sys (f : FireStream → FireStream) : (d.modFst n f).sys = d.sys := rfl
@[simp] theorem Dev.modFst_pwr (f : FireStream → FireStream) : (d.modFst n f).pwr = d.pwr := rfl
@[simp] theorem Dev.modFst_clk (f : FireStream → FireStream) : (d.modFst n f).clk = d.clk := rfl
@[simp] theorem Dev.modFst_flt (f : FireStream → FireStream) : (d.modFst n f).flt = d.flt := rfl
@[simp] theorem Dev.modFst_rings (f : FireStream → FireStream) : (d.modFst n f).rings = d.rings := rfl
@[simp] theorem Dev.modFst_imp (f : FireStream → FireStream) : (d.modFst n f).imp = d.imp := rfl
@[simp] theorem Dev.modFst_ing (f : FireStream → FireStream) : (d.modFst n f).ing = d.ing := rfl
@[simp] theorem Dev.modFst_codec (f : FireStream → FireStream) : (d.modFst n f).codec = d.codec := rfl
@[simp] theorem Dev.modFst_scr (f : FireStream → FireStream) : (d.modFst n f).scr = d.scr := rfl
@[simp] theorem Dev.modFst_noz (f : FireStream → FireStream) : (d.modFst n f).noz = d.noz := rfl
@[simp] theorem Dev.modFst_hl (f : FireStream → FireStream) : (d.modFst n f).hl = d.hl := rfl
@[simp] theorem Dev.modFst_sched (f : FireStream → FireStream) : (d.modFst n f).sched = d.sched := rfl
@[simp] theorem Dev.modFst_time (f : FireStream → FireStream) : (d.modFst n f).time = d.time := rfl
@[simp] theorem Dev.modFst_mot (f : FireStream → FireStream) : (d.modFst n f).mot = d.mot := rfl
@[simp] theorem Dev.modFst_bl (f : FireStream → FireStream) : (d.modFst n f).bl = d.bl := rfl
@[simp] theorem Dev.modFst_ddr (f : FireStream → FireStream) : (d.modFst n f).ddr = d.ddr := rfl
@[simp] theorem Dev.modFst_banks (f : FireStream → FireStream) : (d.modFst n f).banks = d.banks := rfl
@[simp] theorem Dev.modFst_wear (f : FireStream → FireStream) : (d.modFst n f).wear = d.wear := rfl
@[simp] theorem Dev.modFst_diag (f : FireStream → FireStream) : (d.modFst n f).diag = d.diag := rfl
@[simp] theorem Dev.modFst_out (f : FireStream → FireStream) : (d.modFst n f).out = d.out := rfl
@[simp] theorem Dev.modFst_free (f : FireStream → FireStream) : (d.modFst n f).free = d.free := rfl
@[simp] theorem Dev.fst_modFst (f : FireStream → FireStream) : (d.modFst n f).fst n = f (d.fst n) := Tab.get_set_same ..
theorem Dev.fst_modFst_ne (f : FireStream → FireStream) (h : k ≠ n) : (d.modFst n f).fst k = d.fst k := Tab.get_set_ne _ _ _ h _

/-! ### modFport -/

@[simp] theorem Dev.modFport_sys (f : FirePort → FirePort) : (d.modFport n f).sys = d.sys := rfl
@[simp] theorem Dev.modFport_pwr (f : FirePort → FirePort) : (d.modFport n f).pwr = d.pwr := rfl
@[simp] theorem Dev.modFport_clk (f : FirePort → FirePort) : (d.modFport n f).clk = d.clk := rfl
@[simp] theorem Dev.modFport_flt (f : FirePort → FirePort) : (d.modFport n f).flt = d.flt := rfl
@[simp] theorem Dev.modFport_rings (f : FirePort → FirePort) : (d.modFport n f).rings = d.rings := rfl
@[simp] theorem Dev.modFport_imp (f : FirePort → FirePort) : (d.modFport n f).imp = d.imp := rfl
@[simp] theorem Dev.modFport_ing (f : FirePort → FirePort) : (d.modFport n f).ing = d.ing := rfl
@[simp] theorem Dev.modFport_codec (f : FirePort → FirePort) : (d.modFport n f).codec = d.codec := rfl
@[simp] theorem Dev.modFport_scr (f : FirePort → FirePort) : (d.modFport n f).scr = d.scr := rfl
@[simp] theorem Dev.modFport_noz (f : FirePort → FirePort) : (d.modFport n f).noz = d.noz := rfl
@[simp] theorem Dev.modFport_hl (f : FirePort → FirePort) : (d.modFport n f).hl = d.hl := rfl
@[simp] theorem Dev.modFport_sched (f : FirePort → FirePort) : (d.modFport n f).sched = d.sched := rfl
@[simp] theorem Dev.modFport_time (f : FirePort → FirePort) : (d.modFport n f).time = d.time := rfl
@[simp] theorem Dev.modFport_mot (f : FirePort → FirePort) : (d.modFport n f).mot = d.mot := rfl
@[simp] theorem Dev.modFport_bl (f : FirePort → FirePort) : (d.modFport n f).bl = d.bl := rfl
@[simp] theorem Dev.modFport_ddr (f : FirePort → FirePort) : (d.modFport n f).ddr = d.ddr := rfl
@[simp] theorem Dev.modFport_banks (f : FirePort → FirePort) : (d.modFport n f).banks = d.banks := rfl
@[simp] theorem Dev.modFport_wear (f : FirePort → FirePort) : (d.modFport n f).wear = d.wear := rfl
@[simp] theorem Dev.modFport_diag (f : FirePort → FirePort) : (d.modFport n f).diag = d.diag := rfl
@[simp] theorem Dev.modFport_out (f : FirePort → FirePort) : (d.modFport n f).out = d.out := rfl
@[simp] theorem Dev.modFport_free (f : FirePort → FirePort) : (d.modFport n f).free = d.free := rfl
@[simp] theorem Dev.fport_modFport (f : FirePort → FirePort) : (d.modFport n f).fport n = f (d.fport n) := Tab.get_set_same ..
theorem Dev.fport_modFport_ne (f : FirePort → FirePort) (h : k ≠ n) : (d.modFport n f).fport k = d.fport k := Tab.get_set_ne _ _ _ h _

/-! ### modHp -/

@[simp] theorem Dev.modHp_sys (f : HlPort → HlPort) : (d.modHp n f).sys = d.sys := rfl
@[simp] theorem Dev.modHp_pwr (f : HlPort → HlPort) : (d.modHp n f).pwr = d.pwr := rfl
@[simp] theorem Dev.modHp_clk (f : HlPort → HlPort) : (d.modHp n f).clk = d.clk := rfl
@[simp] theorem Dev.modHp_flt (f : HlPort → HlPort) : (d.modHp n f).flt = d.flt := rfl
@[simp] theorem Dev.modHp_rings (f : HlPort → HlPort) : (d.modHp n f).rings = d.rings := rfl
@[simp] theorem Dev.modHp_imp (f : HlPort → HlPort) : (d.modHp n f).imp = d.imp := rfl
@[simp] theorem Dev.modHp_ing (f : HlPort → HlPort) : (d.modHp n f).ing = d.ing := rfl
@[simp] theorem Dev.modHp_codec (f : HlPort → HlPort) : (d.modHp n f).codec = d.codec := rfl
@[simp] theorem Dev.modHp_scr (f : HlPort → HlPort) : (d.modHp n f).scr = d.scr := rfl
@[simp] theorem Dev.modHp_noz (f : HlPort → HlPort) : (d.modHp n f).noz = d.noz := rfl
@[simp] theorem Dev.modHp_fire (f : HlPort → HlPort) : (d.modHp n f).fire = d.fire := rfl
@[simp] theorem Dev.modHp_sched (f : HlPort → HlPort) : (d.modHp n f).sched = d.sched := rfl
@[simp] theorem Dev.modHp_time (f : HlPort → HlPort) : (d.modHp n f).time = d.time := rfl
@[simp] theorem Dev.modHp_mot (f : HlPort → HlPort) : (d.modHp n f).mot = d.mot := rfl
@[simp] theorem Dev.modHp_bl (f : HlPort → HlPort) : (d.modHp n f).bl = d.bl := rfl
@[simp] theorem Dev.modHp_ddr (f : HlPort → HlPort) : (d.modHp n f).ddr = d.ddr := rfl
@[simp] theorem Dev.modHp_banks (f : HlPort → HlPort) : (d.modHp n f).banks = d.banks := rfl
@[simp] theorem Dev.modHp_wear (f : HlPort → HlPort) : (d.modHp n f).wear = d.wear := rfl
@[simp] theorem Dev.modHp_diag (f : HlPort → HlPort) : (d.modHp n f).diag = d.diag := rfl
@[simp] theorem Dev.modHp_out (f : HlPort → HlPort) : (d.modHp n f).out = d.out := rfl
@[simp] theorem Dev.modHp_free (f : HlPort → HlPort) : (d.modHp n f).free = d.free := rfl
@[simp] theorem Dev.hp_modHp (f : HlPort → HlPort) : (d.modHp n f).hp n = f (d.hp n) := Tab.get_set_same ..
theorem Dev.hp_modHp_ne (f : HlPort → HlPort) (h : k ≠ n) : (d.modHp n f).hp k = d.hp k := Tab.get_set_ne _ _ _ h _

/-! ### modPmodel -/

@[simp] theorem Dev.modPmodel_sys (f : PortModel → PortModel) : (d.modPmodel n f).sys = d.sys := rfl
@[simp] theorem Dev.modPmodel_pwr (f : PortModel → PortModel) : (d.modPmodel n f).pwr = d.pwr := rfl
@[simp] theorem Dev.modPmodel_clk (f : PortModel → PortModel) : (d.modPmodel n f).clk = d.clk := rfl
@[simp] theorem Dev.modPmodel_flt (f : PortModel → PortModel) : (d.modPmodel n f).flt = d.flt := rfl
@[simp] theorem Dev.modPmodel_rings (f : PortModel → PortModel) : (d.modPmodel n f).rings = d.rings := rfl
@[simp] theorem Dev.modPmodel_imp (f : PortModel → PortModel) : (d.modPmodel n f).imp = d.imp := rfl
@[simp] theorem Dev.modPmodel_ing (f : PortModel → PortModel) : (d.modPmodel n f).ing = d.ing := rfl
@[simp] theorem Dev.modPmodel_codec (f : PortModel → PortModel) : (d.modPmodel n f).codec = d.codec := rfl
@[simp] theorem Dev.modPmodel_scr (f : PortModel → PortModel) : (d.modPmodel n f).scr = d.scr := rfl
@[simp] theorem Dev.modPmodel_noz (f : PortModel → PortModel) : (d.modPmodel n f).noz = d.noz := rfl
@[simp] theorem Dev.modPmodel_fire (f : PortModel → PortModel) : (d.modPmodel n f).fire = d.fire := rfl
@[simp] theorem Dev.modPmodel_hl (f : PortModel → PortModel) : (d.modPmodel n f).hl = d.hl := rfl
@[simp] theorem Dev.modPmodel_time (f : PortModel → PortModel) : (d.modPmodel n f).time = d.time := rfl
@[simp] theorem Dev.modPmodel_mot (f : PortModel → PortModel) : (d.modPmodel n f).mot = d.mot := rfl
@[simp] theorem Dev.modPmodel_bl (f : PortModel → PortModel) : (d.modPmodel n f).bl = d.bl := rfl
@[simp] theorem Dev.modPmodel_ddr (f : PortModel → PortModel) : (d.modPmodel n f).ddr = d.ddr := rfl
@[simp] theorem Dev.modPmodel_banks (f : PortModel → PortModel) : (d.modPmodel n f).banks = d.banks := rfl
@[simp] theorem Dev.modPmodel_wear (f : PortModel → PortModel) : (d.modPmodel n f).wear = d.wear := rfl
@[simp] theorem Dev.modPmodel_diag (f : PortModel → PortModel) : (d.modPmodel n f).diag = d.diag := rfl
@[simp] theorem Dev.modPmodel_out (f : PortModel → PortModel) : (d.modPmodel n f).out = d.out := rfl
@[simp] theorem Dev.modPmodel_free (f : PortModel → PortModel) : (d.modPmodel n f).free = d.free := rfl
@[simp] theorem Dev.pmodel_modPmodel (f : PortModel → PortModel) : (d.modPmodel n f).pmodel n = f (d.pmodel n) := Tab.get_set_same ..
theorem Dev.pmodel_modPmodel_ne (f : PortModel → PortModel) (h : k ≠ n) : (d.modPmodel n f).pmodel k = d.pmodel k := Tab.get_set_ne _ _ _ h _

/-! ### modZone -/

@[simp] theorem Dev.modZone_sys (f : ZoneModel → ZoneModel) : (d.modZone n f).sys = d.sys := rfl
@[simp] theorem Dev.modZone_pwr (f : ZoneModel → ZoneModel) : (d.modZone n f).pwr = d.pwr := rfl
@[simp] theorem Dev.modZone_clk (f : ZoneModel → ZoneModel) : (d.modZone n f).clk = d.clk := rfl
@[simp] theorem Dev.modZone_flt (f : ZoneModel → ZoneModel) : (d.modZone n f).flt = d.flt := rfl
@[simp] theorem Dev.modZone_rings (f : ZoneModel → ZoneModel) : (d.modZone n f).rings = d.rings := rfl
@[simp] theorem Dev.modZone_imp (f : ZoneModel → ZoneModel) : (d.modZone n f).imp = d.imp := rfl
@[simp] theorem Dev.modZone_ing (f : ZoneModel → ZoneModel) : (d.modZone n f).ing = d.ing := rfl
@[simp] theorem Dev.modZone_codec (f : ZoneModel → ZoneModel) : (d.modZone n f).codec = d.codec := rfl
@[simp] theorem Dev.modZone_scr (f : ZoneModel → ZoneModel) : (d.modZone n f).scr = d.scr := rfl
@[simp] theorem Dev.modZone_noz (f : ZoneModel → ZoneModel) : (d.modZone n f).noz = d.noz := rfl
@[simp] theorem Dev.modZone_fire (f : ZoneModel → ZoneModel) : (d.modZone n f).fire = d.fire := rfl
@[simp] theorem Dev.modZone_hl (f : ZoneModel → ZoneModel) : (d.modZone n f).hl = d.hl := rfl
@[simp] theorem Dev.modZone_time (f : ZoneModel → ZoneModel) : (d.modZone n f).time = d.time := rfl
@[simp] theorem Dev.modZone_mot (f : ZoneModel → ZoneModel) : (d.modZone n f).mot = d.mot := rfl
@[simp] theorem Dev.modZone_bl (f : ZoneModel → ZoneModel) : (d.modZone n f).bl = d.bl := rfl
@[simp] theorem Dev.modZone_ddr (f : ZoneModel → ZoneModel) : (d.modZone n f).ddr = d.ddr := rfl
@[simp] theorem Dev.modZone_banks (f : ZoneModel → ZoneModel) : (d.modZone n f).banks = d.banks := rfl
@[simp] theorem Dev.modZone_wear (f : ZoneModel → ZoneModel) : (d.modZone n f).wear = d.wear := rfl
@[simp] theorem Dev.modZone_diag (f : ZoneModel → ZoneModel) : (d.modZone n f).diag = d.diag := rfl
@[simp] theorem Dev.modZone_out (f : ZoneModel → ZoneModel) : (d.modZone n f).out = d.out := rfl
@[simp] theorem Dev.modZone_free (f : ZoneModel → ZoneModel) : (d.modZone n f).free = d.free := rfl
@[simp] theorem Dev.zone_modZone (f : ZoneModel → ZoneModel) : (d.modZone n f).zone n = f (d.zone n) := Tab.get_set_same ..
theorem Dev.zone_modZone_ne (f : ZoneModel → ZoneModel) (h : k ≠ n) : (d.modZone n f).zone k = d.zone k := Tab.get_set_ne _ _ _ h _

/-! ### modTb -/

@[simp] theorem Dev.modTb_sys (f : Tb → Tb) : (d.modTb n f).sys = d.sys := rfl
@[simp] theorem Dev.modTb_pwr (f : Tb → Tb) : (d.modTb n f).pwr = d.pwr := rfl
@[simp] theorem Dev.modTb_clk (f : Tb → Tb) : (d.modTb n f).clk = d.clk := rfl
@[simp] theorem Dev.modTb_flt (f : Tb → Tb) : (d.modTb n f).flt = d.flt := rfl
@[simp] theorem Dev.modTb_rings (f : Tb → Tb) : (d.modTb n f).rings = d.rings := rfl
@[simp] theorem Dev.modTb_imp (f : Tb → Tb) : (d.modTb n f).imp = d.imp := rfl
@[simp] theorem Dev.modTb_ing (f : Tb → Tb) : (d.modTb n f).ing = d.ing := rfl
@[simp] theorem Dev.modTb_codec (f : Tb → Tb) : (d.modTb n f).codec = d.codec := rfl
@[simp] theorem Dev.modTb_scr (f : Tb → Tb) : (d.modTb n f).scr = d.scr := rfl
@[simp] theorem Dev.modTb_noz (f : Tb → Tb) : (d.modTb n f).noz = d.noz := rfl
@[simp] theorem Dev.modTb_fire (f : Tb → Tb) : (d.modTb n f).fire = d.fire := rfl
@[simp] theorem Dev.modTb_hl (f : Tb → Tb) : (d.modTb n f).hl = d.hl := rfl
@[simp] theorem Dev.modTb_sched (f : Tb → Tb) : (d.modTb n f).sched = d.sched := rfl
@[simp] theorem Dev.modTb_mot (f : Tb → Tb) : (d.modTb n f).mot = d.mot := rfl
@[simp] theorem Dev.modTb_bl (f : Tb → Tb) : (d.modTb n f).bl = d.bl := rfl
@[simp] theorem Dev.modTb_ddr (f : Tb → Tb) : (d.modTb n f).ddr = d.ddr := rfl
@[simp] theorem Dev.modTb_banks (f : Tb → Tb) : (d.modTb n f).banks = d.banks := rfl
@[simp] theorem Dev.modTb_wear (f : Tb → Tb) : (d.modTb n f).wear = d.wear := rfl
@[simp] theorem Dev.modTb_diag (f : Tb → Tb) : (d.modTb n f).diag = d.diag := rfl
@[simp] theorem Dev.modTb_out (f : Tb → Tb) : (d.modTb n f).out = d.out := rfl
@[simp] theorem Dev.modTb_free (f : Tb → Tb) : (d.modTb n f).free = d.free := rfl
@[simp] theorem Dev.tb_modTb (f : Tb → Tb) : (d.modTb n f).tb n = f (d.tb n) := Tab.get_set_same ..
theorem Dev.tb_modTb_ne (f : Tb → Tb) (h : k ≠ n) : (d.modTb n f).tb k = d.tb k := Tab.get_set_ne _ _ _ h _

/-! ### modTin -/

@[simp] theorem Dev.modTin_sys (f : Tin → Tin) : (d.modTin n f).sys = d.sys := rfl
@[simp] theorem Dev.modTin_pwr (f : Tin → Tin) : (d.modTin n f).pwr = d.pwr := rfl
@[simp] theorem Dev.modTin_clk (f : Tin → Tin) : (d.modTin n f).clk = d.clk := rfl
@[simp] theorem Dev.modTin_flt (f : Tin → Tin) : (d.modTin n f).flt = d.flt := rfl
@[simp] theorem Dev.modTin_rings (f : Tin → Tin) : (d.modTin n f).rings = d.rings := rfl
@[simp] theorem Dev.modTin_imp (f : Tin → Tin) : (d.modTin n f).imp = d.imp := rfl
@[simp] theorem Dev.modTin_ing (f : Tin → Tin) : (d.modTin n f).ing = d.ing := rfl
@[simp] theorem Dev.modTin_codec (f : Tin → Tin) : (d.modTin n f).codec = d.codec := rfl
@[simp] theorem Dev.modTin_scr (f : Tin → Tin) : (d.modTin n f).scr = d.scr := rfl
@[simp] theorem Dev.modTin_noz (f : Tin → Tin) : (d.modTin n f).noz = d.noz := rfl
@[simp] theorem Dev.modTin_fire (f : Tin → Tin) : (d.modTin n f).fire = d.fire := rfl
@[simp] theorem Dev.modTin_hl (f : Tin → Tin) : (d.modTin n f).hl = d.hl := rfl
@[simp] theorem Dev.modTin_sched (f : Tin → Tin) : (d.modTin n f).sched = d.sched := rfl
@[simp] theorem Dev.modTin_mot (f : Tin → Tin) : (d.modTin n f).mot = d.mot := rfl
@[simp] theorem Dev.modTin_bl (f : Tin → Tin) : (d.modTin n f).bl = d.bl := rfl
@[simp] theorem Dev.modTin_ddr (f : Tin → Tin) : (d.modTin n f).ddr = d.ddr := rfl
@[simp] theorem Dev.modTin_banks (f : Tin → Tin) : (d.modTin n f).banks = d.banks := rfl
@[simp] theorem Dev.modTin_wear (f : Tin → Tin) : (d.modTin n f).wear = d.wear := rfl
@[simp] theorem Dev.modTin_diag (f : Tin → Tin) : (d.modTin n f).diag = d.diag := rfl
@[simp] theorem Dev.modTin_out (f : Tin → Tin) : (d.modTin n f).out = d.out := rfl
@[simp] theorem Dev.modTin_free (f : Tin → Tin) : (d.modTin n f).free = d.free := rfl
@[simp] theorem Dev.tin_modTin (f : Tin → Tin) : (d.modTin n f).tin n = f (d.tin n) := Tab.get_set_same ..
theorem Dev.tin_modTin_ne (f : Tin → Tin) (h : k ≠ n) : (d.modTin n f).tin k = d.tin k := Tab.get_set_ne _ _ _ h _

/-! ### modTout -/

@[simp] theorem Dev.modTout_sys (f : Tout → Tout) : (d.modTout n f).sys = d.sys := rfl
@[simp] theorem Dev.modTout_pwr (f : Tout → Tout) : (d.modTout n f).pwr = d.pwr := rfl
@[simp] theorem Dev.modTout_clk (f : Tout → Tout) : (d.modTout n f).clk = d.clk := rfl
@[simp] theorem Dev.modTout_flt (f : Tout → Tout) : (d.modTout n f).flt = d.flt := rfl
@[simp] theorem Dev.modTout_rings (f : Tout → Tout) : (d.modTout n f).rings = d.rings := rfl
@[simp] theorem Dev.modTout_imp (f : Tout → Tout) : (d.modTout n f).imp = d.imp := rfl
@[simp] theorem Dev.modTout_ing (f : Tout → Tout) : (d.modTout n f).ing = d.ing := rfl
@[simp] theorem Dev.modTout_codec (f : Tout → Tout) : (d.modTout n f).codec = d.codec := rfl
@[simp] theorem Dev.modTout_scr (f : Tout → Tout) : (d.modTout n f).scr = d.scr := rfl
@[simp] theorem Dev.modTout_noz (f : Tout → Tout) : (d.modTout n f).noz = d.noz := rfl
@[simp] theorem Dev.modTout_fire (f : Tout → Tout) : (d.modTout n f).fire = d.fire := rfl
@[simp] theorem Dev.modTout_hl (f : Tout → Tout) : (d.modTout n f).hl = d.hl := rfl
@[simp] theorem Dev.modTout_sched (f : Tout → Tout) : (d.modTout n f).sched = d.sched := rfl
@[simp] theorem Dev.modTout_mot (f : Tout → Tout) : (d.modTout n f).mot = d.mot := rfl
@[simp] theorem Dev.modTout_bl (f : Tout → Tout) : (d.modTout n f).bl = d.bl := rfl
@[simp] theorem Dev.modTout_ddr (f : Tout → Tout) : (d.modTout n f).ddr = d.ddr := rfl
@[simp] theorem Dev.modTout_banks (f : Tout → Tout) : (d.modTout n f).banks = d.banks := rfl
@[simp] theorem Dev.modTout_wear (f : Tout → Tout) : (d.modTout n f).wear = d.wear := rfl
@[simp] theorem Dev.modTout_diag (f : Tout → Tout) : (d.modTout n f).diag = d.diag := rfl
@[simp] theorem Dev.modTout_out (f : Tout → Tout) : (d.modTout n f).out = d.out := rfl
@[simp] theorem Dev.modTout_free (f : Tout → Tout) : (d.modTout n f).free = d.free := rfl
@[simp] theorem Dev.tout_modTout (f : Tout → Tout) : (d.modTout n f).tout n = f (d.tout n) := Tab.get_set_same ..
theorem Dev.tout_modTout_ne (f : Tout → Tout) (h : k ≠ n) : (d.modTout n f).tout k = d.tout k := Tab.get_set_ne _ _ _ h _

/-! ### modEth -/

@[simp] theorem Dev.modEth_sys (f : EthPort → EthPort) : (d.modEth n f).sys = d.sys := rfl
@[simp] theorem Dev.modEth_pwr (f : EthPort → EthPort) : (d.modEth n f).pwr = d.pwr := rfl
@[simp] theorem Dev.modEth_clk (f : EthPort → EthPort) : (d.modEth n f).clk = d.clk := rfl
@[simp] theorem Dev.modEth_flt (f : EthPort → EthPort) : (d.modEth n f).flt = d.flt := rfl
@[simp] theorem Dev.modEth_rings (f : EthPort → EthPort) : (d.modEth n f).rings = d.rings := rfl
@[simp] theorem Dev.modEth_imp (f : EthPort → EthPort) : (d.modEth n f).imp = d.imp := rfl
@[simp] theorem Dev.modEth_ing (f : EthPort → EthPort) : (d.modEth n f).ing = d.ing := rfl
@[simp] theorem Dev.modEth_codec (f : EthPort → EthPort) : (d.modEth n f).codec = d.codec := rfl
@[simp] theorem Dev.modEth_scr (f : EthPort → EthPort) : (d.modEth n f).scr = d.scr := rfl
@[simp] theorem Dev.modEth_noz (f : EthPort → EthPort) : (d.modEth n f).noz = d.noz := rfl
@[simp] theorem Dev.modEth_fire (f : EthPort → EthPort) : (d.modEth n f).fire = d.fire := rfl
@[simp] theorem Dev.modEth_hl (f : EthPort → EthPort) : (d.modEth n f).hl = d.hl := rfl
@[simp] theorem Dev.modEth_sched (f : EthPort → EthPort) : (d.modEth n f).sched = d.sched := rfl
@[simp] theorem Dev.modEth_mot (f : EthPort → EthPort) : (d.modEth n f).mot = d.mot := rfl
@[simp] theorem Dev.modEth_bl (f : EthPort → EthPort) : (d.modEth n f).bl = d.bl := rfl
@[simp] theorem Dev.modEth_ddr (f : EthPort → EthPort) : (d.modEth n f).ddr = d.ddr := rfl
@[simp] theorem Dev.modEth_banks (f : EthPort → EthPort) : (d.modEth n f).banks = d.banks := rfl
@[simp] theorem Dev.modEth_wear (f : EthPort → EthPort) : (d.modEth n f).wear = d.wear := rfl
@[simp] theorem Dev.modEth_diag (f : EthPort → EthPort) : (d.modEth n f).diag = d.diag := rfl
@[simp] theorem Dev.modEth_out (f : EthPort → EthPort) : (d.modEth n f).out = d.out := rfl
@[simp] theorem Dev.modEth_free (f : EthPort → EthPort) : (d.modEth n f).free = d.free := rfl
@[simp] theorem Dev.eth_modEth (f : EthPort → EthPort) : (d.modEth n f).eth n = f (d.eth n) := Tab.get_set_same ..
theorem Dev.eth_modEth_ne (f : EthPort → EthPort) (h : k ≠ n) : (d.modEth n f).eth k = d.eth k := Tab.get_set_ne _ _ _ h _

/-! ### modAxis -/

@[simp] theorem Dev.modAxis_sys (f : Axis → Axis) : (d.modAxis n f).sys = d.sys := rfl
@[simp] theorem Dev.modAxis_pwr (f : Axis → Axis) : (d.modAxis n f).pwr = d.pwr := rfl
@[simp] theorem Dev.modAxis_clk (f : Axis → Axis) : (d.modAxis n f).clk = d.clk := rfl
@[simp] theorem Dev.modAxis_flt (f : Axis → Axis) : (d.modAxis n f).flt = d.flt := rfl
@[simp] theorem Dev.modAxis_rings (f : Axis → Axis) : (d.modAxis n f).rings = d.rings := rfl
@[simp] theorem Dev.modAxis_imp (f : Axis → Axis) : (d.modAxis n f).imp = d.imp := rfl
@[simp] theorem Dev.modAxis_ing (f : Axis → Axis) : (d.modAxis n f).ing = d.ing := rfl
@[simp] theorem Dev.modAxis_codec (f : Axis → Axis) : (d.modAxis n f).codec = d.codec := rfl
@[simp] theorem Dev.modAxis_scr (f : Axis → Axis) : (d.modAxis n f).scr = d.scr := rfl
@[simp] theorem Dev.modAxis_noz (f : Axis → Axis) : (d.modAxis n f).noz = d.noz := rfl
@[simp] theorem Dev.modAxis_fire (f : Axis → Axis) : (d.modAxis n f).fire = d.fire := rfl
@[simp] theorem Dev.modAxis_hl (f : Axis → Axis) : (d.modAxis n f).hl = d.hl := rfl
@[simp] theorem Dev.modAxis_sched (f : Axis → Axis) : (d.modAxis n f).sched = d.sched := rfl
@[simp] theorem Dev.modAxis_time (f : Axis → Axis) : (d.modAxis n f).time = d.time := rfl
@[simp] theorem Dev.modAxis_bl (f : Axis → Axis) : (d.modAxis n f).bl = d.bl := rfl
@[simp] theorem Dev.modAxis_ddr (f : Axis → Axis) : (d.modAxis n f).ddr = d.ddr := rfl
@[simp] theorem Dev.modAxis_banks (f : Axis → Axis) : (d.modAxis n f).banks = d.banks := rfl
@[simp] theorem Dev.modAxis_wear (f : Axis → Axis) : (d.modAxis n f).wear = d.wear := rfl
@[simp] theorem Dev.modAxis_diag (f : Axis → Axis) : (d.modAxis n f).diag = d.diag := rfl
@[simp] theorem Dev.modAxis_out (f : Axis → Axis) : (d.modAxis n f).out = d.out := rfl
@[simp] theorem Dev.modAxis_free (f : Axis → Axis) : (d.modAxis n f).free = d.free := rfl
@[simp] theorem Dev.axis_modAxis (f : Axis → Axis) : (d.modAxis n f).axis n = f (d.axis n) := Tab.get_set_same ..
theorem Dev.axis_modAxis_ne (f : Axis → Axis) (h : k ≠ n) : (d.modAxis n f).axis k = d.axis k := Tab.get_set_ne _ _ _ h _

/-! ### modFol -/

@[simp] theorem Dev.modFol_sys (f : Fol → Fol) : (d.modFol n f).sys = d.sys := rfl
@[simp] theorem Dev.modFol_pwr (f : Fol → Fol) : (d.modFol n f).pwr = d.pwr := rfl
@[simp] theorem Dev.modFol_clk (f : Fol → Fol) : (d.modFol n f).clk = d.clk := rfl
@[simp] theorem Dev.modFol_flt (f : Fol → Fol) : (d.modFol n f).flt = d.flt := rfl
@[simp] theorem Dev.modFol_rings (f : Fol → Fol) : (d.modFol n f).rings = d.rings := rfl
@[simp] theorem Dev.modFol_imp (f : Fol → Fol) : (d.modFol n f).imp = d.imp := rfl
@[simp] theorem Dev.modFol_ing (f : Fol → Fol) : (d.modFol n f).ing = d.ing := rfl
@[simp] theorem Dev.modFol_codec (f : Fol → Fol) : (d.modFol n f).codec = d.codec := rfl
@[simp] theorem Dev.modFol_scr (f : Fol → Fol) : (d.modFol n f).scr = d.scr := rfl
@[simp] theorem Dev.modFol_noz (f : Fol → Fol) : (d.modFol n f).noz = d.noz := rfl
@[simp] theorem Dev.modFol_fire (f : Fol → Fol) : (d.modFol n f).fire = d.fire := rfl
@[simp] theorem Dev.modFol_hl (f : Fol → Fol) : (d.modFol n f).hl = d.hl := rfl
@[simp] theorem Dev.modFol_sched (f : Fol → Fol) : (d.modFol n f).sched = d.sched := rfl
@[simp] theorem Dev.modFol_time (f : Fol → Fol) : (d.modFol n f).time = d.time := rfl
@[simp] theorem Dev.modFol_bl (f : Fol → Fol) : (d.modFol n f).bl = d.bl := rfl
@[simp] theorem Dev.modFol_ddr (f : Fol → Fol) : (d.modFol n f).ddr = d.ddr := rfl
@[simp] theorem Dev.modFol_banks (f : Fol → Fol) : (d.modFol n f).banks = d.banks := rfl
@[simp] theorem Dev.modFol_wear (f : Fol → Fol) : (d.modFol n f).wear = d.wear := rfl
@[simp] theorem Dev.modFol_diag (f : Fol → Fol) : (d.modFol n f).diag = d.diag := rfl
@[simp] theorem Dev.modFol_out (f : Fol → Fol) : (d.modFol n f).out = d.out := rfl
@[simp] theorem Dev.modFol_free (f : Fol → Fol) : (d.modFol n f).free = d.free := rfl
@[simp] theorem Dev.fol_modFol (f : Fol → Fol) : (d.modFol n f).fol n = f (d.fol n) := Tab.get_set_same ..
theorem Dev.fol_modFol_ne (f : Fol → Fol) (h : k ≠ n) : (d.modFol n f).fol k = d.fol k := Tab.get_set_ne _ _ _ h _

/-! ### modBch -/

@[simp] theorem Dev.modBch_sys (f : BlCh → BlCh) : (d.modBch n f).sys = d.sys := rfl
@[simp] theorem Dev.modBch_pwr (f : BlCh → BlCh) : (d.modBch n f).pwr = d.pwr := rfl
@[simp] theorem Dev.modBch_clk (f : BlCh → BlCh) : (d.modBch n f).clk = d.clk := rfl
@[simp] theorem Dev.modBch_flt (f : BlCh → BlCh) : (d.modBch n f).flt = d.flt := rfl
@[simp] theorem Dev.modBch_rings (f : BlCh → BlCh) : (d.modBch n f).rings = d.rings := rfl
@[simp] theorem Dev.modBch_imp (f : BlCh → BlCh) : (d.modBch n f).imp = d.imp := rfl
@[simp] theorem Dev.modBch_ing (f : BlCh → BlCh) : (d.modBch n f).ing = d.ing := rfl
@[simp] theorem Dev.modBch_codec (f : BlCh → BlCh) : (d.modBch n f).codec = d.codec := rfl
@[simp] theorem Dev.modBch_scr (f : BlCh → BlCh) : (d.modBch n f).scr = d.scr := rfl
@[simp] theorem Dev.modBch_noz (f : BlCh → BlCh) : (d.modBch n f).noz = d.noz := rfl
@[simp] theorem Dev.modBch_fire (f : BlCh → BlCh) : (d.modBch n f).fire = d.fire := rfl
@[simp] theorem Dev.modBch_hl (f : BlCh → BlCh) : (d.modBch n f).hl = d.hl := rfl
@[simp] theorem Dev.modBch_sched (f : BlCh → BlCh) : (d.modBch n f).sched = d.sched := rfl
@[simp] theorem Dev.modBch_time (f : BlCh → BlCh) : (d.modBch n f).time = d.time := rfl
@[simp] theorem Dev.modBch_mot (f : BlCh → BlCh) : (d.modBch n f).mot = d.mot := rfl
@[simp] theorem Dev.modBch_ddr (f : BlCh → BlCh) : (d.modBch n f).ddr = d.ddr := rfl
@[simp] theorem Dev.modBch_banks (f : BlCh → BlCh) : (d.modBch n f).banks = d.banks := rfl
@[simp] theorem Dev.modBch_wear (f : BlCh → BlCh) : (d.modBch n f).wear = d.wear := rfl
@[simp] theorem Dev.modBch_diag (f : BlCh → BlCh) : (d.modBch n f).diag = d.diag := rfl
@[simp] theorem Dev.modBch_out (f : BlCh → BlCh) : (d.modBch n f).out = d.out := rfl
@[simp] theorem Dev.modBch_free (f : BlCh → BlCh) : (d.modBch n f).free = d.free := rfl
@[simp] theorem Dev.bch_modBch (f : BlCh → BlCh) : (d.modBch n f).bch n = f (d.bch n) := Tab.get_set_same ..
theorem Dev.bch_modBch_ne (f : BlCh → BlCh) (h : k ≠ n) : (d.modBch n f).bch k = d.bch k := Tab.get_set_ne _ _ _ h _

/-! ### modLp -/

@[simp] theorem Dev.modLp_sys (f : Loop → Loop) : (d.modLp n f).sys = d.sys := rfl
@[simp] theorem Dev.modLp_pwr (f : Loop → Loop) : (d.modLp n f).pwr = d.pwr := rfl
@[simp] theorem Dev.modLp_clk (f : Loop → Loop) : (d.modLp n f).clk = d.clk := rfl
@[simp] theorem Dev.modLp_flt (f : Loop → Loop) : (d.modLp n f).flt = d.flt := rfl
@[simp] theorem Dev.modLp_rings (f : Loop → Loop) : (d.modLp n f).rings = d.rings := rfl
@[simp] theorem Dev.modLp_imp (f : Loop → Loop) : (d.modLp n f).imp = d.imp := rfl
@[simp] theorem Dev.modLp_ing (f : Loop → Loop) : (d.modLp n f).ing = d.ing := rfl
@[simp] theorem Dev.modLp_codec (f : Loop → Loop) : (d.modLp n f).codec = d.codec := rfl
@[simp] theorem Dev.modLp_scr (f : Loop → Loop) : (d.modLp n f).scr = d.scr := rfl
@[simp] theorem Dev.modLp_noz (f : Loop → Loop) : (d.modLp n f).noz = d.noz := rfl
@[simp] theorem Dev.modLp_fire (f : Loop → Loop) : (d.modLp n f).fire = d.fire := rfl
@[simp] theorem Dev.modLp_hl (f : Loop → Loop) : (d.modLp n f).hl = d.hl := rfl
@[simp] theorem Dev.modLp_sched (f : Loop → Loop) : (d.modLp n f).sched = d.sched := rfl
@[simp] theorem Dev.modLp_time (f : Loop → Loop) : (d.modLp n f).time = d.time := rfl
@[simp] theorem Dev.modLp_mot (f : Loop → Loop) : (d.modLp n f).mot = d.mot := rfl
@[simp] theorem Dev.modLp_ddr (f : Loop → Loop) : (d.modLp n f).ddr = d.ddr := rfl
@[simp] theorem Dev.modLp_banks (f : Loop → Loop) : (d.modLp n f).banks = d.banks := rfl
@[simp] theorem Dev.modLp_wear (f : Loop → Loop) : (d.modLp n f).wear = d.wear := rfl
@[simp] theorem Dev.modLp_diag (f : Loop → Loop) : (d.modLp n f).diag = d.diag := rfl
@[simp] theorem Dev.modLp_out (f : Loop → Loop) : (d.modLp n f).out = d.out := rfl
@[simp] theorem Dev.modLp_free (f : Loop → Loop) : (d.modLp n f).free = d.free := rfl
@[simp] theorem Dev.lp_modLp (f : Loop → Loop) : (d.modLp n f).lp n = f (d.lp n) := Tab.get_set_same ..
theorem Dev.lp_modLp_ne (f : Loop → Loop) (h : k ≠ n) : (d.modLp n f).lp k = d.lp k := Tab.get_set_ne _ _ _ h _

/-! ### modDch -/

@[simp] theorem Dev.modDch_sys (f : DdrCh → DdrCh) : (d.modDch n f).sys = d.sys := rfl
@[simp] theorem Dev.modDch_pwr (f : DdrCh → DdrCh) : (d.modDch n f).pwr = d.pwr := rfl
@[simp] theorem Dev.modDch_clk (f : DdrCh → DdrCh) : (d.modDch n f).clk = d.clk := rfl
@[simp] theorem Dev.modDch_flt (f : DdrCh → DdrCh) : (d.modDch n f).flt = d.flt := rfl
@[simp] theorem Dev.modDch_rings (f : DdrCh → DdrCh) : (d.modDch n f).rings = d.rings := rfl
@[simp] theorem Dev.modDch_imp (f : DdrCh → DdrCh) : (d.modDch n f).imp = d.imp := rfl
@[simp] theorem Dev.modDch_ing (f : DdrCh → DdrCh) : (d.modDch n f).ing = d.ing := rfl
@[simp] theorem Dev.modDch_codec (f : DdrCh → DdrCh) : (d.modDch n f).codec = d.codec := rfl
@[simp] theorem Dev.modDch_scr (f : DdrCh → DdrCh) : (d.modDch n f).scr = d.scr := rfl
@[simp] theorem Dev.modDch_noz (f : DdrCh → DdrCh) : (d.modDch n f).noz = d.noz := rfl
@[simp] theorem Dev.modDch_fire (f : DdrCh → DdrCh) : (d.modDch n f).fire = d.fire := rfl
@[simp] theorem Dev.modDch_hl (f : DdrCh → DdrCh) : (d.modDch n f).hl = d.hl := rfl
@[simp] theorem Dev.modDch_sched (f : DdrCh → DdrCh) : (d.modDch n f).sched = d.sched := rfl
@[simp] theorem Dev.modDch_time (f : DdrCh → DdrCh) : (d.modDch n f).time = d.time := rfl
@[simp] theorem Dev.modDch_mot (f : DdrCh → DdrCh) : (d.modDch n f).mot = d.mot := rfl
@[simp] theorem Dev.modDch_bl (f : DdrCh → DdrCh) : (d.modDch n f).bl = d.bl := rfl
@[simp] theorem Dev.modDch_banks (f : DdrCh → DdrCh) : (d.modDch n f).banks = d.banks := rfl
@[simp] theorem Dev.modDch_wear (f : DdrCh → DdrCh) : (d.modDch n f).wear = d.wear := rfl
@[simp] theorem Dev.modDch_diag (f : DdrCh → DdrCh) : (d.modDch n f).diag = d.diag := rfl
@[simp] theorem Dev.modDch_out (f : DdrCh → DdrCh) : (d.modDch n f).out = d.out := rfl
@[simp] theorem Dev.modDch_free (f : DdrCh → DdrCh) : (d.modDch n f).free = d.free := rfl
@[simp] theorem Dev.dch_modDch (f : DdrCh → DdrCh) : (d.modDch n f).dch n = f (d.dch n) := Tab.get_set_same ..
theorem Dev.dch_modDch_ne (f : DdrCh → DdrCh) (h : k ≠ n) : (d.modDch n f).dch k = d.dch k := Tab.get_set_ne _ _ _ h _

/-! ### modWearInd -/

@[simp] theorem Dev.modWearInd_sys (f : WearInd → WearInd) : (d.modWearInd n f).sys = d.sys := rfl
@[simp] theorem Dev.modWearInd_pwr (f : WearInd → WearInd) : (d.modWearInd n f).pwr = d.pwr := rfl
@[simp] theorem Dev.modWearInd_clk (f : WearInd → WearInd) : (d.modWearInd n f).clk = d.clk := rfl
@[simp] theorem Dev.modWearInd_flt (f : WearInd → WearInd) : (d.modWearInd n f).flt = d.flt := rfl
@[simp] theorem Dev.modWearInd_rings (f : WearInd → WearInd) : (d.modWearInd n f).rings = d.rings := rfl
@[simp] theorem Dev.modWearInd_imp (f : WearInd → WearInd) : (d.modWearInd n f).imp = d.imp := rfl
@[simp] theorem Dev.modWearInd_ing (f : WearInd → WearInd) : (d.modWearInd n f).ing = d.ing := rfl
@[simp] theorem Dev.modWearInd_codec (f : WearInd → WearInd) : (d.modWearInd n f).codec = d.codec := rfl
@[simp] theorem Dev.modWearInd_scr (f : WearInd → WearInd) : (d.modWearInd n f).scr = d.scr := rfl
@[simp] theorem Dev.modWearInd_noz (f : WearInd → WearInd) : (d.modWearInd n f).noz = d.noz := rfl
@[simp] theorem Dev.modWearInd_fire (f : WearInd → WearInd) : (d.modWearInd n f).fire = d.fire := rfl
@[simp] theorem Dev.modWearInd_hl (f : WearInd → WearInd) : (d.modWearInd n f).hl = d.hl := rfl
@[simp] theorem Dev.modWearInd_sched (f : WearInd → WearInd) : (d.modWearInd n f).sched = d.sched := rfl
@[simp] theorem Dev.modWearInd_time (f : WearInd → WearInd) : (d.modWearInd n f).time = d.time := rfl
@[simp] theorem Dev.modWearInd_mot (f : WearInd → WearInd) : (d.modWearInd n f).mot = d.mot := rfl
@[simp] theorem Dev.modWearInd_bl (f : WearInd → WearInd) : (d.modWearInd n f).bl = d.bl := rfl
@[simp] theorem Dev.modWearInd_ddr (f : WearInd → WearInd) : (d.modWearInd n f).ddr = d.ddr := rfl
@[simp] theorem Dev.modWearInd_banks (f : WearInd → WearInd) : (d.modWearInd n f).banks = d.banks := rfl
@[simp] theorem Dev.modWearInd_diag (f : WearInd → WearInd) : (d.modWearInd n f).diag = d.diag := rfl
@[simp] theorem Dev.modWearInd_out (f : WearInd → WearInd) : (d.modWearInd n f).out = d.out := rfl
@[simp] theorem Dev.modWearInd_free (f : WearInd → WearInd) : (d.modWearInd n f).free = d.free := rfl
@[simp] theorem Dev.wearInd_modWearInd (f : WearInd → WearInd) : (d.modWearInd n f).wearInd n = f (d.wearInd n) := Tab.get_set_same ..
theorem Dev.wearInd_modWearInd_ne (f : WearInd → WearInd) (h : k ≠ n) : (d.modWearInd n f).wearInd k = d.wearInd k := Tab.get_set_ne _ _ _ h _

/-! ### modBank -/

@[simp] theorem Dev.modBank_sys (f : Bank → Bank) : (d.modBank n f).sys = d.sys := rfl
@[simp] theorem Dev.modBank_pwr (f : Bank → Bank) : (d.modBank n f).pwr = d.pwr := rfl
@[simp] theorem Dev.modBank_clk (f : Bank → Bank) : (d.modBank n f).clk = d.clk := rfl
@[simp] theorem Dev.modBank_flt (f : Bank → Bank) : (d.modBank n f).flt = d.flt := rfl
@[simp] theorem Dev.modBank_rings (f : Bank → Bank) : (d.modBank n f).rings = d.rings := rfl
@[simp] theorem Dev.modBank_imp (f : Bank → Bank) : (d.modBank n f).imp = d.imp := rfl
@[simp] theorem Dev.modBank_ing (f : Bank → Bank) : (d.modBank n f).ing = d.ing := rfl
@[simp] theorem Dev.modBank_codec (f : Bank → Bank) : (d.modBank n f).codec = d.codec := rfl
@[simp] theorem Dev.modBank_scr (f : Bank → Bank) : (d.modBank n f).scr = d.scr := rfl
@[simp] theorem Dev.modBank_noz (f : Bank → Bank) : (d.modBank n f).noz = d.noz := rfl
@[simp] theorem Dev.modBank_fire (f : Bank → Bank) : (d.modBank n f).fire = d.fire := rfl
@[simp] theorem Dev.modBank_hl (f : Bank → Bank) : (d.modBank n f).hl = d.hl := rfl
@[simp] theorem Dev.modBank_sched (f : Bank → Bank) : (d.modBank n f).sched = d.sched := rfl
@[simp] theorem Dev.modBank_time (f : Bank → Bank) : (d.modBank n f).time = d.time := rfl
@[simp] theorem Dev.modBank_mot (f : Bank → Bank) : (d.modBank n f).mot = d.mot := rfl
@[simp] theorem Dev.modBank_bl (f : Bank → Bank) : (d.modBank n f).bl = d.bl := rfl
@[simp] theorem Dev.modBank_ddr (f : Bank → Bank) : (d.modBank n f).ddr = d.ddr := rfl
@[simp] theorem Dev.modBank_wear (f : Bank → Bank) : (d.modBank n f).wear = d.wear := rfl
@[simp] theorem Dev.modBank_diag (f : Bank → Bank) : (d.modBank n f).diag = d.diag := rfl
@[simp] theorem Dev.modBank_out (f : Bank → Bank) : (d.modBank n f).out = d.out := rfl
@[simp] theorem Dev.modBank_free (f : Bank → Bank) : (d.modBank n f).free = d.free := rfl
@[simp] theorem Dev.bank_modBank (f : Bank → Bank) : (d.modBank n f).bank n = f (d.bank n) := Tab.get_set_same ..
theorem Dev.bank_modBank_ne (f : Bank → Bank) (h : k ≠ n) : (d.modBank n f).bank k = d.bank k := Tab.get_set_ne _ _ _ h _

/-! ### raise -/

@[simp] theorem Dev.raise_sys (x : Nat) : (d.raise n x).sys = d.sys := rfl
@[simp] theorem Dev.raise_pwr (x : Nat) : (d.raise n x).pwr = d.pwr := rfl
@[simp] theorem Dev.raise_clk (x : Nat) : (d.raise n x).clk = d.clk := rfl
@[simp] theorem Dev.raise_rings (x : Nat) : (d.raise n x).rings = d.rings := rfl
@[simp] theorem Dev.raise_imp (x : Nat) : (d.raise n x).imp = d.imp := rfl
@[simp] theorem Dev.raise_ing (x : Nat) : (d.raise n x).ing = d.ing := rfl
@[simp] theorem Dev.raise_codec (x : Nat) : (d.raise n x).codec = d.codec := rfl
@[simp] theorem Dev.raise_scr (x : Nat) : (d.raise n x).scr = d.scr := rfl
@[simp] theorem Dev.raise_noz (x : Nat) : (d.raise n x).noz = d.noz := rfl
@[simp] theorem Dev.raise_fire (x : Nat) : (d.raise n x).fire = d.fire := rfl
@[simp] theorem Dev.raise_hl (x : Nat) : (d.raise n x).hl = d.hl := rfl
@[simp] theorem Dev.raise_sched (x : Nat) : (d.raise n x).sched = d.sched := rfl
@[simp] theorem Dev.raise_time (x : Nat) : (d.raise n x).time = d.time := rfl
@[simp] theorem Dev.raise_mot (x : Nat) : (d.raise n x).mot = d.mot := rfl
@[simp] theorem Dev.raise_bl (x : Nat) : (d.raise n x).bl = d.bl := rfl
@[simp] theorem Dev.raise_ddr (x : Nat) : (d.raise n x).ddr = d.ddr := rfl
@[simp] theorem Dev.raise_banks (x : Nat) : (d.raise n x).banks = d.banks := rfl
@[simp] theorem Dev.raise_wear (x : Nat) : (d.raise n x).wear = d.wear := rfl
@[simp] theorem Dev.raise_diag (x : Nat) : (d.raise n x).diag = d.diag := rfl
@[simp] theorem Dev.raise_out (x : Nat) : (d.raise n x).out = d.out := rfl
@[simp] theorem Dev.raise_free (x : Nat) : (d.raise n x).free = d.free := rfl

/-! ### lower -/

@[simp] theorem Dev.lower_sys : (d.lower n).sys = d.sys := rfl
@[simp] theorem Dev.lower_pwr : (d.lower n).pwr = d.pwr := rfl
@[simp] theorem Dev.lower_clk : (d.lower n).clk = d.clk := rfl
@[simp] theorem Dev.lower_rings : (d.lower n).rings = d.rings := rfl
@[simp] theorem Dev.lower_imp : (d.lower n).imp = d.imp := rfl
@[simp] theorem Dev.lower_ing : (d.lower n).ing = d.ing := rfl
@[simp] theorem Dev.lower_codec : (d.lower n).codec = d.codec := rfl
@[simp] theorem Dev.lower_scr : (d.lower n).scr = d.scr := rfl
@[simp] theorem Dev.lower_noz : (d.lower n).noz = d.noz := rfl
@[simp] theorem Dev.lower_fire : (d.lower n).fire = d.fire := rfl
@[simp] theorem Dev.lower_hl : (d.lower n).hl = d.hl := rfl
@[simp] theorem Dev.lower_sched : (d.lower n).sched = d.sched := rfl
@[simp] theorem Dev.lower_time : (d.lower n).time = d.time := rfl
@[simp] theorem Dev.lower_mot : (d.lower n).mot = d.mot := rfl
@[simp] theorem Dev.lower_bl : (d.lower n).bl = d.bl := rfl
@[simp] theorem Dev.lower_ddr : (d.lower n).ddr = d.ddr := rfl
@[simp] theorem Dev.lower_banks : (d.lower n).banks = d.banks := rfl
@[simp] theorem Dev.lower_wear : (d.lower n).wear = d.wear := rfl
@[simp] theorem Dev.lower_diag : (d.lower n).diag = d.diag := rfl
@[simp] theorem Dev.lower_out : (d.lower n).out = d.out := rfl
@[simp] theorem Dev.lower_free : (d.lower n).free = d.free := rfl

/-! ### send -/

@[simp] theorem Dev.send_sys (o : Out) : (d.send o).sys = d.sys := rfl
@[simp] theorem Dev.send_pwr (o : Out) : (d.send o).pwr = d.pwr := rfl
@[simp] theorem Dev.send_clk (o : Out) : (d.send o).clk = d.clk := rfl
@[simp] theorem Dev.send_flt (o : Out) : (d.send o).flt = d.flt := rfl
@[simp] theorem Dev.send_rings (o : Out) : (d.send o).rings = d.rings := rfl
@[simp] theorem Dev.send_imp (o : Out) : (d.send o).imp = d.imp := rfl
@[simp] theorem Dev.send_ing (o : Out) : (d.send o).ing = d.ing := rfl
@[simp] theorem Dev.send_codec (o : Out) : (d.send o).codec = d.codec := rfl
@[simp] theorem Dev.send_scr (o : Out) : (d.send o).scr = d.scr := rfl
@[simp] theorem Dev.send_noz (o : Out) : (d.send o).noz = d.noz := rfl
@[simp] theorem Dev.send_fire (o : Out) : (d.send o).fire = d.fire := rfl
@[simp] theorem Dev.send_hl (o : Out) : (d.send o).hl = d.hl := rfl
@[simp] theorem Dev.send_sched (o : Out) : (d.send o).sched = d.sched := rfl
@[simp] theorem Dev.send_time (o : Out) : (d.send o).time = d.time := rfl
@[simp] theorem Dev.send_mot (o : Out) : (d.send o).mot = d.mot := rfl
@[simp] theorem Dev.send_bl (o : Out) : (d.send o).bl = d.bl := rfl
@[simp] theorem Dev.send_ddr (o : Out) : (d.send o).ddr = d.ddr := rfl
@[simp] theorem Dev.send_banks (o : Out) : (d.send o).banks = d.banks := rfl
@[simp] theorem Dev.send_wear (o : Out) : (d.send o).wear = d.wear := rfl
@[simp] theorem Dev.send_diag (o : Out) : (d.send o).diag = d.diag := rfl
@[simp] theorem Dev.send_free (o : Out) : (d.send o).free = d.free := rfl

/-! ### pin -/

@[simp] theorem Dev.pin_sys (p : Pin) (b : Bool) : (d.pin p n b).sys = d.sys := rfl
@[simp] theorem Dev.pin_pwr (p : Pin) (b : Bool) : (d.pin p n b).pwr = d.pwr := rfl
@[simp] theorem Dev.pin_clk (p : Pin) (b : Bool) : (d.pin p n b).clk = d.clk := rfl
@[simp] theorem Dev.pin_flt (p : Pin) (b : Bool) : (d.pin p n b).flt = d.flt := rfl
@[simp] theorem Dev.pin_rings (p : Pin) (b : Bool) : (d.pin p n b).rings = d.rings := rfl
@[simp] theorem Dev.pin_imp (p : Pin) (b : Bool) : (d.pin p n b).imp = d.imp := rfl
@[simp] theorem Dev.pin_ing (p : Pin) (b : Bool) : (d.pin p n b).ing = d.ing := rfl
@[simp] theorem Dev.pin_codec (p : Pin) (b : Bool) : (d.pin p n b).codec = d.codec := rfl
@[simp] theorem Dev.pin_scr (p : Pin) (b : Bool) : (d.pin p n b).scr = d.scr := rfl
@[simp] theorem Dev.pin_noz (p : Pin) (b : Bool) : (d.pin p n b).noz = d.noz := rfl
@[simp] theorem Dev.pin_fire (p : Pin) (b : Bool) : (d.pin p n b).fire = d.fire := rfl
@[simp] theorem Dev.pin_hl (p : Pin) (b : Bool) : (d.pin p n b).hl = d.hl := rfl
@[simp] theorem Dev.pin_sched (p : Pin) (b : Bool) : (d.pin p n b).sched = d.sched := rfl
@[simp] theorem Dev.pin_time (p : Pin) (b : Bool) : (d.pin p n b).time = d.time := rfl
@[simp] theorem Dev.pin_mot (p : Pin) (b : Bool) : (d.pin p n b).mot = d.mot := rfl
@[simp] theorem Dev.pin_bl (p : Pin) (b : Bool) : (d.pin p n b).bl = d.bl := rfl
@[simp] theorem Dev.pin_ddr (p : Pin) (b : Bool) : (d.pin p n b).ddr = d.ddr := rfl
@[simp] theorem Dev.pin_banks (p : Pin) (b : Bool) : (d.pin p n b).banks = d.banks := rfl
@[simp] theorem Dev.pin_wear (p : Pin) (b : Bool) : (d.pin p n b).wear = d.wear := rfl
@[simp] theorem Dev.pin_diag (p : Pin) (b : Bool) : (d.pin p n b).diag = d.diag := rfl
@[simp] theorem Dev.pin_free (p : Pin) (b : Bool) : (d.pin p n b).free = d.free := rfl

/-! ### msix -/

@[simp] theorem Dev.msix_pwr : (d.msix n).pwr = d.pwr := rfl
@[simp] theorem Dev.msix_clk : (d.msix n).clk = d.clk := rfl
@[simp] theorem Dev.msix_flt : (d.msix n).flt = d.flt := rfl
@[simp] theorem Dev.msix_rings : (d.msix n).rings = d.rings := rfl
@[simp] theorem Dev.msix_imp : (d.msix n).imp = d.imp := rfl
@[simp] theorem Dev.msix_ing : (d.msix n).ing = d.ing := rfl
@[simp] theorem Dev.msix_codec : (d.msix n).codec = d.codec := rfl
@[simp] theorem Dev.msix_scr : (d.msix n).scr = d.scr := rfl
@[simp] theorem Dev.msix_noz : (d.msix n).noz = d.noz := rfl
@[simp] theorem Dev.msix_fire : (d.msix n).fire = d.fire := rfl
@[simp] theorem Dev.msix_hl : (d.msix n).hl = d.hl := rfl
@[simp] theorem Dev.msix_sched : (d.msix n).sched = d.sched := rfl
@[simp] theorem Dev.msix_time : (d.msix n).time = d.time := rfl
@[simp] theorem Dev.msix_mot : (d.msix n).mot = d.mot := rfl
@[simp] theorem Dev.msix_bl : (d.msix n).bl = d.bl := rfl
@[simp] theorem Dev.msix_ddr : (d.msix n).ddr = d.ddr := rfl
@[simp] theorem Dev.msix_banks : (d.msix n).banks = d.banks := rfl
@[simp] theorem Dev.msix_wear : (d.msix n).wear = d.wear := rfl
@[simp] theorem Dev.msix_diag : (d.msix n).diag = d.diag := rfl
@[simp] theorem Dev.msix_free : (d.msix n).free = d.free := rfl

/-! ### The state -/

@[simp] theorem State.onDev_pending (s : State) (f : Dev → Dev) : (s.onDev f).pending = s.pending := rfl
@[simp] theorem State.onDev_mem (s : State) (f : Dev → Dev) : (s.onDev f).mem = s.mem := rfl
@[simp] theorem State.onDev_dev (s : State) (f : Dev → Dev) : (s.onDev f).dev = f s.dev := rfl

end Sys2Proof.Machine
end

