-- ==== Sys2Proof/Laws/Rings.lean ====
section
/-! SUPPORT. What completing a packet can do: it changes the rings, the mailbox, SYS_IRQ_PENDING and the trace, and nothing else;
its completion is in the trace. -/

namespace Sys2Proof.Laws

open Machine

/-- d' differs from d only in what completing a packet may change, and its trace only grew. -/
def RingStep (d d' : Dev) : Prop := d' = Dev.ringed d d' ∧ ∃ pre, d'.out = pre ++ d.out

theorem RingStep.refl (d : Dev) : RingStep d d := ⟨rfl, [], rfl⟩

theorem RingStep.trans {a b c : Dev} (h : RingStep a b) (k : RingStep b c) : RingStep a c := by
  obtain ⟨h1, p, h2⟩ := h
  obtain ⟨k1, q, k2⟩ := k
  refine ⟨?_, q ++ p, by rw [k2, h2, List.append_assoc]⟩
  rw [k1, h1]; rfl

theorem ringStep_rings (d : Dev) (x) : RingStep d { d with rings := x } := ⟨rfl, [], rfl⟩

theorem ringStep_modRing (d : Dev) (n f) : RingStep d (d.modRing n f) := ⟨rfl, [], rfl⟩

theorem ringStep_send (d : Dev) (o) : RingStep d (d.send o) := ⟨rfl, [o], rfl⟩

theorem ringStep_msix (d : Dev) (v) : RingStep d (d.msix v) := ⟨rfl, [_], rfl⟩

theorem ringStep_mbox (d : Dev) (m) : RingStep d { d with sys := { d.sys with mbox := m } } := ⟨rfl, [], rfl⟩

theorem ringStep_forL {α : Type} (l : List α) (f : α → Dev → Dev) (hf : ∀ x d, RingStep d (f x d)) (d : Dev) :
    RingStep d (forL l f d) := by
  induction l generalizing d with
  | nil => exact .refl d
  | cons x t ih => exact (hf x d).trans (ih (f x d))

theorem ringStep_ringIrq (d : Dev) (n b) : RingStep d (d.ringIrq n b) := by
  unfold Dev.ringIrq
  dsimp only
  generalize (if (d.ring n).irqCount = 0 then 256 else (d.ring n).irqCount) = c
  split
  · exact (ringStep_modRing _ _ _).trans (ringStep_msix _ _)
  · exact ringStep_modRing _ _ _

theorem ringStep_sendEthCpl (d : Dev) (n c) : RingStep d (d.sendEthCpl n c) := by
  unfold Dev.sendEthCpl Dev.when
  dsimp only
  split
  · exact (ringStep_modRing _ _ _).trans (ringStep_send _ _)
  · exact ringStep_modRing _ _ _

theorem ringStep_dropBulk (d : Dev) (ref) : RingStep d (d.dropBulk ref) := ⟨rfl, [], rfl⟩

theorem ringStep_writeCpl (d : Dev) (p st a b) : RingStep d (d.writeCpl p st a b) := by
  unfold Dev.writeCpl
  dsimp only
  generalize he : (d.modRing p.ring _).dropBulk p.ref = e
  have h : RingStep d e := he ▸ (ringStep_modRing _ _ _).trans (ringStep_dropBulk _ _)
  refine h.trans ?_
  split
  · split
    · split
      · exact ringStep_rings _ _
      · split
        · exact ringStep_sendEthCpl _ _ _
        · exact .refl _
    · exact ringStep_sendEthCpl _ _ _
  · generalize he' : Dev.send _ e = e'
    refine (he' ▸ ringStep_send e _ : RingStep e e').trans ?_
    split
    · exact (ringStep_mbox e' _).trans (ringStep_ringIrq _ _ _)
    · exact ringStep_ringIrq _ _ _

theorem ringStep_completeWindow (d : Dev) (p st) : RingStep d (d.completeWindow p st) := ringStep_writeCpl _ _ _ _ _

theorem ringStep_startPacket (d : Dev) (n p) : RingStep d (d.startPacket n p) := by
  unfold Dev.startPacket
  extract_lets r fail add
  have hfail : ∀ st, RingStep d (fail st d) := fun st =>
    (ringStep_writeCpl _ _ _ _ _).trans (ringStep_modRing _ _ _)
  have hadd : ∀ q ph, RingStep d (add q ph d) := fun q ph => ringStep_rings _ _
  clear_value fail add
  split
  · exact hadd _ _
  split
  · exact ringStep_completeWindow _ _ _
  split
  · exact hfail _
  split
  · exact hfail _
  split
  · exact hfail _
  split
  · exact hfail _
  split
  · exact hfail _
  split
  · exact hfail _
  split
  · exact hfail _
  split
  · split
    · exact hadd _ _
    · unfold Dev.when
      split
      · exact (hadd _ _).trans (ringStep_send _ _)
      · exact hadd _ _
  · exact hadd _ _

theorem ringStep_drain (n fuel : Nat) (d : Dev) : RingStep d (Dev.drain n fuel d) := by
  induction fuel generalizing d with
  | zero => exact .refl d
  | succ k ih =>
    unfold Dev.drain
    dsimp only
    split
    · split
      · exact ((ringStep_modRing _ _ _).trans (ringStep_startPacket _ _ _)).trans (ih _)
      · exact ringStep_modRing _ _ _
    · split
      · exact .refl d
      · exact (ringStep_modRing _ _ _).trans (ih _)

theorem ringStep_endDuplicates (d : Dev) (ref) : RingStep d (d.endDuplicates ref) :=
  (ringStep_rings _ _).trans (ringStep_forL _ _ (fun _ _ => ringStep_completeWindow _ _ _) _)

theorem ringStep_settleRing (d : Dev) (n) : RingStep d (d.settleRing n) := by
  unfold Dev.settleRing
  split
  · exact ringStep_modRing _ _ _
  · exact .refl d

/-- Completing a packet changes the rings, the mailbox, SYS_IRQ_PENDING and the trace, and nothing else. -/
theorem ringStep_complete (d : Dev) (ref st a b) : RingStep d (d.complete ref st a b) := by
  unfold Dev.complete
  split
  · exact .refl d
  · rename_i p _
    extract_lets r0 d1 d2 d3 d4
    have h1 : RingStep d d1 := ringStep_rings _ _
    have h2 : RingStep d1 d2 := (ringStep_writeCpl _ _ _ _ _).trans (ringStep_modRing _ _ _)
    have h3 : RingStep d2 d3 := ringStep_endDuplicates _ _
    have h4 : RingStep d3 d4 := by
      simp only [d4]
      split
      · exact ringStep_drain _ _ _
      · exact .refl d3
    exact (((h1.trans h2).trans h3).trans h4).trans (ringStep_settleRing _ _)

/-- Completing a packet, as an equation that a rewrite can use once. -/
theorem complete_frame (d : Dev) (ref st a b) : d.complete ref st a b = Dev.ringed d (d.complete ref st a b) :=
  (ringStep_complete d ref st a b).1

/-- The projections of the device a completion leaves alone. -/
@[simp] theorem complete_flt (d : Dev) (ref st a b) : (d.complete ref st a b).flt = d.flt := by rw [complete_frame]; rfl

theorem forL_complete_frame (l : List PktRef) (st : Status) (d : Dev) : RingStep d (d.completeAll l st) :=
  ringStep_forL _ _ (fun _ _ => ringStep_complete _ _ _ _ _) _

/-- Writing a completion of a packet of a ring that is not an Ethernet ring puts it in the trace. -/
theorem writeCpl_out (d : Dev) (p : Packet) (st : Status) (a b : Nat) (h : (d.ring p.ring).source ≠ 1) :
    ∃ pre, (d.writeCpl p st a b).out = pre ++ d.out ∧
      ∃ c : Cpl, Out.cpl c ∈ pre ∧ c.ring = p.ring ∧ c.seq = p.seq ∧ c.status = st ∧ c.result = a ∧ c.aux = b := by
  unfold Dev.writeCpl
  dsimp only
  generalize he : (d.modRing p.ring _).dropBulk p.ref = e
  have h0 : e.out = d.out := he ▸ rfl
  rw [if_neg h]
  generalize hc : Cpl.mk _ _ _ _ _ _ _ _ = c
  generalize he' : Dev.send (Out.cpl c) e = e'
  have h1 : e'.out = Out.cpl c :: d.out := by rw [← he', ← h0]; rfl
  have h2 : ∀ x : Dev, x.out = e'.out → RingStep x (x.ringIrq p.ring p.irq) → ∃ pre, (x.ringIrq p.ring p.irq).out = pre ++ d.out ∧
      ∃ c : Cpl, Out.cpl c ∈ pre ∧ c.ring = p.ring ∧ c.seq = p.seq ∧ c.status = st ∧ c.result = a ∧ c.aux = b := by
    intro x hx hs
    obtain ⟨-, pre, hp⟩ := hs
    refine ⟨pre ++ [Out.cpl c], by rw [hp, hx, h1, List.append_assoc]; rfl, c, by simp, ?_⟩
    subst hc
    exact ⟨rfl, rfl, rfl, rfl, rfl⟩
  split
  · exact h2 _ rfl (ringStep_ringIrq _ _ _)
  · exact h2 _ rfl (ringStep_ringIrq _ _ _)

/-- A packet in progress that completes on a ring that is not an Ethernet ring has its completion in the trace. -/
theorem complete_out (d : Dev) (p : Packet) (st : Status) (a b : Nat) (hp : d.packet? p.ref = some p)
    (h : (d.ring p.ring).source ≠ 1) :
    ∃ pre, (d.complete p.ref st a b).out = pre ++ d.out ∧
      ∃ c : Cpl, Out.cpl c ∈ pre ∧ c.ring = p.ring ∧ c.seq = p.seq ∧ c.status = st ∧ c.result = a ∧ c.aux = b := by
  unfold Dev.complete
  rw [hp]
  dsimp only
  generalize hd1 : ({ d with rings := _ } : Dev) = d1
  have ho : d1.out = d.out := hd1 ▸ rfl
  have hr : (d1.ring p.ring).source ≠ 1 := by rw [← hd1]; exact h
  obtain ⟨pre, h1, c, hc, hf⟩ := writeCpl_out d1 p st a b hr
  generalize hd2 : ((d1.writeCpl p st a b).modRing p.ref.1 _) = d2
  have h2 : d2.out = pre ++ d.out := by rw [← hd2, ← ho, ← h1]; rfl
  obtain ⟨-, pre3, h3⟩ := ringStep_endDuplicates d2 p.ref
  generalize d2.endDuplicates p.ref = d3 at h3 ⊢
  have h4 : ∀ x, RingStep d3 x → ∃ pre, (x.settleRing p.ref.1).out = pre ++ d.out ∧
      ∃ c : Cpl, Out.cpl c ∈ pre ∧ c.ring = p.ring ∧ c.seq = p.seq ∧ c.status = st ∧ c.result = a ∧ c.aux = b := by
    intro x hx
    obtain ⟨-, q, hq⟩ := hx.trans (ringStep_settleRing x p.ref.1)
    exact ⟨q ++ pre3 ++ pre, by rw [hq, h3, h2]; simp, c, by simp [hc], hf⟩
  split
  · exact h4 _ (ringStep_drain _ _ _)
  · exact h4 _ (.refl _)

/-! ## The collector -/

/-- Where nothing is posted the collector does nothing. -/
theorem settle_of_settled {s : State} (h : Settled s) : s.settle = s := by
  unfold State.settle State.onDev Dev.settle
  rw [if_pos (by rw [h]; rfl)]

/-- After the collector has acted nothing is posted. -/
theorem dev_settle_todo (n : Nat) (d : Dev) : (Dev.settle n d).flt.todo = [] := by
  induction n generalizing d with
  | zero => rfl
  | succ k ih =>
    unfold Dev.settle
    split
    · rename_i h; exact List.isEmpty_iff.mp h
    · exact ih _

theorem settled_settle (s : State) : Settled s.settle := dev_settle_todo 64 s.dev

/-- The collector takes one posted event, which posts nothing more. -/
theorem dev_settle_one {d : Dev} {e : Bool × Nat × Nat} (h : d.flt.todo = [])
    (hk : (d.collect e).flt.todo = []) : Dev.settle 64 { d with flt := { d.flt with todo := d.flt.todo ++ [e] } } = d.collect e := by
  have hd : ({ d with flt := { d.flt with todo := [] } } : Dev) = d := by
    cases d with | mk a b c f => cases f; simp_all
  rw [Dev.settle.eq_2, h]
  simp only [List.nil_append, List.isEmpty_cons, Bool.false_eq_true, if_false]
  have hl : ∀ q : Bool × Nat × Nat → Bool, [e].filter (fun x => !q x) ++ [e].filter q = [e] := by
    intro q; cases hq : q e <;> simp [hq]
  rw [hl, hd]
  show Dev.settle 63 (d.collect e) = _
  rw [Dev.settle.eq_2, if_pos (by rw [hk]; rfl)]

theorem dev_settle_raise {d : Dev} {n x : Nat} (h : d.flt.todo = []) (hk : (d.raiseNow n x).flt.todo = []) :
    Dev.settle 64 (d.raise n x) = d.raiseNow n x := dev_settle_one (e := (true, n, x)) h hk

theorem dev_settle_lower {d : Dev} {n : Nat} (h : d.flt.todo = []) (hk : (d.lowerNow n).flt.todo = []) :
    Dev.settle 64 (d.lower n) = d.lowerNow n := dev_settle_one (e := (false, n, 0)) h hk

@[simp] theorem logEvent_src (d : Dev) (a b n : Nat) : (d.logEvent a b).src n = d.src n := rfl

@[simp] theorem logEvent_todo (d : Dev) (a b : Nat) : (d.logEvent a b).flt.todo = d.flt.todo := rfl

@[simp] theorem modSrc_todo (d : Dev) (n : Nat) (f) : (d.modSrc n f).flt.todo = d.flt.todo := rfl

/-- A reaction of IGNORE or LOG does nothing. -/
theorem react_quietly {d : Dev} {n : Nat} (hr : (d.src n).reaction = .ignore ∨ (d.src n).reaction = .log) :
    d.react n = d := by
  unfold Dev.react
  rcases hr with hr | hr <;> simp only [hr]

/-- A source with a reaction of IGNORE or LOG that comes to count as raised. -/
theorem activate_quietly {d : Dev} {n x : Nat} (hr : (d.src n).reaction = .ignore ∨ (d.src n).reaction = .log) :
    d.activate n x =
      let d' := d.modSrc n (fun y => { y with
        raises := satInc 16 y.raises, detail := x, st := if isLevel n || y.reaction = .soft then .active else .quiet })
      if (d.src n).reaction = .ignore then d' else d'.logEvent n 1 := by
  unfold Dev.activate
  generalize hd' : d.modSrc n _ = d'
  have h : (d'.src n).reaction = (d.src n).reaction := by rw [← hd', Dev.src_modSrc]
  dsimp only
  rw [h]
  apply react_quietly
  split
  · rw [h]; exact hr
  · rw [logEvent_src, h]; exact hr

/-- Everything a source with a reaction of IGNORE or LOG that comes to count as raised can do. -/
theorem activate_spec {d : Dev} {n x : Nat} (hr : (d.src n).reaction = .ignore ∨ (d.src n).reaction = .log) :
    ((d.activate n x).src n = { d.src n with
      raises := satInc 16 (d.src n).raises, detail := x, st := if isLevel n then .active else .quiet }) ∧
    (d.activate n x).flt.log = (if (d.src n).reaction = .ignore then d.flt.log
      else ({ timeUs := d.ns / 1000 % 2 ^ 48, source := n, kind := 1 } :: d.flt.log).take 256) ∧
    (∀ m, m ≠ n → (d.activate n x).src m = d.src m) ∧ d.activate n x = { d with flt := (d.activate n x).flt } ∧
    (d.activate n x).flt.todo = d.flt.todo := by
  rw [activate_quietly hr]
  have hs : (d.src n).reaction ≠ .soft := by rcases hr with h | h <;> simp [h]
  by_cases hi : (d.src n).reaction = .ignore
  · simp only [hi, if_true]
    refine ⟨?_, rfl, fun m hm => Dev.src_modSrc_ne _ _ _ _ hm, rfl, rfl⟩
    rw [Dev.src_modSrc]; simp [hi]
  · simp only [hi, if_false]
    refine ⟨?_, rfl, fun m hm => (logEvent_src _ _ _ _).trans (Dev.src_modSrc_ne _ _ _ _ hm), rfl, rfl⟩
    rw [logEvent_src, Dev.src_modSrc]; simp [hs]

@[simp] theorem settle_mem (s : State) : s.settle.mem = s.mem := rfl

@[simp] theorem settle_pending (s : State) : s.settle.pending = s.pending := rfl

/-! ## Opcode rows -/

/-- A packet that is runnable is the packet in progress with its name. -/
theorem runnable_packet {op : Nat} {ref : PktRef} {d : Dev} {p : Packet} (h : d.runnable op ref = some p) :
    d.packet? ref = some p ∧ p.op = op ∧ p.phase = Phase.started := by
  unfold Dev.runnable at h
  split at h
  · cases h
  · split at h
    · rename_i hq hc
      cases h
      simp only [Bool.and_eq_true, decide_eq_true_eq] at hc
      exact ⟨hq, hc.1.1, hc.1.2⟩
    · cases h

theorem ready_packet {op : Nat} {p : Packet} {s : State} (h : Ready op p s) : s.dev.packet? p.ref = some p :=
  (runnable_packet h.2.2.1).1

/-- A ready packet whose checks pass has the effect of its row. -/
theorem opRow_run {op : Nat} {p : Packet} {s : State} (h : Ready op p s) {chk : Packet → Dev → Option Status}
    {run : Packet → State → State} (hc : chk p s.dev = none) :
    opRow op chk run p.ring p.seq s = .next (run p s).settle := by
  obtain ⟨-, hr, hp, ht⟩ := h
  have ht' : (p.trigKind = 0 || p.triggered) = true := by simpa using ht
  simp only [opRow, runOp, hr, if_true]
  rw [show (p.ring, p.seq) = p.ref from rfl, hp]
  simp only [ht', if_true, hc]

/-- A ready packet that fails a check completes with its status. -/
theorem opRow_fail {op : Nat} {p : Packet} {s : State} (h : Ready op p s) {chk : Packet → Dev → Option Status}
    {run : Packet → State → State} {st : Status} (hc : chk p s.dev = some st) :
    opRow op chk run p.ring p.seq s = .next (s.onDev (Dev.complete p.ref st 0 0)) := by
  obtain ⟨h0, hr, hp, ht⟩ := h
  have ht' : (p.trigKind = 0 || p.triggered) = true := by simpa using ht
  simp only [opRow, runOp, hr, if_true]
  rw [show (p.ring, p.seq) = p.ref from rfl, hp]
  simp only [ht', if_true, hc]
  rw [settle_of_settled]
  exact (congrArg Flt.todo (complete_flt s.dev p.ref st 0 0)).trans h0

/-- A ready packet whose row acts on the device alone and posts nothing. -/
theorem opRow_onPkt {op : Nat} {p : Packet} {s : State} (h : Ready op p s) {chk : Packet → Dev → Option Status}
    {f : Packet → Dev → Dev} (hc : chk p s.dev = none) (hf : (f p s.dev).flt.todo = []) :
    opRow op chk (onPkt f) p.ring p.seq s = .next (s.onDev (f p)) := by
  rw [opRow_run h hc, settle_of_settled]
  · rfl
  · exact hf

/-- What every step of a fold keeps, the fold keeps. -/
theorem forL_keep {α β : Type} (g : Dev → β) {f : α → Dev → Dev} (h : ∀ x d, g (f x d) = g d) (l : List α) (d : Dev) :
    g (forL l f d) = g d := by
  induction l generalizing d with
  | nil => rfl
  | cons x t ih => exact (ih (f x d)).trans (h x d)

theorem forN_keep {β : Type} (g : Dev → β) {f : Nat → Dev → Dev} (h : ∀ x d, g (f x d) = g d) (n : Nat) (d : Dev) :
    g (forN n f d) = g d := forL_keep g h (List.range n) d

/-- A fold whose steps all leave the device alone. -/
theorem forN_id {n : Nat} {f : Nat → Dev → Dev} {d : Dev} (h : ∀ k, k < n → f k d = d) : forN n f d = d := by
  induction n with
  | zero => rfl
  | succ n ih =>
    have e : forN (n + 1) f d = f n (forN n f d) := by simp [forN, List.range_succ, List.foldl_append]
    rw [e, ih fun k hk => h k (by omega)]
    exact h n (by omega)

theorem forN_succ (n : Nat) (f : Nat → Dev → Dev) (d : Dev) : forN (n + 1) f d = f n (forN n f d) := by
  simp [forN, List.range_succ, List.foldl_append]

/-- A command of a domain that runs, which posts nothing. -/
theorem inDomain_next {k : Nat} {f : Dev → Dev} {s : State} (hk : s.dev.on k = true) (hf : (f s.dev).flt.todo = []) :
    inDomain k f s = .next (s.onDev f) := by
  rw [inDomain, if_pos hk, settle_of_settled]; exact hf

end Sys2Proof.Laws
end

