-- ==== Sys2Proof/Laws/Complete.lean ====
section
/-! SUPPORT. What completing a packet, and putting one among the packets in progress, leave alone, field by field. -/

namespace Sys2Proof.Laws

open Machine

variable (d : Dev) (ref : PktRef) (st : Status) (a b n k : Nat) (p : Packet)

@[simp] theorem complete_pwr : (d.complete ref st a b).pwr = d.pwr := by rw [complete_frame]; rfl
@[simp] theorem complete_clk : (d.complete ref st a b).clk = d.clk := by rw [complete_frame]; rfl
@[simp] theorem complete_imp : (d.complete ref st a b).imp = d.imp := by rw [complete_frame]; rfl
@[simp] theorem complete_ing : (d.complete ref st a b).ing = d.ing := by rw [complete_frame]; rfl
@[simp] theorem complete_codec : (d.complete ref st a b).codec = d.codec := by rw [complete_frame]; rfl
@[simp] theorem complete_scr : (d.complete ref st a b).scr = d.scr := by rw [complete_frame]; rfl
@[simp] theorem complete_noz : (d.complete ref st a b).noz = d.noz := by rw [complete_frame]; rfl
@[simp] theorem complete_fire : (d.complete ref st a b).fire = d.fire := by rw [complete_frame]; rfl
@[simp] theorem complete_hl : (d.complete ref st a b).hl = d.hl := by rw [complete_frame]; rfl
@[simp] theorem complete_sched : (d.complete ref st a b).sched = d.sched := by rw [complete_frame]; rfl
@[simp] theorem complete_time : (d.complete ref st a b).time = d.time := by rw [complete_frame]; rfl
@[simp] theorem complete_mot : (d.complete ref st a b).mot = d.mot := by rw [complete_frame]; rfl
@[simp] theorem complete_bl : (d.complete ref st a b).bl = d.bl := by rw [complete_frame]; rfl
@[simp] theorem complete_ddr : (d.complete ref st a b).ddr = d.ddr := by rw [complete_frame]; rfl
@[simp] theorem complete_banks : (d.complete ref st a b).banks = d.banks := by rw [complete_frame]; rfl
@[simp] theorem complete_wear : (d.complete ref st a b).wear = d.wear := by rw [complete_frame]; rfl
@[simp] theorem complete_diag : (d.complete ref st a b).diag = d.diag := by rw [complete_frame]; rfl
@[simp] theorem complete_free : (d.complete ref st a b).free = d.free := by rw [complete_frame]; rfl
@[simp] theorem complete_sys_powered : (d.complete ref st a b).sys.powered = d.sys.powered := by rw [complete_frame]; rfl
@[simp] theorem complete_sys_stage : (d.complete ref st a b).sys.stage = d.sys.stage := by rw [complete_frame]; rfl
@[simp] theorem complete_sys_addr : (d.complete ref st a b).sys.addr = d.sys.addr := by rw [complete_frame]; rfl
@[simp] theorem complete_sys_addrValid : (d.complete ref st a b).sys.addrValid = d.sys.addrValid := by rw [complete_frame]; rfl
@[simp] theorem complete_src_at : (d.complete ref st a b).src n = d.src n := by rw [complete_frame]; rfl
@[simp] theorem complete_rail_at : (d.complete ref st a b).rail n = d.rail n := by rw [complete_frame]; rfl
@[simp] theorem complete_dom_at : (d.complete ref st a b).dom n = d.dom n := by rw [complete_frame]; rfl
@[simp] theorem complete_srst_at : (d.complete ref st a b).srst n = d.srst n := by rw [complete_frame]; rfl
@[simp] theorem complete_pll_at : (d.complete ref st a b).pll n = d.pll n := by rw [complete_frame]; rfl
@[simp] theorem complete_entry_at : (d.complete ref st a b).entry n = d.entry n := by rw [complete_frame]; rfl
@[simp] theorem complete_ist_at : (d.complete ref st a b).ist n = d.ist n := by rw [complete_frame]; rfl
@[simp] theorem complete_obj_at : (d.complete ref st a b).obj n = d.obj n := by rw [complete_frame]; rfl
@[simp] theorem complete_chan_at : (d.complete ref st a b).chan n = d.chan n := by rw [complete_frame]; rfl
@[simp] theorem complete_capq_at : (d.complete ref st a b).capq n = d.capq n := by rw [complete_frame]; rfl
@[simp] theorem complete_capBlock_at : (d.complete ref st a b).capBlock n = d.capBlock n := by rw [complete_frame]; rfl
@[simp] theorem complete_sst_at : (d.complete ref st a b).sst n = d.sst n := by rw [complete_frame]; rfl
@[simp] theorem complete_dropMap_at : (d.complete ref st a b).dropMap n = d.dropMap n := by rw [complete_frame]; rfl
@[simp] theorem complete_thresh_at : (d.complete ref st a b).thresh n = d.thresh n := by rw [complete_frame]; rfl
@[simp] theorem complete_diffSet_at : (d.complete ref st a b).diffSet n = d.diffSet n := by rw [complete_frame]; rfl
@[simp] theorem complete_nst_at : (d.complete ref st a b).nst n = d.nst n := by rw [complete_frame]; rfl
@[simp] theorem complete_nport_at : (d.complete ref st a b).nport n = d.nport n := by rw [complete_frame]; rfl
@[simp] theorem complete_enc_at : (d.complete ref st a b).enc n = d.enc n := by rw [complete_frame]; rfl
@[simp] theorem complete_fst_at : (d.complete ref st a b).fst n = d.fst n := by rw [complete_frame]; rfl
@[simp] theorem complete_fport_at : (d.complete ref st a b).fport n = d.fport n := by rw [complete_frame]; rfl
@[simp] theorem complete_hp_at : (d.complete ref st a b).hp n = d.hp n := by rw [complete_frame]; rfl
@[simp] theorem complete_pmodel_at : (d.complete ref st a b).pmodel n = d.pmodel n := by rw [complete_frame]; rfl
@[simp] theorem complete_zone_at : (d.complete ref st a b).zone n = d.zone n := by rw [complete_frame]; rfl
@[simp] theorem complete_tb_at : (d.complete ref st a b).tb n = d.tb n := by rw [complete_frame]; rfl
@[simp] theorem complete_tin_at : (d.complete ref st a b).tin n = d.tin n := by rw [complete_frame]; rfl
@[simp] theorem complete_tout_at : (d.complete ref st a b).tout n = d.tout n := by rw [complete_frame]; rfl
@[simp] theorem complete_eth_at : (d.complete ref st a b).eth n = d.eth n := by rw [complete_frame]; rfl
@[simp] theorem complete_axis_at : (d.complete ref st a b).axis n = d.axis n := by rw [complete_frame]; rfl
@[simp] theorem complete_fol_at : (d.complete ref st a b).fol n = d.fol n := by rw [complete_frame]; rfl
@[simp] theorem complete_bch_at : (d.complete ref st a b).bch n = d.bch n := by rw [complete_frame]; rfl
@[simp] theorem complete_lp_at : (d.complete ref st a b).lp n = d.lp n := by rw [complete_frame]; rfl
@[simp] theorem complete_dch_at : (d.complete ref st a b).dch n = d.dch n := by rw [complete_frame]; rfl
@[simp] theorem complete_wearInd_at : (d.complete ref st a b).wearInd n = d.wearInd n := by rw [complete_frame]; rfl
@[simp] theorem complete_bank_at : (d.complete ref st a b).bank n = d.bank n := by rw [complete_frame]; rfl

@[simp] theorem executing_pwr : (d.executing p).pwr = d.pwr := rfl
@[simp] theorem executing_clk : (d.executing p).clk = d.clk := rfl
@[simp] theorem executing_flt : (d.executing p).flt = d.flt := rfl
@[simp] theorem executing_imp : (d.executing p).imp = d.imp := rfl
@[simp] theorem executing_ing : (d.executing p).ing = d.ing := rfl
@[simp] theorem executing_codec : (d.executing p).codec = d.codec := rfl
@[simp] theorem executing_scr : (d.executing p).scr = d.scr := rfl
@[simp] theorem executing_noz : (d.executing p).noz = d.noz := rfl
@[simp] theorem executing_fire : (d.executing p).fire = d.fire := rfl
@[simp] theorem executing_hl : (d.executing p).hl = d.hl := rfl
@[simp] theorem executing_sched : (d.executing p).sched = d.sched := rfl
@[simp] theorem executing_time : (d.executing p).time = d.time := rfl
@[simp] theorem executing_mot : (d.executing p).mot = d.mot := rfl
@[simp] theorem executing_bl : (d.executing p).bl = d.bl := rfl
@[simp] theorem executing_ddr : (d.executing p).ddr = d.ddr := rfl
@[simp] theorem executing_banks : (d.executing p).banks = d.banks := rfl
@[simp] theorem executing_wear : (d.executing p).wear = d.wear := rfl
@[simp] theorem executing_diag : (d.executing p).diag = d.diag := rfl
@[simp] theorem executing_free : (d.executing p).free = d.free := rfl
@[simp] theorem executing_out : (d.executing p).out = d.out := rfl
@[simp] theorem executing_sys : (d.executing p).sys = d.sys := rfl
@[simp] theorem executing_src_at : (d.executing p).src n = d.src n := rfl
@[simp] theorem executing_rail_at : (d.executing p).rail n = d.rail n := rfl
@[simp] theorem executing_dom_at : (d.executing p).dom n = d.dom n := rfl
@[simp] theorem executing_srst_at : (d.executing p).srst n = d.srst n := rfl
@[simp] theorem executing_pll_at : (d.executing p).pll n = d.pll n := rfl
@[simp] theorem executing_entry_at : (d.executing p).entry n = d.entry n := rfl
@[simp] theorem executing_ist_at : (d.executing p).ist n = d.ist n := rfl
@[simp] theorem executing_obj_at : (d.executing p).obj n = d.obj n := rfl
@[simp] theorem executing_chan_at : (d.executing p).chan n = d.chan n := rfl
@[simp] theorem executing_capq_at : (d.executing p).capq n = d.capq n := rfl
@[simp] theorem executing_capBlock_at : (d.executing p).capBlock n = d.capBlock n := rfl
@[simp] theorem executing_sst_at : (d.executing p).sst n = d.sst n := rfl
@[simp] theorem executing_dropMap_at : (d.executing p).dropMap n = d.dropMap n := rfl
@[simp] theorem executing_thresh_at : (d.executing p).thresh n = d.thresh n := rfl
@[simp] theorem executing_diffSet_at : (d.executing p).diffSet n = d.diffSet n := rfl
@[simp] theorem executing_nst_at : (d.executing p).nst n = d.nst n := rfl
@[simp] theorem executing_nport_at : (d.executing p).nport n = d.nport n := rfl
@[simp] theorem executing_enc_at : (d.executing p).enc n = d.enc n := rfl
@[simp] theorem executing_fst_at : (d.executing p).fst n = d.fst n := rfl
@[simp] theorem executing_fport_at : (d.executing p).fport n = d.fport n := rfl
@[simp] theorem executing_hp_at : (d.executing p).hp n = d.hp n := rfl
@[simp] theorem executing_pmodel_at : (d.executing p).pmodel n = d.pmodel n := rfl
@[simp] theorem executing_zone_at : (d.executing p).zone n = d.zone n := rfl
@[simp] theorem executing_tb_at : (d.executing p).tb n = d.tb n := rfl
@[simp] theorem executing_tin_at : (d.executing p).tin n = d.tin n := rfl
@[simp] theorem executing_tout_at : (d.executing p).tout n = d.tout n := rfl
@[simp] theorem executing_eth_at : (d.executing p).eth n = d.eth n := rfl
@[simp] theorem executing_axis_at : (d.executing p).axis n = d.axis n := rfl
@[simp] theorem executing_fol_at : (d.executing p).fol n = d.fol n := rfl
@[simp] theorem executing_bch_at : (d.executing p).bch n = d.bch n := rfl
@[simp] theorem executing_lp_at : (d.executing p).lp n = d.lp n := rfl
@[simp] theorem executing_dch_at : (d.executing p).dch n = d.dch n := rfl
@[simp] theorem executing_wearInd_at : (d.executing p).wearInd n = d.wearInd n := rfl
@[simp] theorem executing_bank_at : (d.executing p).bank n = d.bank n := rfl
@[simp] theorem executing_ring_at : (d.executing p).ring n = d.ring n := rfl
@[simp] theorem executing_rptq_at : (d.executing p).rptq n = d.rptq n := rfl

/-! ### Signals and posted events leave the units alone -/

@[simp] theorem pin_src (q : Pin) (i : Nat) (h : Bool) : (d.pin q i h).src n = d.src n := rfl
@[simp] theorem msix_src : (d.msix k).src n = d.src n := rfl
@[simp] theorem send_src (o : Out) : (d.send o).src n = d.src n := rfl
@[simp] theorem raise_src : (d.raise k a).src n = d.src n := rfl
@[simp] theorem lower_src : (d.lower k).src n = d.src n := rfl
@[simp] theorem pin_rail (q : Pin) (i : Nat) (h : Bool) : (d.pin q i h).rail n = d.rail n := rfl
@[simp] theorem msix_rail : (d.msix k).rail n = d.rail n := rfl
@[simp] theorem send_rail (o : Out) : (d.send o).rail n = d.rail n := rfl
@[simp] theorem raise_rail : (d.raise k a).rail n = d.rail n := rfl
@[simp] theorem lower_rail : (d.lower k).rail n = d.rail n := rfl
@[simp] theorem logEvent_rail : (d.logEvent a b).rail n = d.rail n := rfl
@[simp] theorem pin_dom (q : Pin) (i : Nat) (h : Bool) : (d.pin q i h).dom n = d.dom n := rfl
@[simp] theorem msix_dom : (d.msix k).dom n = d.dom n := rfl
@[simp] theorem send_dom (o : Out) : (d.send o).dom n = d.dom n := rfl
@[simp] theorem raise_dom : (d.raise k a).dom n = d.dom n := rfl
@[simp] theorem lower_dom : (d.lower k).dom n = d.dom n := rfl
@[simp] theorem logEvent_dom : (d.logEvent a b).dom n = d.dom n := rfl
@[simp] theorem pin_srst (q : Pin) (i : Nat) (h : Bool) : (d.pin q i h).srst n = d.srst n := rfl
@[simp] theorem msix_srst : (d.msix k).srst n = d.srst n := rfl
@[simp] theorem send_srst (o : Out) : (d.send o).srst n = d.srst n := rfl
@[simp] theorem raise_srst : (d.raise k a).srst n = d.srst n := rfl
@[simp] theorem lower_srst : (d.lower k).srst n = d.srst n := rfl
@[simp] theorem logEvent_srst : (d.logEvent a b).srst n = d.srst n := rfl
@[simp] theorem pin_pll (q : Pin) (i : Nat) (h : Bool) : (d.pin q i h).pll n = d.pll n := rfl
@[simp] theorem msix_pll : (d.msix k).pll n = d.pll n := rfl
@[simp] theorem send_pll (o : Out) : (d.send o).pll n = d.pll n := rfl
@[simp] theorem raise_pll : (d.raise k a).pll n = d.pll n := rfl
@[simp] theorem lower_pll : (d.lower k).pll n = d.pll n := rfl
@[simp] theorem logEvent_pll : (d.logEvent a b).pll n = d.pll n := rfl
@[simp] theorem pin_entry (q : Pin) (i : Nat) (h : Bool) : (d.pin q i h).entry n = d.entry n := rfl
@[simp] theorem msix_entry : (d.msix k).entry n = d.entry n := rfl
@[simp] theorem send_entry (o : Out) : (d.send o).entry n = d.entry n := rfl
@[simp] theorem raise_entry : (d.raise k a).entry n = d.entry n := rfl
@[simp] theorem lower_entry : (d.lower k).entry n = d.entry n := rfl
@[simp] theorem logEvent_entry : (d.logEvent a b).entry n = d.entry n := rfl
@[simp] theorem pin_ist (q : Pin) (i : Nat) (h : Bool) : (d.pin q i h).ist n = d.ist n := rfl
@[simp] theorem msix_ist : (d.msix k).ist n = d.ist n := rfl
@[simp] theorem send_ist (o : Out) : (d.send o).ist n = d.ist n := rfl
@[simp] theorem raise_ist : (d.raise k a).ist n = d.ist n := rfl
@[simp] theorem lower_ist : (d.lower k).ist n = d.ist n := rfl
@[simp] theorem logEvent_ist : (d.logEvent a b).ist n = d.ist n := rfl
@[simp] theorem pin_obj (q : Pin) (i : Nat) (h : Bool) : (d.pin q i h).obj n = d.obj n := rfl
@[simp] theorem msix_obj : (d.msix k).obj n = d.obj n := rfl
@[simp] theorem send_obj (o : Out) : (d.send o).obj n = d.obj n := rfl
@[simp] theorem raise_obj : (d.raise k a).obj n = d.obj n := rfl
@[simp] theorem lower_obj : (d.lower k).obj n = d.obj n := rfl
@[simp] theorem logEvent_obj : (d.logEvent a b).obj n = d.obj n := rfl
@[simp] theorem pin_chan (q : Pin) (i : Nat) (h : Bool) : (d.pin q i h).chan n = d.chan n := rfl
@[simp] theorem msix_chan : (d.msix k).chan n = d.chan n := rfl
@[simp] theorem send_chan (o : Out) : (d.send o).chan n = d.chan n := rfl
@[simp] theorem raise_chan : (d.raise k a).chan n = d.chan n := rfl
@[simp] theorem lower_chan : (d.lower k).chan n = d.chan n := rfl
@[simp] theorem logEvent_chan : (d.logEvent a b).chan n = d.chan n := rfl
@[simp] theorem pin_capq (q : Pin) (i : Nat) (h : Bool) : (d.pin q i h).capq n = d.capq n := rfl
@[simp] theorem msix_capq : (d.msix k).capq n = d.capq n := rfl
@[simp] theorem send_capq (o : Out) : (d.send o).capq n = d.capq n := rfl
@[simp] theorem raise_capq : (d.raise k a).capq n = d.capq n := rfl
@[simp] theorem lower_capq : (d.lower k).capq n = d.capq n := rfl
@[simp] theorem logEvent_capq : (d.logEvent a b).capq n = d.capq n := rfl
@[simp] theorem pin_capBlock (q : Pin) (i : Nat) (h : Bool) : (d.pin q i h).capBlock n = d.capBlock n := rfl
@[simp] theorem msix_capBlock : (d.msix k).capBlock n = d.capBlock n := rfl
@[simp] theorem send_capBlock (o : Out) : (d.send o).capBlock n = d.capBlock n := rfl
@[simp] theorem raise_capBlock : (d.raise k a).capBlock n = d.capBlock n := rfl
@[simp] theorem lower_capBlock : (d.lower k).capBlock n = d.capBlock n := rfl
@[simp] theorem logEvent_capBlock : (d.logEvent a b).capBlock n = d.capBlock n := rfl
@[simp] theorem pin_sst (q : Pin) (i : Nat) (h : Bool) : (d.pin q i h).sst n = d.sst n := rfl
@[simp] theorem msix_sst : (d.msix k).sst n = d.sst n := rfl
@[simp] theorem send_sst (o : Out) : (d.send o).sst n = d.sst n := rfl
@[simp] theorem raise_sst : (d.raise k a).sst n = d.sst n := rfl
@[simp] theorem lower_sst : (d.lower k).sst n = d.sst n := rfl
@[simp] theorem logEvent_sst : (d.logEvent a b).sst n = d.sst n := rfl
@[simp] theorem pin_dropMap (q : Pin) (i : Nat) (h : Bool) : (d.pin q i h).dropMap n = d.dropMap n := rfl
@[simp] theorem msix_dropMap : (d.msix k).dropMap n = d.dropMap n := rfl
@[simp] theorem send_dropMap (o : Out) : (d.send o).dropMap n = d.dropMap n := rfl
@[simp] theorem raise_dropMap : (d.raise k a).dropMap n = d.dropMap n := rfl
@[simp] theorem lower_dropMap : (d.lower k).dropMap n = d.dropMap n := rfl
@[simp] theorem logEvent_dropMap : (d.logEvent a b).dropMap n = d.dropMap n := rfl
@[simp] theorem pin_thresh (q : Pin) (i : Nat) (h : Bool) : (d.pin q i h).thresh n = d.thresh n := rfl
@[simp] theorem msix_thresh : (d.msix k).thresh n = d.thresh n := rfl
@[simp] theorem send_thresh (o : Out) : (d.send o).thresh n = d.thresh n := rfl
@[simp] theorem raise_thresh : (d.raise k a).thresh n = d.thresh n := rfl
@[simp] theorem lower_thresh : (d.lower k).thresh n = d.thresh n := rfl
@[simp] theorem logEvent_thresh : (d.logEvent a b).thresh n = d.thresh n := rfl
@[simp] theorem pin_diffSet (q : Pin) (i : Nat) (h : Bool) : (d.pin q i h).diffSet n = d.diffSet n := rfl
@[simp] theorem msix_diffSet : (d.msix k).diffSet n = d.diffSet n := rfl
@[simp] theorem send_diffSet (o : Out) : (d.send o).diffSet n = d.diffSet n := rfl
@[simp] theorem raise_diffSet : (d.raise k a).diffSet n = d.diffSet n := rfl
@[simp] theorem lower_diffSet : (d.lower k).diffSet n = d.diffSet n := rfl
@[simp] theorem logEvent_diffSet : (d.logEvent a b).diffSet n = d.diffSet n := rfl
@[simp] theorem pin_nst (q : Pin) (i : Nat) (h : Bool) : (d.pin q i h).nst n = d.nst n := rfl
@[simp] theorem msix_nst : (d.msix k).nst n = d.nst n := rfl
@[simp] theorem send_nst (o : Out) : (d.send o).nst n = d.nst n := rfl
@[simp] theorem raise_nst : (d.raise k a).nst n = d.nst n := rfl
@[simp] theorem lower_nst : (d.lower k).nst n = d.nst n := rfl
@[simp] theorem logEvent_nst : (d.logEvent a b).nst n = d.nst n := rfl
@[simp] theorem pin_nport (q : Pin) (i : Nat) (h : Bool) : (d.pin q i h).nport n = d.nport n := rfl
@[simp] theorem msix_nport : (d.msix k).nport n = d.nport n := rfl
@[simp] theorem send_nport (o : Out) : (d.send o).nport n = d.nport n := rfl
@[simp] theorem raise_nport : (d.raise k a).nport n = d.nport n := rfl
@[simp] theorem lower_nport : (d.lower k).nport n = d.nport n := rfl
@[simp] theorem logEvent_nport : (d.logEvent a b).nport n = d.nport n := rfl
@[simp] theorem pin_enc (q : Pin) (i : Nat) (h : Bool) : (d.pin q i h).enc n = d.enc n := rfl
@[simp] theorem msix_enc : (d.msix k).enc n = d.enc n := rfl
@[simp] theorem send_enc (o : Out) : (d.send o).enc n = d.enc n := rfl
@[simp] theorem raise_enc : (d.raise k a).enc n = d.enc n := rfl
@[simp] theorem lower_enc : (d.lower k).enc n = d.enc n := rfl
@[simp] theorem logEvent_enc : (d.logEvent a b).enc n = d.enc n := rfl
@[simp] theorem pin_fst (q : Pin) (i : Nat) (h : Bool) : (d.pin q i h).fst n = d.fst n := rfl
@[simp] theorem msix_fst : (d.msix k).fst n = d.fst n := rfl
@[simp] theorem send_fst (o : Out) : (d.send o).fst n = d.fst n := rfl
@[simp] theorem raise_fst : (d.raise k a).fst n = d.fst n := rfl
@[simp] theorem lower_fst : (d.lower k).fst n = d.fst n := rfl
@[simp] theorem logEvent_fst : (d.logEvent a b).fst n = d.fst n := rfl
@[simp] theorem pin_fport (q : Pin) (i : Nat) (h : Bool) : (d.pin q i h).fport n = d.fport n := rfl
@[simp] theorem msix_fport : (d.msix k).fport n = d.fport n := rfl
@[simp] theorem send_fport (o : Out) : (d.send o).fport n = d.fport n := rfl
@[simp] theorem raise_fport : (d.raise k a).fport n = d.fport n := rfl
@[simp] theorem lower_fport : (d.lower k).fport n = d.fport n := rfl
@[simp] theorem logEvent_fport : (d.logEvent a b).fport n = d.fport n := rfl
@[simp] theorem pin_hp (q : Pin) (i : Nat) (h : Bool) : (d.pin q i h).hp n = d.hp n := rfl
@[simp] theorem msix_hp : (d.msix k).hp n = d.hp n := rfl
@[simp] theorem send_hp (o : Out) : (d.send o).hp n = d.hp n := rfl
@[simp] theorem raise_hp : (d.raise k a).hp n = d.hp n := rfl
@[simp] theorem lower_hp : (d.lower k).hp n = d.hp n := rfl
@[simp] theorem logEvent_hp : (d.logEvent a b).hp n = d.hp n := rfl
@[simp] theorem pin_pmodel (q : Pin) (i : Nat) (h : Bool) : (d.pin q i h).pmodel n = d.pmodel n := rfl
@[simp] theorem msix_pmodel : (d.msix k).pmodel n = d.pmodel n := rfl
@[simp] theorem send_pmodel (o : Out) : (d.send o).pmodel n = d.pmodel n := rfl
@[simp] theorem raise_pmodel : (d.raise k a).pmodel n = d.pmodel n := rfl
@[simp] theorem lower_pmodel : (d.lower k).pmodel n = d.pmodel n := rfl
@[simp] theorem logEvent_pmodel : (d.logEvent a b).pmodel n = d.pmodel n := rfl
@[simp] theorem pin_zone (q : Pin) (i : Nat) (h : Bool) : (d.pin q i h).zone n = d.zone n := rfl
@[simp] theorem msix_zone : (d.msix k).zone n = d.zone n := rfl
@[simp] theorem send_zone (o : Out) : (d.send o).zone n = d.zone n := rfl
@[simp] theorem raise_zone : (d.raise k a).zone n = d.zone n := rfl
@[simp] theorem lower_zone : (d.lower k).zone n = d.zone n := rfl
@[simp] theorem logEvent_zone : (d.logEvent a b).zone n = d.zone n := rfl
@[simp] theorem pin_tb (q : Pin) (i : Nat) (h : Bool) : (d.pin q i h).tb n = d.tb n := rfl
@[simp] theorem msix_tb : (d.msix k).tb n = d.tb n := rfl
@[simp] theorem send_tb (o : Out) : (d.send o).tb n = d.tb n := rfl
@[simp] theorem raise_tb : (d.raise k a).tb n = d.tb n := rfl
@[simp] theorem lower_tb : (d.lower k).tb n = d.tb n := rfl
@[simp] theorem logEvent_tb : (d.logEvent a b).tb n = d.tb n := rfl
@[simp] theorem pin_tin (q : Pin) (i : Nat) (h : Bool) : (d.pin q i h).tin n = d.tin n := rfl
@[simp] theorem msix_tin : (d.msix k).tin n = d.tin n := rfl
@[simp] theorem send_tin (o : Out) : (d.send o).tin n = d.tin n := rfl
@[simp] theorem raise_tin : (d.raise k a).tin n = d.tin n := rfl
@[simp] theorem lower_tin : (d.lower k).tin n = d.tin n := rfl
@[simp] theorem logEvent_tin : (d.logEvent a b).tin n = d.tin n := rfl
@[simp] theorem pin_tout (q : Pin) (i : Nat) (h : Bool) : (d.pin q i h).tout n = d.tout n := rfl
@[simp] theorem msix_tout : (d.msix k).tout n = d.tout n := rfl
@[simp] theorem send_tout (o : Out) : (d.send o).tout n = d.tout n := rfl
@[simp] theorem raise_tout : (d.raise k a).tout n = d.tout n := rfl
@[simp] theorem lower_tout : (d.lower k).tout n = d.tout n := rfl
@[simp] theorem logEvent_tout : (d.logEvent a b).tout n = d.tout n := rfl
@[simp] theorem pin_eth (q : Pin) (i : Nat) (h : Bool) : (d.pin q i h).eth n = d.eth n := rfl
@[simp] theorem msix_eth : (d.msix k).eth n = d.eth n := rfl
@[simp] theorem send_eth (o : Out) : (d.send o).eth n = d.eth n := rfl
@[simp] theorem raise_eth : (d.raise k a).eth n = d.eth n := rfl
@[simp] theorem lower_eth : (d.lower k).eth n = d.eth n := rfl
@[simp] theorem logEvent_eth : (d.logEvent a b).eth n = d.eth n := rfl
@[simp] theorem pin_axis (q : Pin) (i : Nat) (h : Bool) : (d.pin q i h).axis n = d.axis n := rfl
@[simp] theorem msix_axis : (d.msix k).axis n = d.axis n := rfl
@[simp] theorem send_axis (o : Out) : (d.send o).axis n = d.axis n := rfl
@[simp] theorem raise_axis : (d.raise k a).axis n = d.axis n := rfl
@[simp] theorem lower_axis : (d.lower k).axis n = d.axis n := rfl
@[simp] theorem logEvent_axis : (d.logEvent a b).axis n = d.axis n := rfl
@[simp] theorem pin_fol (q : Pin) (i : Nat) (h : Bool) : (d.pin q i h).fol n = d.fol n := rfl
@[simp] theorem msix_fol : (d.msix k).fol n = d.fol n := rfl
@[simp] theorem send_fol (o : Out) : (d.send o).fol n = d.fol n := rfl
@[simp] theorem raise_fol : (d.raise k a).fol n = d.fol n := rfl
@[simp] theorem lower_fol : (d.lower k).fol n = d.fol n := rfl
@[simp] theorem logEvent_fol : (d.logEvent a b).fol n = d.fol n := rfl
@[simp] theorem pin_bch (q : Pin) (i : Nat) (h : Bool) : (d.pin q i h).bch n = d.bch n := rfl
@[simp] theorem msix_bch : (d.msix k).bch n = d.bch n := rfl
@[simp] theorem send_bch (o : Out) : (d.send o).bch n = d.bch n := rfl
@[simp] theorem raise_bch : (d.raise k a).bch n = d.bch n := rfl
@[simp] theorem lower_bch : (d.lower k).bch n = d.bch n := rfl
@[simp] theorem logEvent_bch : (d.logEvent a b).bch n = d.bch n := rfl
@[simp] theorem pin_lp (q : Pin) (i : Nat) (h : Bool) : (d.pin q i h).lp n = d.lp n := rfl
@[simp] theorem msix_lp : (d.msix k).lp n = d.lp n := rfl
@[simp] theorem send_lp (o : Out) : (d.send o).lp n = d.lp n := rfl
@[simp] theorem raise_lp : (d.raise k a).lp n = d.lp n := rfl
@[simp] theorem lower_lp : (d.lower k).lp n = d.lp n := rfl
@[simp] theorem logEvent_lp : (d.logEvent a b).lp n = d.lp n := rfl
@[simp] theorem pin_dch (q : Pin) (i : Nat) (h : Bool) : (d.pin q i h).dch n = d.dch n := rfl
@[simp] theorem msix_dch : (d.msix k).dch n = d.dch n := rfl
@[simp] theorem send_dch (o : Out) : (d.send o).dch n = d.dch n := rfl
@[simp] theorem raise_dch : (d.raise k a).dch n = d.dch n := rfl
@[simp] theorem lower_dch : (d.lower k).dch n = d.dch n := rfl
@[simp] theorem logEvent_dch : (d.logEvent a b).dch n = d.dch n := rfl
@[simp] theorem pin_wearInd (q : Pin) (i : Nat) (h : Bool) : (d.pin q i h).wearInd n = d.wearInd n := rfl
@[simp] theorem msix_wearInd : (d.msix k).wearInd n = d.wearInd n := rfl
@[simp] theorem send_wearInd (o : Out) : (d.send o).wearInd n = d.wearInd n := rfl
@[simp] theorem raise_wearInd : (d.raise k a).wearInd n = d.wearInd n := rfl
@[simp] theorem lower_wearInd : (d.lower k).wearInd n = d.wearInd n := rfl
@[simp] theorem logEvent_wearInd : (d.logEvent a b).wearInd n = d.wearInd n := rfl
@[simp] theorem pin_bank (q : Pin) (i : Nat) (h : Bool) : (d.pin q i h).bank n = d.bank n := rfl
@[simp] theorem msix_bank : (d.msix k).bank n = d.bank n := rfl
@[simp] theorem send_bank (o : Out) : (d.send o).bank n = d.bank n := rfl
@[simp] theorem raise_bank : (d.raise k a).bank n = d.bank n := rfl
@[simp] theorem lower_bank : (d.lower k).bank n = d.bank n := rfl
@[simp] theorem logEvent_bank : (d.logEvent a b).bank n = d.bank n := rfl
@[simp] theorem pin_ring (q : Pin) (i : Nat) (h : Bool) : (d.pin q i h).ring n = d.ring n := rfl
@[simp] theorem msix_ring : (d.msix k).ring n = d.ring n := rfl
@[simp] theorem send_ring (o : Out) : (d.send o).ring n = d.ring n := rfl
@[simp] theorem raise_ring : (d.raise k a).ring n = d.ring n := rfl
@[simp] theorem lower_ring : (d.lower k).ring n = d.ring n := rfl
@[simp] theorem logEvent_ring : (d.logEvent a b).ring n = d.ring n := rfl
@[simp] theorem pin_rptq (q : Pin) (i : Nat) (h : Bool) : (d.pin q i h).rptq n = d.rptq n := rfl
@[simp] theorem msix_rptq : (d.msix k).rptq n = d.rptq n := rfl
@[simp] theorem send_rptq (o : Out) : (d.send o).rptq n = d.rptq n := rfl
@[simp] theorem raise_rptq : (d.raise k a).rptq n = d.rptq n := rfl
@[simp] theorem lower_rptq : (d.lower k).rptq n = d.rptq n := rfl
@[simp] theorem logEvent_rptq : (d.logEvent a b).rptq n = d.rptq n := rfl

/-! ### Completing several packets -/

theorem completeAll_frame (l : List PktRef) : d.completeAll l st = Dev.ringed d (d.completeAll l st) :=
  (forL_complete_frame l st d).1

@[simp] theorem completeAll_pwr (l : List PktRef) : (d.completeAll l st).pwr = d.pwr := by rw [completeAll_frame]; rfl
@[simp] theorem completeAll_clk (l : List PktRef) : (d.completeAll l st).clk = d.clk := by rw [completeAll_frame]; rfl
@[simp] theorem completeAll_flt (l : List PktRef) : (d.completeAll l st).flt = d.flt := by rw [completeAll_frame]; rfl
@[simp] theorem completeAll_imp (l : List PktRef) : (d.completeAll l st).imp = d.imp := by rw [completeAll_frame]; rfl
@[simp] theorem completeAll_ing (l : List PktRef) : (d.completeAll l st).ing = d.ing := by rw [completeAll_frame]; rfl
@[simp] theorem completeAll_codec (l : List PktRef) : (d.completeAll l st).codec = d.codec := by rw [completeAll_frame]; rfl
@[simp] theorem completeAll_scr (l : List PktRef) : (d.completeAll l st).scr = d.scr := by rw [completeAll_frame]; rfl
@[simp] theorem completeAll_noz (l : List PktRef) : (d.completeAll l st).noz = d.noz := by rw [completeAll_frame]; rfl
@[simp] theorem completeAll_fire (l : List PktRef) : (d.completeAll l st).fire = d.fire := by rw [completeAll_frame]; rfl
@[simp] theorem completeAll_hl (l : List PktRef) : (d.completeAll l st).hl = d.hl := by rw [completeAll_frame]; rfl
@[simp] theorem completeAll_sched (l : List PktRef) : (d.completeAll l st).sched = d.sched := by rw [completeAll_frame]; rfl
@[simp] theorem completeAll_time (l : List PktRef) : (d.completeAll l st).time = d.time := by rw [completeAll_frame]; rfl
@[simp] theorem completeAll_mot (l : List PktRef) : (d.completeAll l st).mot = d.mot := by rw [completeAll_frame]; rfl
@[simp] theorem completeAll_bl (l : List PktRef) : (d.completeAll l st).bl = d.bl := by rw [completeAll_frame]; rfl
@[simp] theorem completeAll_ddr (l : List PktRef) : (d.completeAll l st).ddr = d.ddr := by rw [completeAll_frame]; rfl
@[simp] theorem completeAll_banks (l : List PktRef) : (d.completeAll l st).banks = d.banks := by rw [completeAll_frame]; rfl
@[simp] theorem completeAll_wear (l : List PktRef) : (d.completeAll l st).wear = d.wear := by rw [completeAll_frame]; rfl
@[simp] theorem completeAll_diag (l : List PktRef) : (d.completeAll l st).diag = d.diag := by rw [completeAll_frame]; rfl
@[simp] theorem completeAll_free (l : List PktRef) : (d.completeAll l st).free = d.free := by rw [completeAll_frame]; rfl
@[simp] theorem completeAll_src_at (l : List PktRef) : (d.completeAll l st).src n = d.src n := by rw [completeAll_frame]; rfl
@[simp] theorem completeAll_rail_at (l : List PktRef) : (d.completeAll l st).rail n = d.rail n := by rw [completeAll_frame]; rfl
@[simp] theorem completeAll_dom_at (l : List PktRef) : (d.completeAll l st).dom n = d.dom n := by rw [completeAll_frame]; rfl
@[simp] theorem completeAll_srst_at (l : List PktRef) : (d.completeAll l st).srst n = d.srst n := by rw [completeAll_frame]; rfl
@[simp] theorem completeAll_pll_at (l : List PktRef) : (d.completeAll l st).pll n = d.pll n := by rw [completeAll_frame]; rfl
@[simp] theorem completeAll_entry_at (l : List PktRef) : (d.completeAll l st).entry n = d.entry n := by rw [completeAll_frame]; rfl
@[simp] theorem completeAll_ist_at (l : List PktRef) : (d.completeAll l st).ist n = d.ist n := by rw [completeAll_frame]; rfl
@[simp] theorem completeAll_obj_at (l : List PktRef) : (d.completeAll l st).obj n = d.obj n := by rw [completeAll_frame]; rfl
@[simp] theorem completeAll_chan_at (l : List PktRef) : (d.completeAll l st).chan n = d.chan n := by rw [completeAll_frame]; rfl
@[simp] theorem completeAll_capq_at (l : List PktRef) : (d.completeAll l st).capq n = d.capq n := by rw [completeAll_frame]; rfl
@[simp] theorem completeAll_capBlock_at (l : List PktRef) : (d.completeAll l st).capBlock n = d.capBlock n := by rw [completeAll_frame]; rfl
@[simp] theorem completeAll_sst_at (l : List PktRef) : (d.completeAll l st).sst n = d.sst n := by rw [completeAll_frame]; rfl
@[simp] theorem completeAll_dropMap_at (l : List PktRef) : (d.completeAll l st).dropMap n = d.dropMap n := by rw [completeAll_frame]; rfl
@[simp] theorem completeAll_thresh_at (l : List PktRef) : (d.completeAll l st).thresh n = d.thresh n := by rw [completeAll_frame]; rfl
@[simp] theorem completeAll_diffSet_at (l : List PktRef) : (d.completeAll l st).diffSet n = d.diffSet n := by rw [completeAll_frame]; rfl
@[simp] theorem completeAll_nst_at (l : List PktRef) : (d.completeAll l st).nst n = d.nst n := by rw [completeAll_frame]; rfl
@[simp] theorem completeAll_nport_at (l : List PktRef) : (d.completeAll l st).nport n = d.nport n := by rw [completeAll_frame]; rfl
@[simp] theorem completeAll_enc_at (l : List PktRef) : (d.completeAll l st).enc n = d.enc n := by rw [completeAll_frame]; rfl
@[simp] theorem completeAll_fst_at (l : List PktRef) : (d.completeAll l st).fst n = d.fst n := by rw [completeAll_frame]; rfl
@[simp] theorem completeAll_fport_at (l : List PktRef) : (d.completeAll l st).fport n = d.fport n := by rw [completeAll_frame]; rfl
@[simp] theorem completeAll_hp_at (l : List PktRef) : (d.completeAll l st).hp n = d.hp n := by rw [completeAll_frame]; rfl
@[simp] theorem completeAll_pmodel_at (l : List PktRef) : (d.completeAll l st).pmodel n = d.pmodel n := by rw [completeAll_frame]; rfl
@[simp] theorem completeAll_zone_at (l : List PktRef) : (d.completeAll l st).zone n = d.zone n := by rw [completeAll_frame]; rfl
@[simp] theorem completeAll_tb_at (l : List PktRef) : (d.completeAll l st).tb n = d.tb n := by rw [completeAll_frame]; rfl
@[simp] theorem completeAll_tin_at (l : List PktRef) : (d.completeAll l st).tin n = d.tin n := by rw [completeAll_frame]; rfl
@[simp] theorem completeAll_tout_at (l : List PktRef) : (d.completeAll l st).tout n = d.tout n := by rw [completeAll_frame]; rfl
@[simp] theorem completeAll_eth_at (l : List PktRef) : (d.completeAll l st).eth n = d.eth n := by rw [completeAll_frame]; rfl
@[simp] theorem completeAll_axis_at (l : List PktRef) : (d.completeAll l st).axis n = d.axis n := by rw [completeAll_frame]; rfl
@[simp] theorem completeAll_fol_at (l : List PktRef) : (d.completeAll l st).fol n = d.fol n := by rw [completeAll_frame]; rfl
@[simp] theorem completeAll_bch_at (l : List PktRef) : (d.completeAll l st).bch n = d.bch n := by rw [completeAll_frame]; rfl
@[simp] theorem completeAll_lp_at (l : List PktRef) : (d.completeAll l st).lp n = d.lp n := by rw [completeAll_frame]; rfl
@[simp] theorem completeAll_dch_at (l : List PktRef) : (d.completeAll l st).dch n = d.dch n := by rw [completeAll_frame]; rfl
@[simp] theorem completeAll_wearInd_at (l : List PktRef) : (d.completeAll l st).wearInd n = d.wearInd n := by rw [completeAll_frame]; rfl
@[simp] theorem completeAll_bank_at (l : List PktRef) : (d.completeAll l st).bank n = d.bank n := by rw [completeAll_frame]; rfl

/-- What a packet's completion at the end of an effect that sends nothing leaves in the trace. -/
theorem completed_of {s : State} {p : Packet} {g : Dev} (h : s.dev.packet? p.ref = some p) (hr : g.rings = s.dev.rings)
    {pre : List Out} (ho : g.out = pre ++ s.dev.out) (st : Status) (x y : Nat) :
    Completed p st x y s { s with dev := g.complete p.ref st x y } := by
  intro hs
  have hp : g.packet? p.ref = some p := by
    unfold Dev.packet? at h ⊢; rw [hr]; exact h
  have hq : (g.ring p.ring).source ≠ 1 := by unfold Dev.ring at hs ⊢; rw [hr]; exact hs
  obtain ⟨q, h1, c, hc, h2⟩ := complete_out g p st x y hp hq
  exact ⟨q ++ pre, by rw [h1, ho, List.append_assoc], c, by simp [hc], h2⟩

/-- The row of a ready packet whose effect on the device is g and then its completion with DONE and the like, which posts
nothing: the next state, the completion, and what it may have changed besides g. -/
theorem does_of {op : Nat} {p : Packet} {s : State} (h : Ready op p s) {chk : Packet → Dev → Option Status}
    {f : Packet → Dev → Dev} (hc : chk p s.dev = none) (g : Dev) (st : Status) (x y : Nat)
    (hf : f p s.dev = g.complete p.ref st x y) (hr : g.rings = s.dev.rings) {pre : List Out} (ho : g.out = pre ++ s.dev.out)
    (ht : g.flt.todo = []) :
    opRow op chk (onPkt f) p.ring p.seq s = .next { s with dev := g.complete p.ref st x y } ∧
    Completed p st x y s { s with dev := g.complete p.ref st x y } := by
  refine ⟨?_, completed_of (ready_packet h) hr ho st x y⟩
  rw [opRow_onPkt h hc (by rw [hf, complete_flt]; exact ht)]
  show Host.Outcome.next { s with dev := f p s.dev } = _
  rw [hf]

/-- A packet put among those executing is the packet in progress with its name. -/
theorem packet_executing {d : Dev} {p : Packet} (h : d.packet? p.ref = some p) :
    (d.executing p).packet? p.ref = some { p with phase := .executing } := by
  unfold Dev.packet? at h ⊢
  show List.find? _ (d.rings.inflight.map _) = _
  revert h
  generalize d.rings.inflight = l
  intro h
  induction l with
  | nil => simp at h
  | cons q l ih =>
    simp only [List.find?_cons] at h
    cases hq : (decide (q.ring = p.ref.1) && decide (q.seq = p.ref.2) && !decide (q.phase = Phase.dupWait)) with
    | true =>
      rw [hq] at h
      simp only [Option.some.injEq] at h
      subst h
      rw [List.map_cons, if_pos hq]
      exact List.find?_cons_of_pos (by simp [Packet.ref])
    | false =>
      rw [hq] at h
      simp only [List.map_cons, hq, Bool.false_eq_true, if_false, List.find?_cons]
      exact ih h

/-! ### Completing after an effect on one unit changes that unit and what a completion may -/

theorem only_complete_pwr {s : State} {g : Dev} (hg : g = { s.dev with pwr := g.pwr }) (ref : PktRef) (st : Status) (a b : Nat) :
    Only { Dev.ringed s.dev (g.complete ref st a b) with pwr := (g.complete ref st a b).pwr } s
      { s with dev := g.complete ref st a b } := by
  refine congrArg (fun x => ({ s with dev := x } : State)) ((complete_frame g ref st a b).trans ?_)
  rw [complete_pwr]
  generalize g.complete ref st a b = c
  conv_lhs => rw [hg]
  rfl

theorem only_complete_clk {s : State} {g : Dev} (hg : g = { s.dev with clk := g.clk }) (ref : PktRef) (st : Status) (a b : Nat) :
    Only { Dev.ringed s.dev (g.complete ref st a b) with clk := (g.complete ref st a b).clk } s
      { s with dev := g.complete ref st a b } := by
  refine congrArg (fun x => ({ s with dev := x } : State)) ((complete_frame g ref st a b).trans ?_)
  rw [complete_clk]
  generalize g.complete ref st a b = c
  conv_lhs => rw [hg]
  rfl

theorem only_complete_flt {s : State} {g : Dev} (hg : g = { s.dev with flt := g.flt }) (ref : PktRef) (st : Status) (a b : Nat) :
    Only { Dev.ringed s.dev (g.complete ref st a b) with flt := (g.complete ref st a b).flt } s
      { s with dev := g.complete ref st a b } := by
  refine congrArg (fun x => ({ s with dev := x } : State)) ((complete_frame g ref st a b).trans ?_)
  rw [complete_flt]
  generalize g.complete ref st a b = c
  conv_lhs => rw [hg]
  rfl

theorem only_complete_imp {s : State} {g : Dev} (hg : g = { s.dev with imp := g.imp }) (ref : PktRef) (st : Status) (a b : Nat) :
    Only { Dev.ringed s.dev (g.complete ref st a b) with imp := (g.complete ref st a b).imp } s
      { s with dev := g.complete ref st a b } := by
  refine congrArg (fun x => ({ s with dev := x } : State)) ((complete_frame g ref st a b).trans ?_)
  rw [complete_imp]
  generalize g.complete ref st a b = c
  conv_lhs => rw [hg]
  rfl

theorem only_complete_ing {s : State} {g : Dev} (hg : g = { s.dev with ing := g.ing }) (ref : PktRef) (st : Status) (a b : Nat) :
    Only { Dev.ringed s.dev (g.complete ref st a b) with ing := (g.complete ref st a b).ing } s
      { s with dev := g.complete ref st a b } := by
  refine congrArg (fun x => ({ s with dev := x } : State)) ((complete_frame g ref st a b).trans ?_)
  rw [complete_ing]
  generalize g.complete ref st a b = c
  conv_lhs => rw [hg]
  rfl

theorem only_complete_codec {s : State} {g : Dev} (hg : g = { s.dev with codec := g.codec }) (ref : PktRef) (st : Status) (a b : Nat) :
    Only { Dev.ringed s.dev (g.complete ref st a b) with codec := (g.complete ref st a b).codec } s
      { s with dev := g.complete ref st a b } := by
  refine congrArg (fun x => ({ s with dev := x } : State)) ((complete_frame g ref st a b).trans ?_)
  rw [complete_codec]
  generalize g.complete ref st a b = c
  conv_lhs => rw [hg]
  rfl

theorem only_complete_scr {s : State} {g : Dev} (hg : g = { s.dev with scr := g.scr }) (ref : PktRef) (st : Status) (a b : Nat) :
    Only { Dev.ringed s.dev (g.complete ref st a b) with scr := (g.complete ref st a b).scr } s
      { s with dev := g.complete ref st a b } := by
  refine congrArg (fun x => ({ s with dev := x } : State)) ((complete_frame g ref st a b).trans ?_)
  rw [complete_scr]
  generalize g.complete ref st a b = c
  conv_lhs => rw [hg]
  rfl

theorem only_complete_noz {s : State} {g : Dev} (hg : g = { s.dev with noz := g.noz }) (ref : PktRef) (st : Status) (a b : Nat) :
    Only { Dev.ringed s.dev (g.complete ref st a b) with noz := (g.complete ref st a b).noz } s
      { s with dev := g.complete ref st a b } := by
  refine congrArg (fun x => ({ s with dev := x } : State)) ((complete_frame g ref st a b).trans ?_)
  rw [complete_noz]
  generalize g.complete ref st a b = c
  conv_lhs => rw [hg]
  rfl

theorem only_complete_fire {s : State} {g : Dev} (hg : g = { s.dev with fire := g.fire }) (ref : PktRef) (st : Status) (a b : Nat) :
    Only { Dev.ringed s.dev (g.complete ref st a b) with fire := (g.complete ref st a b).fire } s
      { s with dev := g.complete ref st a b } := by
  refine congrArg (fun x => ({ s with dev := x } : State)) ((complete_frame g ref st a b).trans ?_)
  rw [complete_fire]
  generalize g.complete ref st a b = c
  conv_lhs => rw [hg]
  rfl

theorem only_complete_hl {s : State} {g : Dev} (hg : g = { s.dev with hl := g.hl }) (ref : PktRef) (st : Status) (a b : Nat) :
    Only { Dev.ringed s.dev (g.complete ref st a b) with hl := (g.complete ref st a b).hl } s
      { s with dev := g.complete ref st a b } := by
  refine congrArg (fun x => ({ s with dev := x } : State)) ((complete_frame g ref st a b).trans ?_)
  rw [complete_hl]
  generalize g.complete ref st a b = c
  conv_lhs => rw [hg]
  rfl

theorem only_complete_sched {s : State} {g : Dev} (hg : g = { s.dev with sched := g.sched }) (ref : PktRef) (st : Status) (a b : Nat) :
    Only { Dev.ringed s.dev (g.complete ref st a b) with sched := (g.complete ref st a b).sched } s
      { s with dev := g.complete ref st a b } := by
  refine congrArg (fun x => ({ s with dev := x } : State)) ((complete_frame g ref st a b).trans ?_)
  rw [complete_sched]
  generalize g.complete ref st a b = c
  conv_lhs => rw [hg]
  rfl

theorem only_complete_time {s : State} {g : Dev} (hg : g = { s.dev with time := g.time }) (ref : PktRef) (st : Status) (a b : Nat) :
    Only { Dev.ringed s.dev (g.complete ref st a b) with time := (g.complete ref st a b).time } s
      { s with dev := g.complete ref st a b } := by
  refine congrArg (fun x => ({ s with dev := x } : State)) ((complete_frame g ref st a b).trans ?_)
  rw [complete_time]
  generalize g.complete ref st a b = c
  conv_lhs => rw [hg]
  rfl

theorem only_complete_mot {s : State} {g : Dev} (hg : g = { s.dev with mot := g.mot }) (ref : PktRef) (st : Status) (a b : Nat) :
    Only { Dev.ringed s.dev (g.complete ref st a b) with mot := (g.complete ref st a b).mot } s
      { s with dev := g.complete ref st a b } := by
  refine congrArg (fun x => ({ s with dev := x } : State)) ((complete_frame g ref st a b).trans ?_)
  rw [complete_mot]
  generalize g.complete ref st a b = c
  conv_lhs => rw [hg]
  rfl

theorem only_complete_bl {s : State} {g : Dev} (hg : g = { s.dev with bl := g.bl }) (ref : PktRef) (st : Status) (a b : Nat) :
    Only { Dev.ringed s.dev (g.complete ref st a b) with bl := (g.complete ref st a b).bl } s
      { s with dev := g.complete ref st a b } := by
  refine congrArg (fun x => ({ s with dev := x } : State)) ((complete_frame g ref st a b).trans ?_)
  rw [complete_bl]
  generalize g.complete ref st a b = c
  conv_lhs => rw [hg]
  rfl

theorem only_complete_ddr {s : State} {g : Dev} (hg : g = { s.dev with ddr := g.ddr }) (ref : PktRef) (st : Status) (a b : Nat) :
    Only { Dev.ringed s.dev (g.complete ref st a b) with ddr := (g.complete ref st a b).ddr } s
      { s with dev := g.complete ref st a b } := by
  refine congrArg (fun x => ({ s with dev := x } : State)) ((complete_frame g ref st a b).trans ?_)
  rw [complete_ddr]
  generalize g.complete ref st a b = c
  conv_lhs => rw [hg]
  rfl

theorem only_complete_banks {s : State} {g : Dev} (hg : g = { s.dev with banks := g.banks }) (ref : PktRef) (st : Status) (a b : Nat) :
    Only { Dev.ringed s.dev (g.complete ref st a b) with banks := (g.complete ref st a b).banks } s
      { s with dev := g.complete ref st a b } := by
  refine congrArg (fun x => ({ s with dev := x } : State)) ((complete_frame g ref st a b).trans ?_)
  rw [complete_banks]
  generalize g.complete ref st a b = c
  conv_lhs => rw [hg]
  rfl

theorem only_complete_wear {s : State} {g : Dev} (hg : g = { s.dev with wear := g.wear }) (ref : PktRef) (st : Status) (a b : Nat) :
    Only { Dev.ringed s.dev (g.complete ref st a b) with wear := (g.complete ref st a b).wear } s
      { s with dev := g.complete ref st a b } := by
  refine congrArg (fun x => ({ s with dev := x } : State)) ((complete_frame g ref st a b).trans ?_)
  rw [complete_wear]
  generalize g.complete ref st a b = c
  conv_lhs => rw [hg]
  rfl

theorem only_complete_diag {s : State} {g : Dev} (hg : g = { s.dev with diag := g.diag }) (ref : PktRef) (st : Status) (a b : Nat) :
    Only { Dev.ringed s.dev (g.complete ref st a b) with diag := (g.complete ref st a b).diag } s
      { s with dev := g.complete ref st a b } := by
  refine congrArg (fun x => ({ s with dev := x } : State)) ((complete_frame g ref st a b).trans ?_)
  rw [complete_diag]
  generalize g.complete ref st a b = c
  conv_lhs => rw [hg]
  rfl

/-! ### The same for an effect that also sends -/

theorem only_sent_pwr {s : State} {g : Dev} (hg : g = { s.dev with pwr := g.pwr, out := g.out }) (ref : PktRef) (st : Status)
    (a b : Nat) :
    Only { Dev.ringed s.dev (g.complete ref st a b) with pwr := (g.complete ref st a b).pwr } s
      { s with dev := g.complete ref st a b } := by
  refine congrArg (fun x => ({ s with dev := x } : State)) ((complete_frame g ref st a b).trans ?_)
  rw [complete_pwr]
  generalize g.complete ref st a b = c
  conv_lhs => rw [hg]
  rfl

theorem only_sent_clk {s : State} {g : Dev} (hg : g = { s.dev with clk := g.clk, out := g.out }) (ref : PktRef) (st : Status)
    (a b : Nat) :
    Only { Dev.ringed s.dev (g.complete ref st a b) with clk := (g.complete ref st a b).clk } s
      { s with dev := g.complete ref st a b } := by
  refine congrArg (fun x => ({ s with dev := x } : State)) ((complete_frame g ref st a b).trans ?_)
  rw [complete_clk]
  generalize g.complete ref st a b = c
  conv_lhs => rw [hg]
  rfl

theorem only_sent_flt {s : State} {g : Dev} (hg : g = { s.dev with flt := g.flt, out := g.out }) (ref : PktRef) (st : Status)
    (a b : Nat) :
    Only { Dev.ringed s.dev (g.complete ref st a b) with flt := (g.complete ref st a b).flt } s
      { s with dev := g.complete ref st a b } := by
  refine congrArg (fun x => ({ s with dev := x } : State)) ((complete_frame g ref st a b).trans ?_)
  rw [complete_flt]
  generalize g.complete ref st a b = c
  conv_lhs => rw [hg]
  rfl

theorem only_sent_imp {s : State} {g : Dev} (hg : g = { s.dev with imp := g.imp, out := g.out }) (ref : PktRef) (st : Status)
    (a b : Nat) :
    Only { Dev.ringed s.dev (g.complete ref st a b) with imp := (g.complete ref st a b).imp } s
      { s with dev := g.complete ref st a b } := by
  refine congrArg (fun x => ({ s with dev := x } : State)) ((complete_frame g ref st a b).trans ?_)
  rw [complete_imp]
  generalize g.complete ref st a b = c
  conv_lhs => rw [hg]
  rfl

theorem only_sent_ing {s : State} {g : Dev} (hg : g = { s.dev with ing := g.ing, out := g.out }) (ref : PktRef) (st : Status)
    (a b : Nat) :
    Only { Dev.ringed s.dev (g.complete ref st a b) with ing := (g.complete ref st a b).ing } s
      { s with dev := g.complete ref st a b } := by
  refine congrArg (fun x => ({ s with dev := x } : State)) ((complete_frame g ref st a b).trans ?_)
  rw [complete_ing]
  generalize g.complete ref st a b = c
  conv_lhs => rw [hg]
  rfl

theorem only_sent_codec {s : State} {g : Dev} (hg : g = { s.dev with codec := g.codec, out := g.out }) (ref : PktRef) (st : Status)
    (a b : Nat) :
    Only { Dev.ringed s.dev (g.complete ref st a b) with codec := (g.complete ref st a b).codec } s
      { s with dev := g.complete ref st a b } := by
  refine congrArg (fun x => ({ s with dev := x } : State)) ((complete_frame g ref st a b).trans ?_)
  rw [complete_codec]
  generalize g.complete ref st a b = c
  conv_lhs => rw [hg]
  rfl

theorem only_sent_scr {s : State} {g : Dev} (hg : g = { s.dev with scr := g.scr, out := g.out }) (ref : PktRef) (st : Status)
    (a b : Nat) :
    Only { Dev.ringed s.dev (g.complete ref st a b) with scr := (g.complete ref st a b).scr } s
      { s with dev := g.complete ref st a b } := by
  refine congrArg (fun x => ({ s with dev := x } : State)) ((complete_frame g ref st a b).trans ?_)
  rw [complete_scr]
  generalize g.complete ref st a b = c
  conv_lhs => rw [hg]
  rfl

theorem only_sent_noz {s : State} {g : Dev} (hg : g = { s.dev with noz := g.noz, out := g.out }) (ref : PktRef) (st : Status)
    (a b : Nat) :
    Only { Dev.ringed s.dev (g.complete ref st a b) with noz := (g.complete ref st a b).noz } s
      { s with dev := g.complete ref st a b } := by
  refine congrArg (fun x => ({ s with dev := x } : State)) ((complete_frame g ref st a b).trans ?_)
  rw [complete_noz]
  generalize g.complete ref st a b = c
  conv_lhs => rw [hg]
  rfl

theorem only_sent_fire {s : State} {g : Dev} (hg : g = { s.dev with fire := g.fire, out := g.out }) (ref : PktRef) (st : Status)
    (a b : Nat) :
    Only { Dev.ringed s.dev (g.complete ref st a b) with fire := (g.complete ref st a b).fire } s
      { s with dev := g.complete ref st a b } := by
  refine congrArg (fun x => ({ s with dev := x } : State)) ((complete_frame g ref st a b).trans ?_)
  rw [complete_fire]
  generalize g.complete ref st a b = c
  conv_lhs => rw [hg]
  rfl

theorem only_sent_hl {s : State} {g : Dev} (hg : g = { s.dev with hl := g.hl, out := g.out }) (ref : PktRef) (st : Status)
    (a b : Nat) :
    Only { Dev.ringed s.dev (g.complete ref st a b) with hl := (g.complete ref st a b).hl } s
      { s with dev := g.complete ref st a b } := by
  refine congrArg (fun x => ({ s with dev := x } : State)) ((complete_frame g ref st a b).trans ?_)
  rw [complete_hl]
  generalize g.complete ref st a b = c
  conv_lhs => rw [hg]
  rfl

theorem only_sent_sched {s : State} {g : Dev} (hg : g = { s.dev with sched := g.sched, out := g.out }) (ref : PktRef) (st : Status)
    (a b : Nat) :
    Only { Dev.ringed s.dev (g.complete ref st a b) with sched := (g.complete ref st a b).sched } s
      { s with dev := g.complete ref st a b } := by
  refine congrArg (fun x => ({ s with dev := x } : State)) ((complete_frame g ref st a b).trans ?_)
  rw [complete_sched]
  generalize g.complete ref st a b = c
  conv_lhs => rw [hg]
  rfl

theorem only_sent_time {s : State} {g : Dev} (hg : g = { s.dev with time := g.time, out := g.out }) (ref : PktRef) (st : Status)
    (a b : Nat) :
    Only { Dev.ringed s.dev (g.complete ref st a b) with time := (g.complete ref st a b).time } s
      { s with dev := g.complete ref st a b } := by
  refine congrArg (fun x => ({ s with dev := x } : State)) ((complete_frame g ref st a b).trans ?_)
  rw [complete_time]
  generalize g.complete ref st a b = c
  conv_lhs => rw [hg]
  rfl

theorem only_sent_mot {s : State} {g : Dev} (hg : g = { s.dev with mot := g.mot, out := g.out }) (ref : PktRef) (st : Status)
    (a b : Nat) :
    Only { Dev.ringed s.dev (g.complete ref st a b) with mot := (g.complete ref st a b).mot } s
      { s with dev := g.complete ref st a b } := by
  refine congrArg (fun x => ({ s with dev := x } : State)) ((complete_frame g ref st a b).trans ?_)
  rw [complete_mot]
  generalize g.complete ref st a b = c
  conv_lhs => rw [hg]
  rfl

theorem only_sent_bl {s : State} {g : Dev} (hg : g = { s.dev with bl := g.bl, out := g.out }) (ref : PktRef) (st : Status)
    (a b : Nat) :
    Only { Dev.ringed s.dev (g.complete ref st a b) with bl := (g.complete ref st a b).bl } s
      { s with dev := g.complete ref st a b } := by
  refine congrArg (fun x => ({ s with dev := x } : State)) ((complete_frame g ref st a b).trans ?_)
  rw [complete_bl]
  generalize g.complete ref st a b = c
  conv_lhs => rw [hg]
  rfl

theorem only_sent_ddr {s : State} {g : Dev} (hg : g = { s.dev with ddr := g.ddr, out := g.out }) (ref : PktRef) (st : Status)
    (a b : Nat) :
    Only { Dev.ringed s.dev (g.complete ref st a b) with ddr := (g.complete ref st a b).ddr } s
      { s with dev := g.complete ref st a b } := by
  refine congrArg (fun x => ({ s with dev := x } : State)) ((complete_frame g ref st a b).trans ?_)
  rw [complete_ddr]
  generalize g.complete ref st a b = c
  conv_lhs => rw [hg]
  rfl

theorem only_sent_banks {s : State} {g : Dev} (hg : g = { s.dev with banks := g.banks, out := g.out }) (ref : PktRef) (st : Status)
    (a b : Nat) :
    Only { Dev.ringed s.dev (g.complete ref st a b) with banks := (g.complete ref st a b).banks } s
      { s with dev := g.complete ref st a b } := by
  refine congrArg (fun x => ({ s with dev := x } : State)) ((complete_frame g ref st a b).trans ?_)
  rw [complete_banks]
  generalize g.complete ref st a b = c
  conv_lhs => rw [hg]
  rfl

theorem only_sent_wear {s : State} {g : Dev} (hg : g = { s.dev with wear := g.wear, out := g.out }) (ref : PktRef) (st : Status)
    (a b : Nat) :
    Only { Dev.ringed s.dev (g.complete ref st a b) with wear := (g.complete ref st a b).wear } s
      { s with dev := g.complete ref st a b } := by
  refine congrArg (fun x => ({ s with dev := x } : State)) ((complete_frame g ref st a b).trans ?_)
  rw [complete_wear]
  generalize g.complete ref st a b = c
  conv_lhs => rw [hg]
  rfl

theorem only_sent_diag {s : State} {g : Dev} (hg : g = { s.dev with diag := g.diag, out := g.out }) (ref : PktRef) (st : Status)
    (a b : Nat) :
    Only { Dev.ringed s.dev (g.complete ref st a b) with diag := (g.complete ref st a b).diag } s
      { s with dev := g.complete ref st a b } := by
  refine congrArg (fun x => ({ s with dev := x } : State)) ((complete_frame g ref st a b).trans ?_)
  rw [complete_diag]
  generalize g.complete ref st a b = c
  conv_lhs => rw [hg]
  rfl

/-- A device that differs from d only in what completing may change. -/
theorem ringed_complete (g : Dev) : g.complete ref st a b = Dev.ringed g (g.complete ref st a b) := complete_frame ..

end Sys2Proof.Laws
end

