-- ==== Sys2Proof/Laws/Reports.lean ====
section
/-! SUPPORT. What writing report records can do: it changes the report queues and the Ethernet rings that carry them, what of a
stream waits for a final report, and the trace; and what a cancellation can do. -/

namespace Sys2Proof.Laws

open Machine

/-- d' differs from d only in what writing report records may change, and its trace only grew. -/
structure RepStep (d d' : Dev) : Prop where
  dev : d' = { Dev.ringed d d' with imp := { d.imp with streams := d'.imp.streams } }
  out : ∃ pre, d'.out = pre ++ d.out
  inflight : d'.rings.inflight = d.rings.inflight
  source : ∀ k, (d'.ring k).source = (d.ring k).source
  ist : ∀ k, ∃ a f, d'.ist k = { d.ist k with awaiting := a, finals := f }

theorem RepStep.refl (d : Dev) : RepStep d d := ⟨rfl, ⟨[], rfl⟩, rfl, fun _ => rfl, fun _ => ⟨_, _, rfl⟩⟩

theorem RepStep.trans {a b c : Dev} (h : RepStep a b) (k : RepStep b c) : RepStep a c := by
  obtain ⟨p, hp⟩ := h.out
  obtain ⟨q, hq⟩ := k.out
  refine ⟨?_, ⟨q ++ p, by rw [hq, hp, List.append_assoc]⟩, k.inflight.trans h.inflight,
    fun n => (k.source n).trans (h.source n), fun n => ?_⟩
  · rw [k.dev, h.dev]; rfl
  · obtain ⟨x, y, e⟩ := h.ist n
    obtain ⟨u, v, e'⟩ := k.ist n
    exact ⟨u, v, by rw [e', e]⟩

theorem RepStep.todo {d d' : Dev} (h : RepStep d d') : d'.flt.todo = d.flt.todo := by rw [h.dev]; rfl

theorem RepStep.entry {d d' : Dev} (h : RepStep d d') (i : Nat) : d'.entry i = d.entry i := by rw [h.dev]; rfl

theorem RepStep.packet {d d' : Dev} (h : RepStep d d') (ref : PktRef) : d'.packet? ref = d.packet? ref := by
  unfold Dev.packet?; rw [h.inflight]

theorem repStep_modRptq (d : Dev) (n f) : RepStep d (d.modRptq n f) :=
  ⟨rfl, ⟨[], rfl⟩, rfl, fun _ => rfl, fun _ => ⟨_, _, rfl⟩⟩

theorem repStep_send (d : Dev) (o) : RepStep d (d.send o) := ⟨rfl, ⟨[o], rfl⟩, rfl, fun _ => rfl, fun _ => ⟨_, _, rfl⟩⟩

theorem repStep_msix (d : Dev) (v) : RepStep d (d.msix v) := ⟨rfl, ⟨[_], rfl⟩, rfl, fun _ => rfl, fun _ => ⟨_, _, rfl⟩⟩

theorem repStep_modRing (d : Dev) (n : Nat) (f : Ring → Ring) (hf : ∀ r, (f r).source = r.source) : RepStep d (d.modRing n f) := by
  refine ⟨rfl, ⟨[], rfl⟩, rfl, fun k => ?_, fun _ => ⟨_, _, rfl⟩⟩
  by_cases h : k = n
  · subst h; rw [Dev.ring_modRing]; exact hf _
  · rw [Dev.ring_modRing_ne _ _ _ _ h]

theorem repStep_modIst (d : Dev) (n : Nat) (f : ImpStream → ImpStream)
    (hf : ∀ x, ∃ a b, f x = { x with awaiting := a, finals := b }) : RepStep d (d.modIst n f) := by
  refine ⟨rfl, ⟨[], rfl⟩, rfl, fun _ => rfl, fun k => ?_⟩
  by_cases h : k = n
  · subst h; rw [Dev.ist_modIst]; exact hf _
  · rw [Dev.ist_modIst_ne _ _ _ _ h]; exact ⟨_, _, rfl⟩

theorem repStep_forL {α : Type} (l : List α) (f : α → Dev → Dev) (hf : ∀ x d, RepStep d (f x d)) (d : Dev) :
    RepStep d (forL l f d) := by
  induction l generalizing d with
  | nil => exact .refl d
  | cons x t ih => exact (hf x d).trans (ih (f x d))

theorem repStep_writeReport (s : Nat) (r : Report) (d : Dev) : RepStep d (d.writeReport s r) := by
  unfold Dev.writeReport
  extract_lets q d1 ring o
  have h1 : RepStep d d1 := (repStep_modRptq _ _ _).trans (repStep_send _ _)
  split
  · unfold Dev.when
    split
    · refine .trans ?_ (repStep_send _ _)
      refine h1.trans ?_
      exact repStep_modRing _ _ _ fun _ => rfl
    · refine h1.trans ?_
      exact repStep_modRing _ _ _ fun _ => rfl
  · exact (h1.trans (repStep_send _ _)).trans (repStep_msix _ _)

theorem repStep_flushReports (s n : Nat) (d : Dev) : RepStep d (Dev.flushReports s n d) := by
  induction n generalizing d with
  | zero => exact .refl d
  | succ n ih =>
    unfold Dev.flushReports
    split
    · exact .refl d
    · split
      · exact ((repStep_modRptq _ _ _).trans (repStep_writeReport _ _ _)).trans (ih _)
      · exact .refl d

theorem repStep_report (s : Nat) (r : Report) (d : Dev) : RepStep d (d.report s r) :=
  (repStep_modRptq _ _ _).trans (repStep_flushReports _ _ _)

theorem repStep_releaseFinals (s n : Nat) (d : Dev) : RepStep d (Dev.releaseFinals s n d) := by
  induction n generalizing d with
  | zero => exact .refl d
  | succ n ih =>
    unfold Dev.releaseFinals
    dsimp only
    split
    · exact (repStep_modIst _ _ _ fun x => ⟨_, _, rfl⟩).trans (repStep_forL _ _ (fun _ _ => repStep_report _ _ _) _)
    · split
      · exact .refl d
      · exact ((repStep_modIst _ _ _ fun x => ⟨_, _, rfl⟩).trans (repStep_report _ _ _)).trans (ih _)

/-- A final report that becomes ready changes the report queues, what waits for it, and the trace. -/
theorem repStep_finalReport (s : Nat) (r : Report) (d : Dev) : RepStep d (d.finalReport s r) :=
  (repStep_modIst _ _ _ fun _ => ⟨_, _, rfl⟩).trans (repStep_releaseFinals _ _ _)

/-- So does a report that becomes due. -/
theorem repStep_dueReport (r : Report) (d : Dev) : RepStep d (d.dueReport r) := by
  unfold Dev.dueReport
  split
  · exact repStep_finalReport _ _ _
  · exact repStep_report _ _ _

/-- What a row leaves in the trace whose effect before its completion wrote reports. -/
theorem completed_rep {s : State} {p : Packet} {g : Dev} (h : s.dev.packet? p.ref = some p)
    (hi : g.packet? p.ref = s.dev.packet? p.ref) (hr : (g.ring p.ring).source = (s.dev.ring p.ring).source)
    (ho : ∃ pre, g.out = pre ++ s.dev.out) (st : Status) (x y : Nat) :
    Completed p st x y s { s with dev := g.complete p.ref st x y } := by
  intro hs
  obtain ⟨pre, ho⟩ := ho
  obtain ⟨q, h1, c, hc, h2⟩ := complete_out g p st x y (hi.trans h) (by rw [hr]; exact hs)
  exact ⟨q ++ pre, by rw [h1, ho, List.append_assoc], c, by simp [hc], h2⟩

/-- The row of a ready packet whose effect on the device is g, with reports, and then its completion. -/
theorem does_rep {op : Nat} {p : Packet} {s : State} (h : Ready op p s) {chk : Packet → Dev → Option Status}
    {f : Packet → Dev → Dev} (hc : chk p s.dev = none) (g : Dev) (st : Status) (x y : Nat)
    (hf : f p s.dev = g.complete p.ref st x y) (hi : g.packet? p.ref = s.dev.packet? p.ref)
    (hr : (g.ring p.ring).source = (s.dev.ring p.ring).source) (ho : ∃ pre, g.out = pre ++ s.dev.out)
    (ht : g.flt.todo = []) :
    opRow op chk (onPkt f) p.ring p.seq s = .next { s with dev := g.complete p.ref st x y } ∧
    Completed p st x y s { s with dev := g.complete p.ref st x y } := by
  refine ⟨?_, completed_rep (ready_packet h) hi hr ho st x y⟩
  rw [opRow_onPkt h hc (by rw [hf, complete_flt]; exact ht)]
  show Host.Outcome.next { s with dev := f p s.dev } = _
  rw [hf]

/-- Changes of the imprints and of the screening add up. -/
theorem frame_trans {d e z : Dev} (h : e = { Dev.ringed d e with imp := e.imp, scr := e.scr })
    (k : z = { Dev.ringed e z with imp := z.imp, scr := z.scr }) : z = { Dev.ringed d z with imp := z.imp, scr := z.scr } := by
  rw [h] at k
  exact k

/-- What cancelling an uncommitted imprint can do. -/
theorem cancel_spec (d : Dev) (i r : Nat) :
    (d.cancel i r).entry i = { d.entry i with st := .cancelled, staged := false, lines := [], held := false, unresolved := false } ∧
    (∀ j, j ≠ i → (d.cancel i r).entry j = d.entry j) ∧
    ((d.cancel i r).ist (d.entry i).stream).queue = (d.ist (d.entry i).stream).queue.filter (fun j => !(j = i)) ∧
    d.cancel i r = { Dev.ringed d (d.cancel i r) with imp := (d.cancel i r).imp, scr := (d.cancel i r).scr } ∧
    (∃ pre, (d.cancel i r).out = pre ++ d.out) ∧ (d.cancel i r).rings.inflight = d.rings.inflight ∧
    (∀ k, ((d.cancel i r).ring k).source = (d.ring k).source) ∧ (d.cancel i r).flt = d.flt ∧
    ((d.entry i).unresolved = false → (d.cancel i r).imp.jobs = d.imp.jobs) ∧
    (d.cancel i r).imp.ring = d.imp.ring ∧ (d.cancel i r).imp.written = d.imp.written := by
  obtain ⟨z, hz⟩ : ∃ z, z = d.cancel i r := ⟨_, rfl⟩
  rw [← hz]
  unfold Dev.cancel at hz
  extract_lets e s' rep d1 d2 at hz
  have a1 : d2.entry i = { d.entry i with st := .cancelled, staged := false, lines := [], held := false, unresolved := false } := by
    show d1.entry i = _
    exact Dev.entry_modEntry ..
  have a2 : ∀ j, j ≠ i → d2.entry j = d.entry j := fun j hj => by
    show d1.entry j = _
    exact Dev.entry_modEntry_ne _ _ _ _ hj
  have a4 : d2 = { Dev.ringed d d2 with imp := d2.imp, scr := d2.scr } := by rfl
  have a3 : (d2.ist s').queue = (d.ist s').queue.filter (fun j => !(j = i)) := by
    show ((d1.unqueue s' i).ist s').queue = _
    unfold Dev.unqueue
    rw [Dev.ist_modIst]; rfl
  split at hz <;> subst hz
  · refine ⟨a1, a2, a3, ?_, ⟨[], rfl⟩, rfl, fun _ => rfl, rfl, fun hu => ?_, rfl, rfl⟩
    exact frame_trans (d := d) (z := d2.afterRecord i rep) a4 (by rfl)
    rename_i hq; exact absurd hu (by rw [show (d.entry i).unresolved = true from hq]; simp)
  · have h := repStep_finalReport s' rep d2
    refine ⟨(h.entry i).trans a1, fun j hj => (h.entry j).trans (a2 j hj), ?_, ?_, h.out, h.inflight, h.source, ?_, fun _ => ?_, ?_, ?_⟩
    · obtain ⟨x, y, e⟩ := h.ist s'
      rw [e]; exact a3
    · refine frame_trans (d := d) (z := d2.finalReport s' rep) a4 ?_
      have hd := h.dev
      generalize d2.finalReport s' rep = z at hd ⊢
      exact hd.trans (by rw [hd]; rfl)
    all_goals (rw [h.dev]; rfl)

end Sys2Proof.Laws
end

