-- ==== Sys2Proof/Laws/Arbiter.lean ====
section
/-! SUPPORT. The maintenance arbiter: its queue stays in order and what it starts conflicts with nothing that runs. -/

namespace Sys2Proof.Laws

open Machine

/-- The list of open activities is in order. -/
def Ordered (l : List Activity) : Prop := ∀ a ∈ l, a.running = true → blocker l a = none

theorem blocker_none_iff (l : List Activity) (a : Activity) :
    blocker l a = none ↔ ∀ b ∈ l.takeWhile (fun b => !(b.id = a.id)), conflicts a b = false := by
  unfold blocker
  simp [List.find?_eq_none]

theorem takeWhile_filter_mem {p q : Activity → Bool} {l : List Activity} {b : Activity}
    (h : b ∈ (l.filter p).takeWhile q) (hq : ∀ x ∈ l, p x = false → q x = true) : b ∈ l.takeWhile q := by
  induction l with
  | nil => simp at h
  | cons c t ih =>
    rw [List.filter_cons] at h
    split at h
    · rw [List.takeWhile_cons] at h ⊢
      split at h
      · rename_i hc
        rw [if_pos hc]
        rcases List.mem_cons.mp h with rfl | h
        · simp
        · exact List.mem_cons_of_mem _ (ih h fun x hx => hq x (by simp [hx]))
      · simp at h
    · rename_i hp
      rw [List.takeWhile_cons, if_pos (hq c (by simp) (by simpa using hp))]
      exact List.mem_cons_of_mem _ (ih h fun x hx => hq x (by simp [hx]))

theorem ordered_filter (l : List Activity) (id : Nat) (h : Ordered l) : Ordered (l.filter (fun a => !(a.id = id))) := by
  intro a ha hr
  have ha' := List.mem_filter.mp ha
  rw [blocker_none_iff]
  intro b hb
  refine (blocker_none_iff l a).mp (h a ha'.1 hr) b (takeWhile_filter_mem hb fun x _ hx => ?_)
  simp only [Bool.not_eq_false', decide_eq_true_eq] at hx
  simp only [Bool.not_eq_true', decide_eq_false_iff_not]
  intro he
  have := ha'.2
  simp only [Bool.not_eq_true', decide_eq_false_iff_not] at this
  omega

/-- One activity marked running. -/
def markRun (id : Nat) (l : List Activity) : List Activity := l.map (fun b => if b.id = id then { b with running := true } else b)

theorem mark_id (id : Nat) (b : Activity) : (if b.id = id then { b with running := true } else b : Activity).id = b.id := by split <;> rfl

theorem mark_conflicts (id : Nat) (a b : Activity) :
    conflicts (if a.id = id then { a with running := true } else a) (if b.id = id then { b with running := true } else b) = conflicts a b := by
  unfold conflicts
  split <;> split <;> rfl

theorem takeWhile_mark (id n : Nat) (l : List Activity) :
    (markRun id l).takeWhile (fun b => !(b.id = n)) = markRun id (l.takeWhile (fun b => !(b.id = n))) := by
  induction l with
  | nil => rfl
  | cons c t ih =>
    unfold markRun at ih ⊢
    rw [List.map_cons, List.takeWhile_cons, List.takeWhile_cons, mark_id]
    split
    · rw [ih, List.map_cons]
    · rfl

theorem blocker_mark (id : Nat) (l : List Activity) (a : Activity) :
    blocker (markRun id l) (if a.id = id then { a with running := true } else a) = none ↔ blocker l a = none := by
  rw [blocker_none_iff, blocker_none_iff, mark_id, takeWhile_mark]
  constructor
  · intro h b hb
    have := h _ (List.mem_map_of_mem hb)
    rwa [mark_conflicts] at this
  · intro h b hb
    obtain ⟨c, hc, rfl⟩ := List.mem_map.mp hb
    rw [mark_conflicts]; exact h c hc

theorem blocker_id {l : List Activity} {a b : Activity} (h : a.id = b.id) (ha : a ∈ l) (hb : b ∈ l)
    (hn : (l.map (·.id)).Nodup) : a = b := by
  induction l with
  | nil => simp at ha
  | cons c t ih =>
    simp only [List.map_cons, List.nodup_cons] at hn
    rcases List.mem_cons.mp ha with e1 | ha' <;> rcases List.mem_cons.mp hb with e2 | hb'
    · rw [e1, e2]
    · exact absurd (List.mem_map_of_mem (f := (·.id)) hb') (by rw [← h, e1]; exact hn.1)
    · exact absurd (List.mem_map_of_mem (f := (·.id)) ha') (by rw [h, e2]; exact hn.1)
    · exact ih ha' hb' hn.2

theorem ids_mark (id : Nat) (l : List Activity) : (markRun id l).map (·.id) = l.map (·.id) := by
  unfold markRun
  rw [List.map_map]
  exact List.map_congr_left fun b _ => mark_id id b

theorem ordered_mark (l : List Activity) (x : Activity) (hx : x ∈ l) (hf : blocker l x = none)
    (hn : (l.map (·.id)).Nodup) (h : Ordered l) : Ordered (markRun x.id l) := by
  intro a ha hr
  obtain ⟨c, hc, rfl⟩ := List.mem_map.mp ha
  rw [blocker_mark]
  by_cases he : c.id = x.id
  · rw [blocker_id he hc hx hn]; exact hf
  · rw [if_neg he] at hr
    exact h c hc hr

theorem complete_acts (d : Dev) (ref : PktRef) (st : Status) (a b : Nat) : (d.complete ref st a b).sched = d.sched := complete_sched ..

theorem completeQ_acts (d : Dev) (ref : Option PktRef) (st : Status) (a b : Nat) : (d.complete? ref st a b).sched = d.sched := by
  cases ref with
  | none => rfl
  | some r => exact complete_sched ..

theorem answerQueries_acts (d : Dev) (id st o : Nat) : (d.answerQueries id st o).sched = d.sched := by
  unfold Dev.answerQueries
  exact forL_keep Dev.sched (fun _ _ => complete_sched ..) _ _

theorem closeAct_acts (d : Dev) (id : Nat) (o : Status) :
    (d.closeAct id o).sched.acts = d.sched.acts.filter (fun a => !(a.id = id)) := by
  unfold Dev.closeAct
  rw [answerQueries_acts]

theorem finishAct_acts (d : Dev) (a : Activity) (o : Status) :
    (d.finishAct a o).sched.acts = d.sched.acts.filter (fun b => !(b.id = a.id)) := by
  unfold Dev.finishAct
  rw [completeQ_acts, closeAct_acts]

theorem sendFrame_sched (d : Dev) (p t : Nat) (l : Int) (k : Nat) (f : List Nat) : (d.sendFrame p t l k f).sched = d.sched := rfl

theorem sendSlot_sched (d : Dev) (p k : Nat) : (d.sendSlot p k).sched = d.sched := by
  unfold Dev.sendSlot
  exact (sendFrame_sched ..).trans (forL_keep Dev.sched (fun _ _ => sendFrame_sched ..) _ _)

/-- An activity that begins to run stays open, or is closed at once. -/
theorem beginAct_acts (d : Dev) (a : Activity) :
    (d.beginAct a).sched.acts = d.sched.acts ∨ (d.beginAct a).sched.acts = d.sched.acts.filter (fun b => !(b.id = a.id)) := by
  unfold Dev.beginAct
  generalize hd : d.answerQueries a.id 1 0 = e
  have he : e.sched = d.sched := by rw [← hd]; exact answerQueries_acts _ _ _ _
  rw [← he]
  clear hd he
  dsimp only
  have hb : ∀ o p, (e.handBegin a.res o p).sched = e.sched := by
    intro o p; unfold Dev.handBegin; dsimp only; split <;> rfl
  split
  · split
    · left; rw [sendSlot_sched]; rfl
    · right; exact finishAct_acts _ _ _
  · left; rw [completeQ_acts]; rfl
  · split
    · right; exact finishAct_acts _ _ _
    · split
      · right; exact finishAct_acts _ _ _
      · split
        · left; exact congrArg Sched.acts (hb _ _)
        · right; rw [finishAct_acts, hb]
  · split
    · left; rfl
    · right; rw [finishAct_acts]; rfl
  · left; rfl

/-- Activities that wait. -/
def waiting (l : List Activity) : Nat := (l.filter (fun a => !a.running)).length

theorem waiting_filter (l : List Activity) (p : Activity → Bool) : waiting (l.filter p) ≤ waiting l := by
  unfold waiting
  rw [List.filter_filter]
  refine List.Sublist.length_le ?_
  exact List.monotone_filter_right _ (by intro a; simp; intro h _; exact h)

theorem waiting_mark {l : List Activity} {x : Activity} (hx : x ∈ l) (hr : x.running = false) :
    waiting (markRun x.id l) < waiting l := by
  have hle : ∀ t : List Activity, waiting (markRun x.id t) ≤ waiting t := by
    intro t
    induction t with
    | nil => exact Nat.le_refl _
    | cons c t ih =>
      unfold waiting markRun at ih ⊢
      simp only [List.map_cons, List.filter_cons]
      by_cases hc : c.id = x.id
      · rw [if_pos hc]
        simp only [Bool.not_true, Bool.false_eq_true, if_false]
        split
        · simp only [List.length_cons]; omega
        · exact ih
      · rw [if_neg hc]
        split
        · simp only [List.length_cons]; omega
        · exact ih
  induction l with
  | nil => simp at hx
  | cons c t ih =>
    by_cases hc : c.id = x.id
    · have ht := hle t
      rcases List.mem_cons.mp hx with rfl | hx
      · unfold waiting markRun at ht ⊢
        simp only [List.map_cons, List.filter_cons, if_true, hr, Bool.not_true, Bool.false_eq_true, if_false, Bool.not_false,
          List.length_cons]
        omega
      · have := ih hx
        unfold waiting markRun at this ⊢
        simp only [List.map_cons, List.filter_cons, if_pos hc, Bool.not_true, Bool.false_eq_true, if_false]
        split
        · simp only [List.length_cons]; omega
        · exact this
    · rcases List.mem_cons.mp hx with rfl | hx
      · exact absurd rfl hc
      · have := ih hx
        unfold waiting markRun at this ⊢
        simp only [List.map_cons, List.filter_cons, if_neg hc]
        split
        · simp only [List.length_cons]; omega
        · exact this

theorem nodup_filter {l : List Activity} (p : Activity → Bool) (h : (l.map (·.id)).Nodup) : ((l.filter p).map (·.id)).Nodup :=
  List.Sublist.nodup (List.Sublist.map _ List.filter_sublist) h

/-- What letting queued activities run gives. -/
theorem pump_spec (n : Nat) (d : Dev) (h : (d.sched.acts.map (·.id)).Nodup ∧ Ordered d.sched.acts) :
    (((d.pumpActs n).sched.acts.map (·.id)).Nodup ∧ Ordered (d.pumpActs n).sched.acts) ∧
    (waiting d.sched.acts < n → ∀ a ∈ (d.pumpActs n).sched.acts, a.running = false → blocker (d.pumpActs n).sched.acts a ≠ none) := by
  induction n generalizing d with
  | zero => exact ⟨h, fun hn => absurd hn (by omega)⟩
  | succ n ih =>
    unfold Dev.pumpActs
    split
    · rename_i hf
      refine ⟨h, fun _ a ha hr hb => ?_⟩
      have := List.find?_eq_none.mp hf a ha
      simp [hr, hb] at this
    · rename_i x hf
      have hx := List.mem_of_find?_eq_some hf
      have hp := List.find?_some hf
      simp only [Bool.and_eq_true, Bool.not_eq_true', Option.isNone_iff_eq_none] at hp
      generalize he : ({ d with sched := { d.sched with
          acts := d.sched.acts.map (fun (b : Activity) => if b.id = x.id then { b with running := true } else b) } } : Dev) = e
      have ha : e.sched.acts = markRun x.id d.sched.acts := by rw [← he]; rfl
      have h1 : (e.sched.acts.map (·.id)).Nodup ∧ Ordered e.sched.acts := by
        rw [ha, ids_mark]; exact ⟨h.1, ordered_mark _ x hx hp.2 h.1 h.2⟩
      have h2 : waiting e.sched.acts < waiting d.sched.acts := by rw [ha]; exact waiting_mark hx hp.1
      have h3 : ((e.beginAct x).sched.acts.map (·.id)).Nodup ∧ Ordered (e.beginAct x).sched.acts ∧
          waiting (e.beginAct x).sched.acts ≤ waiting e.sched.acts := by
        rcases beginAct_acts e x with hq | hq <;> rw [hq]
        · exact ⟨h1.1, h1.2, Nat.le_refl _⟩
        · exact ⟨nodup_filter _ h1.1, ordered_filter _ _ h1.2, waiting_filter _ _⟩
      obtain ⟨k1, k2⟩ := ih (e.beginAct x) ⟨h3.1, h3.2.1⟩
      exact ⟨k1, fun hn => k2 (by omega)⟩

theorem end_spec (d : Dev) (id : Nat) (st : Status) (h : (d.sched.acts.map (·.id)).Nodup ∧ Ordered d.sched.acts) :
    (((d.endAct id st).sched.acts.map (·.id)).Nodup ∧ Ordered (d.endAct id st).sched.acts) ∧
    (∀ a ∈ (d.endAct id st).sched.acts, a.running = false → blocker (d.endAct id st).sched.acts a ≠ none) := by
  unfold Dev.endAct
  dsimp only
  have hc := closeAct_acts d id st
  obtain ⟨k1, k2⟩ := pump_spec ((d.closeAct id st).sched.acts.length + 1) (d.closeAct id st) (by
    rw [hc]; exact ⟨nodup_filter _ h.1, ordered_filter _ _ h.2⟩)
  exact ⟨k1, k2 (Nat.lt_succ_of_le (List.length_filter_le _ _))⟩

theorem conflicts_symm (a b : Activity) : conflicts a b = conflicts b a := by
  unfold conflicts
  rw [Nat.and_comm a.res b.res]
  have e1 : decide (a.res = b.res) = decide (b.res = a.res) := by simp [eq_comm]
  rw [e1]
  cases decide (a.kind ≤ 5) <;> cases decide (b.kind ≤ 5) <;> cases decide (a.kind = 6) <;> cases decide (a.kind = 7) <;>
    cases decide (b.kind = 6) <;> cases decide (b.kind = 7) <;> cases decide (a.kind = 8) <;> cases decide (b.kind = 8) <;>
    cases decide (a.kind = 4) <;> cases decide (b.kind = 4) <;> simp

/-- Of two activities with different IDs one stands before the other. -/
theorem before_or {l : List Activity} {a b : Activity} (ha : a ∈ l) (hb : b ∈ l) (hne : a.id ≠ b.id) (hn : (l.map (·.id)).Nodup) :
    a ∈ l.takeWhile (fun c => !(c.id = b.id)) ∨ b ∈ l.takeWhile (fun c => !(c.id = a.id)) := by
  induction l with
  | nil => simp at ha
  | cons c t ih =>
    simp only [List.map_cons, List.nodup_cons] at hn
    simp only [List.takeWhile_cons]
    rcases List.mem_cons.mp ha with e1 | ha'
    · left; subst e1; simp [hne]
    · rcases List.mem_cons.mp hb with e2 | hb'
      · right; subst e2; simp [Ne.symm hne]
      · have h1 : c.id ≠ a.id := fun h => hn.1 (h ▸ List.mem_map_of_mem (f := (·.id)) ha')
        have h2 : c.id ≠ b.id := fun h => hn.1 (h ▸ List.mem_map_of_mem (f := (·.id)) hb')
        rcases ih ha' hb' hn.2 with h | h
        · left; simp [h2]; exact Or.inr (by simpa using h)
        · right; simp [h1]; exact Or.inr (by simpa using h)

end Sys2Proof.Laws
end

