-- ==== Sys2Proof/Laws/Sequencer.lean ====
section
/-! SUPPORT. What the rail sequencer can do: it changes the power registers, the shedding stage, the boot stage, the PCIe link and
what completing a packet changes; its trace only grows. -/

namespace Sys2Proof.Laws

open Machine

/-- What a step of the rail sequencer may change. -/
structure SeqStep (d d' : Dev) : Prop where
  dev : d' = { d with
    pwr := d'.pwr, sched := { d.sched with stage := d'.sched.stage }, rings := d'.rings, out := d'.out,
    sys := { d.sys with stage := d'.sys.stage, pcieUp := d'.sys.pcieUp, mbox := d'.sys.mbox, irqPending := d'.sys.irqPending } }
  out : ∃ pre, d'.out = pre ++ d.out

theorem SeqStep.refl (d : Dev) : SeqStep d d := ⟨rfl, [], rfl⟩

theorem SeqStep.trans {a b c : Dev} (h : SeqStep a b) (k : SeqStep b c) : SeqStep a c := by
  obtain ⟨h1, p, h2⟩ := h
  obtain ⟨k1, q, k2⟩ := k
  refine ⟨?_, q ++ p, by rw [k2, h2, List.append_assoc]⟩
  rw [k1, h1]

theorem SeqStep.flt {d d' : Dev} (h : SeqStep d d') : d'.flt = d.flt := by rw [h.dev]

theorem SeqStep.powered {d d' : Dev} (h : SeqStep d d') : d'.sys.powered = d.sys.powered := by rw [h.dev]

theorem seqStep_ring {d d' : Dev} (h : RingStep d d') : SeqStep d d' := by
  obtain ⟨h1, h2⟩ := h
  refine ⟨?_, h2⟩
  rw [h1]; rfl

theorem seqStep_pwr (d : Dev) (x : Pwr) : SeqStep d { d with pwr := x } := ⟨rfl, [], rfl⟩

theorem seqStep_modRail (d : Dev) (n f) : SeqStep d (d.modRail n f) := ⟨rfl, [], rfl⟩

theorem seqStep_modDom (d : Dev) (n f) : SeqStep d (d.modDom n f) := ⟨rfl, [], rfl⟩

theorem seqStep_send (d : Dev) (o) : SeqStep d (d.send o) := ⟨rfl, [o], rfl⟩

theorem seqStep_stage (d : Dev) (x) : SeqStep d { d with sys := { d.sys with stage := x } } := ⟨rfl, [], rfl⟩

theorem seqStep_forL {α : Type} (l : List α) (f : α → Dev → Dev) (hf : ∀ x d, SeqStep d (f x d)) (d : Dev) :
    SeqStep d (forL l f d) := by
  induction l generalizing d with
  | nil => exact .refl d
  | cons x t ih => exact (hf x d).trans (ih (f x d))

theorem seqStep_forN (n : Nat) (f : Nat → Dev → Dev) (hf : ∀ x d, SeqStep d (f x d)) (d : Dev) : SeqStep d (forN n f d) :=
  seqStep_forL (List.range n) f hf d

theorem seqStep_updSrst (d : Dev) : SeqStep d d.updSrst := by
  unfold Dev.updSrst
  refine seqStep_forN _ _ (fun k e => ?_) d
  dsimp only
  split
  · exact ⟨rfl, [_], rfl⟩
  · exact .refl e

theorem seqStep_penOut (n : Nat) (b : Bool) (d : Dev) : SeqStep d (d.penOut n b) := ⟨rfl, [_], rfl⟩

theorem seqStep_railStep (n : Nat) (d : Dev) : SeqStep d (d.railStep n) := ⟨rfl, [_], rfl⟩

theorem seqStep_railFall (n : Nat) (d : Dev) : SeqStep d (d.railFall n) :=
  (((seqStep_penOut n false d).trans (seqStep_modRail _ n _)).trans (seqStep_updSrst _)).trans (seqStep_pwr _ _)

theorem seqStep_holdDomains (d : Dev) : SeqStep d d.holdDomains := by
  have h : SeqStep d (forN 11 (fun k d => d.modDom (k + 1) (fun _ => .reset)) d) :=
    seqStep_forN _ _ (fun k e => seqStep_modDom e (k + 1) _) d
  exact h.trans ⟨rfl, [], rfl⟩

theorem seqStep_complete? (d : Dev) (ref : Option PktRef) (st a b) : SeqStep d (d.complete? ref st a b) := by
  unfold Dev.complete?
  cases ref with
  | none => exact .refl d
  | some q => exact seqStep_ring (ringStep_complete d q st a b)

theorem seqStep_seqDone (d : Dev) : SeqStep d d.seqDone := by
  unfold Dev.seqDone
  dsimp only
  refine (seqStep_pwr d { d.pwr with seqKind := .idle, seqTodo := [], seqRef := none, seqMask := 0, seqAbort := false }).trans ?_
  cases d.pwr.seqKind with
  | powerUp => exact seqStep_complete? ..
  | shutdown => exact seqStep_complete? ..
  | timedShutdown =>
    dsimp only
    split
    · exact (seqStep_holdDomains _).trans (seqStep_pwr _ _)
    · exact (seqStep_holdDomains _).trans ⟨rfl, [], rfl⟩
  | boot =>
    dsimp only
    split
    · exact seqStep_stage _ _
    · exact seqStep_pwr _ _
  | idle => exact .refl _
  | safeShutdown => exact .refl _

theorem seqStep_seqNext (n : Nat) (d : Dev) : SeqStep d (Dev.seqNext n d) := by
  induction n generalizing d with
  | zero => exact seqStep_seqDone d
  | succ n ih =>
    unfold Dev.seqNext
    cases d.pwr.seqTodo with
    | nil => exact seqStep_seqDone d
    | cons a t =>
      dsimp only
      refine (seqStep_pwr d { d.pwr with seqTodo := t }).trans ?_
      split
      · split
        · exact seqStep_railStep a _
        · exact ((seqStep_modRail _ a _).trans (seqStep_modRail _ a _)).trans (ih _)
      · split
        · exact seqStep_railFall a _
        · exact ih _

theorem seqStep_seqBegin (q : SeqReq) (d : Dev) : SeqStep d (d.seqBegin q) := by
  unfold Dev.seqBegin
  dsimp only
  refine SeqStep.trans ?_ (seqStep_seqNext 17 _)
  split
  · exact (seqStep_pwr d _).trans (seqStep_forL _ _ (fun n e => seqStep_modRail e n _) _)
  · exact seqStep_pwr d _

theorem seqStep_seqPump (n : Nat) (d : Dev) : SeqStep d (Dev.seqPump n d) := by
  induction n generalizing d with
  | zero => exact .refl d
  | succ n ih =>
    unfold Dev.seqPump
    split
    · split
      · exact .refl d
      · exact ((seqStep_pwr d _).trans (seqStep_seqBegin _ _)).trans (ih _)
    · exact .refl d

theorem seqStep_seqGo (d : Dev) : SeqStep d d.seqGo := (seqStep_seqNext 17 d).trans (seqStep_seqPump 40 _)

theorem seqStep_seqRequest (q : SeqReq) (d : Dev) : SeqStep d (d.seqRequest q) := by
  unfold Dev.seqRequest
  dsimp only
  refine SeqStep.trans ?_ (seqStep_seqPump 40 _)
  generalize (if (!(decide (q.kind = .powerUp) || decide (q.kind = .boot)) && (decide (d.pwr.seqKind = .powerUp) ||
    decide (q.kind = .safeShutdown) || decide (q.kind = .timedShutdown))) = true then q :: d.pwr.seqWaiting
    else d.pwr.seqWaiting ++ [q]) = w
  refine (seqStep_pwr d { d.pwr with seqWaiting := w }).trans ?_
  split
  · exact (seqStep_forL _ _ (fun n e => seqStep_modRail e n _) _).trans (seqStep_pwr _ _)
  · exact .refl _

theorem seqStep_bootRails (d : Dev) : SeqStep d d.bootRails := by
  unfold Dev.bootRails
  refine SeqStep.trans ?_ (seqStep_seqRequest _ _)
  exact ⟨rfl, [], rfl⟩

theorem seqStep_timedShutdown (d : Dev) : SeqStep d d.timedShutdown := by
  unfold Dev.timedShutdown
  split
  · exact .refl d
  · exact (seqStep_pwr d _).trans (seqStep_seqRequest _ _)

end Sys2Proof.Laws
end

