-- ==== Sys2Proof/Laws/Boot.lean ====
section
/-! SUPPORT. What a cold reset, a failed start, the domains' release and Saddle mode do. -/

namespace Sys2Proof.Laws

open Machine

theorem pins_frame (n : Nat) (p : Pin) (b : Bool) (d : Dev) :
    forN n (fun k d => d.pin p k b) d = { d with out := (forN n (fun k d => d.pin p k b) d).out } := by
  induction n with
  | zero => rfl
  | succ n ih => rw [forN_succ, ih]; rfl

theorem seqStep_enabledDoms (d : Dev) : SeqStep d (forN 11 (fun k d => d.modDom (k + 1) (fun _ => .on)) d) :=
  seqStep_forN _ _ (fun k e => seqStep_modDom e (k + 1) _) d

/-- A cold reset leaves every unit below PD_0 at its reset value, but for what lies in fuses. -/
theorem coldBoot_units (c : Nat) (s : State) :
    (s.coldBoot c).dev.ing = Ingest.reset ∧ (s.coldBoot c).dev.codec = Codec.reset ∧ (s.coldBoot c).dev.scr = Scr.reset ∧
    (s.coldBoot c).dev.noz = Noz.reset ∧ (s.coldBoot c).dev.fire = Fire.reset ∧ (s.coldBoot c).dev.time = Time.reset ∧
    (s.coldBoot c).dev.mot = Mot.reset ∧ (s.coldBoot c).dev.bl = Bl.reset ∧ (s.coldBoot c).dev.ddr = Ddr.reset ∧
    (s.coldBoot c).dev.banks = [] ∧ (s.coldBoot c).dev.hl = { Hl.reset with fuses := s.dev.hl.fuses, fuseDone := s.dev.hl.fuseDone } ∧
    (s.coldBoot c).dev.sched = { Sched.reset with stage := (s.coldBoot c).dev.sched.stage } ∧
    (s.coldBoot c).dev.sys.irqMask = 0 := by
  obtain ⟨z, hz⟩ : ∃ z, z = forN 4 (fun k d => d.pin .srst k true) (s.dev.coldReset c) := ⟨_, rfl⟩
  have h0 : (s.coldBoot c).dev = z.bootRails := by
    have : s.coldBoot c = { s with dev := z.bootRails, mem := { s.mem with sram := [] } } := by rw [hz]; rfl
    rw [this]
  rw [pins_frame] at hz
  have hs := (seqStep_bootRails z).dev
  obtain ⟨y, hy⟩ : ∃ y, y = z.bootRails := ⟨_, rfl⟩
  rw [h0, ← hy]
  rw [← hy] at hs
  have hz' : z = { s.dev.coldReset c with out := z.out } := hz.trans (by rw [hz])
  have hr : s.dev.coldReset c = { s.dev.keptCold with sys := (s.dev.coldReset c).sys, flt := (s.dev.coldReset c).flt } := rfl
  have hm : (s.dev.coldReset c).sys.irqMask = 0 := by unfold Dev.coldReset; dsimp only; split <;> rfl
  refine ⟨?_, ?_, ?_, ?_, ?_, ?_, ?_, ?_, ?_, ?_, ?_, ?_, ?_⟩
  · exact (congrArg Dev.ing hs).trans ((congrArg Dev.ing hz').trans (congrArg Dev.ing hr))
  · exact (congrArg Dev.codec hs).trans ((congrArg Dev.codec hz').trans (congrArg Dev.codec hr))
  · exact (congrArg Dev.scr hs).trans ((congrArg Dev.scr hz').trans (congrArg Dev.scr hr))
  · exact (congrArg Dev.noz hs).trans ((congrArg Dev.noz hz').trans (congrArg Dev.noz hr))
  · exact (congrArg Dev.fire hs).trans ((congrArg Dev.fire hz').trans (congrArg Dev.fire hr))
  · exact (congrArg Dev.time hs).trans ((congrArg Dev.time hz').trans (congrArg Dev.time hr))
  · exact (congrArg Dev.mot hs).trans ((congrArg Dev.mot hz').trans (congrArg Dev.mot hr))
  · exact (congrArg Dev.bl hs).trans ((congrArg Dev.bl hz').trans (congrArg Dev.bl hr))
  · exact (congrArg Dev.ddr hs).trans ((congrArg Dev.ddr hz').trans (congrArg Dev.ddr hr))
  · exact (congrArg Dev.banks hs).trans ((congrArg Dev.banks hz').trans (congrArg Dev.banks hr))
  · exact (congrArg Dev.hl hs).trans ((congrArg Dev.hl hz').trans (congrArg Dev.hl hr))
  · have h1 : z.sched = Sched.reset := (congrArg Dev.sched hz').trans (congrArg Dev.sched hr)
    have h2 : y.sched = { z.sched with stage := y.sched.stage } := congrArg Dev.sched hs
    rw [h1] at h2; exact h2
  · have h1 : y.sys.irqMask = z.sys.irqMask := by rw [hs]
    have h2 : z.sys.irqMask = (s.dev.coldReset c).sys.irqMask := by rw [hz']
    rw [h1, h2, hm]

/-- A cold reset and the start of the boot. -/
theorem coldBoot_spec (c : Nat) (s : State) : ColdBooted c s (s.coldBoot c) := by
  obtain ⟨z, hz⟩ : ∃ z, z = forN 4 (fun k d => d.pin .srst k true) (s.dev.coldReset c) := ⟨_, rfl⟩
  have h0 : s.coldBoot c = { s with dev := z.bootRails, mem := { s.mem with sram := [] } } := by rw [hz]; rfl
  rw [pins_frame] at hz
  have hs := seqStep_bootRails z
  have hsys : z.sys = (s.dev.coldReset c).sys := by rw [hz]
  have hflt : z.flt = (s.dev.coldReset c).flt := by rw [hz]
  rw [h0]
  refine ⟨rfl, rfl, ?_, ?_, ?_, ?_, ?_, ?_, ?_, ?_, ?_, z, by rw [hz]; rfl, rfl⟩
  · show z.bootRails.sys.powered = true
    rw [hs.dev]; show z.sys.powered = true
    rw [hsys]; unfold Dev.coldReset; dsimp only; split <;> rfl
  · show z.bootRails.sys.resetCause = c
    rw [hs.dev]; show z.sys.resetCause = c
    rw [hsys]; unfold Dev.coldReset; dsimp only; split
    · rename_i h; exact h.symm
    · rfl
  · show z.bootRails.sys.perstReleased = _
    rw [hs.dev]; show z.sys.perstReleased = _
    rw [hsys]; unfold Dev.coldReset; dsimp only; split <;> rfl
  · show z.bootRails.sys.failedStarts = _
    rw [hs.dev]; show z.sys.failedStarts = _
    rw [hsys]; unfold Dev.coldReset; dsimp only; split <;> rfl
  · show z.bootRails.flt.log = _
    rw [hs.flt, hflt]; rfl
  · show z.bootRails.flt.todo = []
    rw [hs.flt, hflt]; rfl
  · show z.bootRails.imp.ring = _
    rw [hs.dev]; show z.imp.ring = _
    rw [hz]; rfl
  · show z.bootRails.hl.fuses = _
    rw [hs.dev]; show z.hl.fuses = _
    rw [hz]; rfl
  · show z.bootRails.wear.saved = _
    rw [hs.dev]; show z.wear.saved = _
    rw [hz]; rfl

theorem forN_modDom_at (n : Nat) (x : Dom) (d : Dev) (k : Nat) :
    (forN n (fun k d => d.modDom (k + 1) (fun _ => x)) d).dom k = if 1 ≤ k ∧ k ≤ n then x else d.dom k := by
  induction n with
  | zero => rw [if_neg (by omega)]; rfl
  | succ n ih =>
    rw [forN_succ]
    by_cases h : k = n + 1
    · subst h; rw [Dev.dom_modDom, if_pos (by omega)]
    · rw [Dev.dom_modDom_ne _ _ _ _ h, ih]
      by_cases q : 1 ≤ k ∧ k ≤ n
      · rw [if_pos q, if_pos (by omega)]
      · rw [if_neg q, if_neg (by omega)]

theorem forN_modDom_frame (n : Nat) (x : Dom) (d : Dev) :
    forN n (fun k d => d.modDom (k + 1) (fun _ => x)) d =
      { d with pwr := (forN n (fun k d => d.modDom (k + 1) (fun _ => x)) d).pwr } := by
  induction n with
  | zero => rfl
  | succ n ih => rw [forN_succ, ih]; rfl

/-- The frame of the release of the domains. -/
def DomStep (d d' : Dev) : Prop :=
  d' = { d with pwr := d'.pwr, flt := d'.flt } ∧ d'.flt.todo = d.flt.todo ∧ d'.flt.log = d.flt.log

theorem DomStep.trans {a b c : Dev} (h : DomStep a b) (k : DomStep b c) : DomStep a c := by
  refine ⟨?_, k.2.1.trans h.2.1, k.2.2.trans h.2.2⟩
  rw [k.1, h.1]

theorem domStep_dropSources (k : Nat) (d : Dev) : DomStep d (d.dropSources k) := by
  unfold Dev.dropSources
  generalize (List.range 248).filter _ = l
  induction l generalizing d with
  | nil => exact ⟨rfl, rfl, rfl⟩
  | cons a t ih => exact DomStep.trans ⟨rfl, rfl, rfl⟩ (ih _)

theorem domStep_forN (n : Nat) (f : Nat → Dev → Dev) (hf : ∀ k d, DomStep d (f k d)) (d : Dev) : DomStep d (forN n f d) := by
  induction n with
  | zero => exact ⟨rfl, rfl, rfl⟩
  | succ n ih => rw [forN_succ]; exact ih.trans (hf n _)

/-- What Saddle mode changes of the device. -/
theorem saddle_spec (r : Nat) (d : Dev) :
    (d.saddle r).sys.stage = (if r = 1 then .noImage else .saddle) ∧ (d.saddle r).sys.saddleReason = r ∧
    (d.saddle r).flt.todo = d.flt.todo ∧ (d.saddle r).flt.log = d.flt.log ∧
    d.saddle r = { d with
      pwr := (d.saddle r).pwr, flt := (d.saddle r).flt, sched := { d.sched with stage := (d.saddle r).sched.stage },
      rings := (d.saddle r).rings, out := (d.saddle r).out,
      sys := { d.sys with
        stage := (d.saddle r).sys.stage, saddleReason := (d.saddle r).sys.saddleReason, pcieUp := (d.saddle r).sys.pcieUp,
        mbox := (d.saddle r).sys.mbox, irqPending := (d.saddle r).sys.irqPending } } := by
  obtain ⟨z, hz⟩ : ∃ z, z = forN 11 (fun k d =>
      if (k + 1 = 5 || k + 1 = 8 || (k + 1 = 7 && !(r = 2 || r = 3))) = true then d.modDom (k + 1) (fun _ => Dom.on)
      else (d.modDom (k + 1) (fun _ => Dom.off)).dropSources (k + 1)) d := ⟨_, rfl⟩
  have hd : DomStep d z := by
    rw [hz]
    refine domStep_forN _ _ (fun k e => ?_) d
    split
    · exact ⟨rfl, rfl, rfl⟩
    · exact DomStep.trans ⟨rfl, rfl, rfl⟩ (domStep_dropSources _ _)
  obtain ⟨y, hy⟩ : ∃ y, y = (if (z.enabledWith 0xFFE0).isEmpty = true then z
      else z.seqRequest { kind := .shutdown, mask := maskOf (z.enabledWith 0xFFE0), ref := none }) := ⟨_, rfl⟩
  have hs : SeqStep z y := by
    rw [hy]; split
    · exact .refl z
    · exact seqStep_seqRequest _ z
  have h0 : d.saddle r =
      { y with sys := { y.sys with stage := if r = 1 then .noImage else .saddle, saddleReason := r } }.msix 1 := by
    unfold Dev.saddle
    dsimp only
    rw [← hz, ← hy]
  obtain ⟨h1, h2, h3⟩ := hd
  have h4 := hs.dev
  rw [h0]
  refine ⟨rfl, rfl, ?_, ?_, ?_⟩
  · show y.flt.todo = _
    rw [h4, ← h2]
  · show y.flt.log = _
    rw [h4, ← h3]
  · rw [h4, h1]; rfl

/-- What the release of the domains after the clocks have locked does. -/
theorem domainsUp_spec (s : State) :
    s.domainsUp.pending = s.pending ∧ s.domainsUp.mem = { s.mem with sram := [] } ∧ s.domainsUp.dev.sys = { s.dev.sys with
      stage := .ddrTrain, addr := s.mem.calAddr.getD 0, addrValid := s.mem.calAddr.isSome, pcieUp := s.dev.sys.perstReleased,
      mac0 := s.mem.mac 0, mac1 := s.mem.mac 1 } ∧
    s.domainsUp.dev.flt = s.dev.flt ∧ s.domainsUp.dev.time = s.dev.time ∧ s.domainsUp.dev.ddr = s.mem.ddr ∧
    s.domainsUp.dev.banks = [] ∧ ∀ k, s.domainsUp.dev.dom k = if 1 ≤ k ∧ k ≤ 11 then .on else s.dev.dom k := by
  obtain ⟨z, hz⟩ : ∃ z, z = forN 11 (fun k d => d.modDom (k + 1) (fun _ => Dom.on)) s.dev := ⟨_, rfl⟩
  have hk : z = { s.dev with pwr := z.pwr } := by
    rw [hz]
    exact forN_modDom_frame 11 _ s.dev
  have h0 : s.domainsUp = { s with
    dev := { (z.modPll 1 (fun x => { x with fbDiv := ddrFb s.mem.ddr.speed, aFb := ddrFb s.mem.ddr.speed, frac := 0, aFrac := 0 })) with
      sys := { z.sys with
        stage := .ddrTrain, addr := s.mem.calAddr.getD 0, addrValid := s.mem.calAddr.isSome, pcieUp := z.sys.perstReleased,
        mac0 := s.mem.mac 0, mac1 := s.mem.mac 1 },
      ddr := s.mem.ddr, banks := [] },
    mem := { s.mem with sram := [] } } := by rw [hz]; rfl
  rw [h0]
  refine ⟨rfl, rfl, ?_, ?_, ?_, rfl, rfl, fun k => ?_⟩
  · show ({ z.sys with
        stage := .ddrTrain, addr := s.mem.calAddr.getD 0, addrValid := s.mem.calAddr.isSome, pcieUp := z.sys.perstReleased,
        mac0 := s.mem.mac 0, mac1 := s.mem.mac 1 } : Sys) = _
    rw [hk]
  · show z.flt = _
    rw [hk]
  · show z.time = _
    rw [hk]
  · show z.dom k = _
    rw [hz]; exact forN_modDom_at 11 .on s.dev k

/-- Saddle mode's last act is vector 1. -/
theorem saddle_vector (r : Nat) (d : Dev) : ∃ l, (d.saddle r).out = Out.msix 1 :: l := by
  unfold Dev.saddle
  exact ⟨_, rfl⟩

theorem unitsReset_spec (d : Dev) :
    d.unitsReset.sys = d.sys ∧ d.unitsReset.clk = d.clk ∧ d.unitsReset.flt.todo = d.flt.todo ∧
    d.unitsReset.time.tb2 = d.time.tb2 ∧ d.unitsReset.flt.log = d.flt.log := by
  obtain ⟨z, hz⟩ : ∃ z, z = forN 11 (fun k d => (d.modDom (k + 1) (fun _ => Dom.reset)).dropSources (k + 1)) d := ⟨_, rfl⟩
  have hd : DomStep d z := by
    rw [hz]
    exact domStep_forN _ _ (fun k e => (show DomStep e (e.modDom (k + 1) fun _ => Dom.reset) from ⟨rfl, rfl, rfl⟩).trans (domStep_dropSources _ _)) d
  have h0 : d.unitsReset = { z.keptCold with
      sys := z.sys, pwr := z.pwr, clk := z.clk, flt := z.flt,
      time := { Time.reset with tb2 := z.time.tb2 },
      sched := { Sched.reset with therm := z.sched.therm, throttleC := z.sched.throttleC, limitC := z.sched.limitC } } := by
    unfold Dev.unitsReset
    dsimp only
    rw [← hz]
  obtain ⟨h1, h2, h3⟩ := hd
  have a1 : z.sys = d.sys := by rw [h1]
  have a2 : z.clk = d.clk := by rw [h1]
  have a4 : z.time.tb2 = d.time.tb2 := by rw [h1]
  rw [h0]
  exact ⟨a1, a2, h2, a4, h3⟩

theorem clocksDone_go {s : State} (hg : s.dev.sys.stage = .clocks) (h : ((s.dev.pll 0).locked && (s.dev.pll 1).locked) = true) :
    s.clocksDone = s.domainsUp := by
  unfold State.clocksDone
  rw [if_pos (by rw [Bool.and_assoc, h, hg]; rfl)]

theorem clocksDone_wait {s : State} (h : s.dev.sys.stage ≠ .clocks ∨ ((s.dev.pll 0).locked && (s.dev.pll 1).locked) = false) :
    s.clocksDone = s := by
  unfold State.clocksDone
  refine if_neg ?_
  rcases h with h | h
  · simp [h]
  · rw [Bool.and_assoc, h]; simp

theorem failReason_ne (x : Sys) : x.failReason ≠ 1 := by
  unfold Sys.failReason
  split
  · decide
  · split
    · decide
    · split <;> decide

/-- What a failed start does. -/
theorem failedStart_spec (s : State) : StartFailed s s.failedStart := by
  obtain ⟨u1, u2, u3, u4, u5⟩ := unitsReset_spec s.dev
  obtain ⟨x, hx⟩ : ∃ x : Sys, x = { s.dev.sys with
    failedStarts := min 15 (s.dev.sys.failedStarts + 1), startStages := (s.dev.sys.stage.code :: s.dev.sys.startStages).take 3,
    resetCause := 9, lockstepSeen := false, warmStarting := false, bootLoading := false, pcieUp := false } := ⟨_, rfl⟩
  obtain ⟨y, hy⟩ : ∃ y, y = s.dev.unitsReset := ⟨_, rfl⟩
  rw [← hy] at u1 u2 u3 u4 u5
  obtain ⟨m, hm⟩ : ∃ m, m = s.mem.dropTrial := ⟨_, rfl⟩
  have hf : m.flash = s.mem.dropTrial.flash := by rw [hm]
  obtain ⟨v, hv⟩ : ∃ v : State, v = { s with mem := { m with sram := [] }, dev := { y with sys := x } } := ⟨_, rfl⟩
  have h0 : s.failedStart = if 3 ≤ x.failedStarts then v.onDev (fun d => { d with ddr := s.dev.ddr }.saddle s.dev.sys.failReason)
        else if s.dev.sys.stage = .rails || s.dev.sys.stage = .rom then v
        else (v.onDev (fun d => { d with sys := { d.sys with stage := .clocks } })).clocksDone := by
    unfold State.failedStart
    dsimp only
    rw [← hy, ← hm, hv, hx]
  clear hm
  have v1 : v.dev.sys = x := by rw [hv]
  have v2 : v.mem.sram = [] := by rw [hv]
  have v3 : v.dev.flt.todo = s.dev.flt.todo := by rw [hv]; exact u3
  have v4 : v.mem.flash = m.flash := by rw [hv]
  have v5 : v.dev.time.tb2 = s.dev.time.tb2 := by rw [hv]; exact u4
  have v6 : v.pending = s.pending := by rw [hv]
  have v7 : v.dev.clk = s.dev.clk := by rw [hv]; exact u2
  clear hv hy
  have x1 : x.failedStarts = min 15 (s.dev.sys.failedStarts + 1) := by rw [hx]
  have x2 : x.startStages = (s.dev.sys.stage.code :: s.dev.sys.startStages).take 3 := by rw [hx]
  have x3 : x.resetCause = 9 := by rw [hx]
  have x4 : x.stage = s.dev.sys.stage := by rw [hx]
  rw [h0]
  by_cases q : 3 ≤ x.failedStarts
  · rw [if_pos q]
    obtain ⟨a1, a2, a3, a4, a5⟩ := saddle_spec s.dev.sys.failReason { v.dev with ddr := s.dev.ddr }
    obtain ⟨e, he⟩ : ∃ e, e = Dev.saddle s.dev.sys.failReason { v.dev with ddr := s.dev.ddr } := ⟨_, rfl⟩
    rw [← he] at a1 a2 a3 a4 a5
    have h1 : v.onDev (fun d => { d with ddr := s.dev.ddr }.saddle s.dev.sys.failReason) = { v with dev := e } := by rw [he]; rfl
    rw [h1]
    have b1 : e.time = v.dev.time := by rw [a5]
    have b2 : e.sys.resetCause = v.dev.sys.resetCause := by rw [a5]
    have b3 : e.sys.failedStarts = v.dev.sys.failedStarts := by rw [a5]
    have b4 : e.sys.startStages = v.dev.sys.startStages := by rw [a5]
    rw [v1] at b2 b3 b4
    unfold StartFailed
    refine ⟨v6, v2, a3.trans v3, v4.trans hf, ?_, b2.trans x3, b3.trans x1, b4.trans x2, ?_⟩
    · show e.time.tb2 = _
      rw [b1]; exact v5
    · rw [if_pos (x1 ▸ q)]
      exact ⟨a1.trans (if_neg (failReason_ne _)), a2⟩
  · rw [if_neg q]
    by_cases g : s.dev.sys.stage = .rails ∨ s.dev.sys.stage = .rom
    · rw [if_pos (by simpa using g)]
      refine ⟨v6, v2, v3, v4.trans hf, v5, by rw [v1, x3], by rw [v1, x1], by rw [v1, x2], ?_⟩
      rw [if_neg (x1 ▸ q), if_pos g, v1, x4]
    · rw [if_neg (by simpa using g)]
      obtain ⟨w, hw⟩ : ∃ w, w = v.onDev (fun d => { d with sys := { d.sys with stage := .clocks } }) := ⟨_, rfl⟩
      rw [← hw]
      have w1 : w.dev.sys = { v.dev.sys with stage := .clocks } := by rw [hw]; rfl
      have w2 : w.mem = v.mem := by rw [hw]; rfl
      have w3 : w.dev.flt = v.dev.flt := by rw [hw]; rfl
      have w5 : w.dev.time = v.dev.time := by rw [hw]; rfl
      have w6 : w.pending = v.pending := by rw [hw]; rfl
      have hg : w.dev.sys.stage = .clocks := by rw [w1]
      have hp : ∀ k, w.dev.pll k = s.dev.pll k := fun k => by
        unfold Dev.pll
        rw [show w.dev.clk = v.dev.clk by rw [hw]; rfl, v7]
      by_cases l : ((s.dev.pll 0).locked && (s.dev.pll 1).locked) = true
      · rw [clocksDone_go hg (by rw [hp, hp]; exact l)]
        obtain ⟨b1, b2, b3, b4, b5, _⟩ := domainsUp_spec w
        refine ⟨b1.trans (w6.trans v6), by rw [b2], by rw [b4, w3]; exact v3, by rw [b2, w2]; exact v4.trans hf,
          by rw [b5, w5]; exact v5, ?_, ?_, ?_, ?_⟩
        · rw [b3, w1, v1]; exact x3
        · rw [b3, w1, v1]; exact x1
        · rw [b3, w1, v1]; exact x2
        · rw [if_neg (x1 ▸ q), if_neg g, if_pos l, b3]
      · rw [clocksDone_wait (.inr (by rw [hp, hp]; simpa using l))]
        refine ⟨w6.trans v6, by rw [w2]; exact v2, by rw [w3]; exact v3, by rw [w2]; exact v4.trans hf,
          by rw [w5]; exact v5, ?_, ?_, ?_, ?_⟩
        · rw [w1, v1]; exact x3
        · rw [w1, v1]; exact x1
        · rw [w1, v1]; exact x2
        · rw [if_neg (x1 ▸ q), if_neg g, if_neg l]; exact hg

end Sys2Proof.Laws
end

