-- ==== Sys2Proof/Laws/Commands.lean ====
section
/-! SUPPORT. How each form of command answers: by domain, by ring, by bus access and by the row of an opcode. -/

namespace Sys2Proof.Laws

open Machine

/-- A command of domain k whose effect on this device is g's, with nothing posted. -/
theorem inDomain_run {k : Nat} {f g : Dev → Dev} {s : State} (hk : s.dev.on k = true) (hf : f s.dev = g s.dev)
    (ht : (g s.dev).flt.todo = []) : inDomain k f s = .next (s.onDev g) := by
  rw [inDomain, if_pos hk, State.onDev, hf]
  exact congrArg Host.Outcome.next (settle_of_settled ht)

/-- A command of domain k that leaves this device as it is. -/
theorem inDomain_stay {k : Nat} {f : Dev → Dev} {s : State} (hk : s.dev.on k = true) (hs : Settled s) (hf : f s.dev = s.dev) :
    inDomain k f s = .next s := inDomain_run (g := id) hk hf hs

/-- A command of domain k that posts to the collector. -/
theorem inDomain_post {k : Nat} {f g : Dev → Dev} {s : State} (hk : s.dev.on k = true) (hf : f s.dev = g s.dev) :
    inDomain k f s = .next (State.settle (s.onDev g)) := by
  rw [inDomain, if_pos hk, State.onDev, State.onDev, hf]

theorem inDomainS_next {k : Nat} {f : State → State} {s : State} (hk : s.dev.on k = true) :
    inDomainS k f s = .next (f s).settle := if_pos hk

/-- A command of domain k whose effect on this state is t, with nothing posted. -/
theorem inDomainS_run {k : Nat} {f : State → State} {s t : State} (hk : s.dev.on k = true) (hf : f s = t)
    (ht : t.dev.flt.todo = []) : inDomainS k f s = .next t := by
  rw [inDomainS_next hk, hf, settle_of_settled ht]

/-- A row whose packet is ready and whose checks pass, with nothing posted. -/
theorem opRow_done {op : Nat} {p : Packet} {s : State} (h : Ready op p s) {chk : Packet → Dev → Option Status}
    (hc : chk p s.dev = none) {f : Packet → Dev → Dev} {g : Dev → Dev} (hf : f p s.dev = g s.dev) (ht : (g s.dev).flt.todo = []) :
    opRow op chk (onPkt f) p.ring p.seq s = .next (s.onDev g) := by
  refine (opRow_run h hc).trans ?_
  rw [onPkt, State.onDev, hf]
  exact congrArg Host.Outcome.next (settle_of_settled ht)

/-- A row whose packet is ready and whose checks pass, and that posts to the collector. -/
theorem opRow_post {op : Nat} {p : Packet} {s : State} (h : Ready op p s) {chk : Packet → Dev → Option Status}
    (hc : chk p s.dev = none) {f : Packet → Dev → Dev} {g : Dev → Dev} (hf : f p s.dev = g s.dev) :
    opRow op chk (onPkt f) p.ring p.seq s = .next (State.settle (s.onDev g)) := by
  refine (opRow_run h hc).trans ?_
  rw [onPkt, State.onDev, hf]; rfl

/-- A row on the whole state whose packet is ready and whose checks pass, with nothing posted. -/
theorem opRow_to {op : Nat} {p : Packet} {s t : State} (h : Ready op p s) {chk : Packet → Dev → Option Status}
    {run : Packet → State → State} (hc : chk p s.dev = none) (hf : run p s = t) (ht : t.dev.flt.todo = []) :
    opRow op chk run p.ring p.seq s = .next t := by
  rw [opRow_run h hc, hf, settle_of_settled ht]

theorem only_done (s : State) (ref : PktRef) (st : Status) (a b : Nat) :
    Only (Dev.ringed s.dev (s.onDev (Dev.complete ref st a b)).dev) s (s.onDev (Dev.complete ref st a b)) := by
  unfold Only
  exact congrArg (fun d => ({ s with dev := d } : State)) (complete_frame ..)

theorem only_of (s : State) (g : Dev) (ref : PktRef) (st : Status) (a b : Nat) :
    Only (Dev.ringed g (g.complete ref st a b)) s { s with dev := g.complete ref st a b } := by
  unfold Only
  exact congrArg (fun d => ({ s with dev := d } : State)) (complete_frame ..)

theorem bus_off {f : State → State} {s : State} (h : s.dev.sys.powered = false) : busAccess f s = .next s :=
  if_neg (by rw [h]; decide)

theorem bus_on {f : State → State} {s : State} (h : s.dev.sys.powered = true) : busAccess f s = .next (f s).settle := if_pos h

theorem bus_to {f : State → State} {s t : State} (h : s.dev.sys.powered = true) (hf : f s = t) (ht : t.dev.flt.todo = []) :
    busAccess f s = .next t := by rw [bus_on h, hf, settle_of_settled ht]

theorem ringEvent_to {f : Dev → Dev} {s t : State} (h : s.dev.ringsRun = true) (hf : s.onDev f = t) (ht : t.dev.flt.todo = []) :
    ringEvent f s = .next t := by
  rw [ringEvent, if_pos h, hf, settle_of_settled ht]

theorem ringEv {f g : Dev → Dev} {s : State} (h : s.dev.ringsRun = true) (hf : f s.dev = g s.dev) (ht : (g s.dev).flt.todo = []) :
    ringEvent f s = .next (s.onDev g) := by
  rw [ringEvent, if_pos h, State.onDev, hf]
  exact congrArg Host.Outcome.next (settle_of_settled ht)

theorem ringEv_stay {f : Dev → Dev} {s : State} (h : s.dev.ringsRun = true) (hs : Settled s) (hf : f s.dev = s.dev) :
    ringEvent f s = .next s := ringEv (g := id) h hf hs

theorem todo_of_ringStep {d d' : Dev} (h : RingStep d d') : d'.flt.todo = d.flt.todo := by rw [h.1]; rfl

theorem off_inDomain {s : State} (h : s.dev.sys.powered = false) (k : Nat) (f : Dev → Dev) : inDomain k f s = .next s :=
  if_neg (by simp [Dev.on, h])

theorem off_inDomainS {s : State} (h : s.dev.sys.powered = false) (k : Nat) (f : State → State) : inDomainS k f s = .next s :=
  if_neg (by simp [Dev.on, h])

theorem off_ringEvent {s : State} (h : s.dev.sys.powered = false) (f : Dev → Dev) : ringEvent f s = .next s :=
  if_neg (by simp [Dev.ringsRun, Dev.commandsRun, h])

theorem off_busAccess {s : State} (h : s.dev.sys.powered = false) (f : State → State) : busAccess f s = .next s :=
  if_neg (by simp [h])

theorem off_opRow {s : State} (h : s.dev.sys.powered = false) (op : Nat) (chk : Packet → Dev → Option Status)
    (run : Packet → State → State) (r seq : Nat) : opRow op chk run r seq s = .next s :=
  if_neg (by simp [Dev.commandsRun, h])

end Sys2Proof.Laws
end

