-- ==== Sys2Proof/Laws/Diffusion.lean ====
section
/-! SUPPORT. The error terms of diffusion: no tone is lost between a sample, its neighbours and its level. -/

namespace Sys2Proof.Laws

open Machine

theorem sat_range (x : Int) : -65536 ≤ sat x ∧ sat x ≤ 65535 := by
  unfold sat clampI; omega

theorem nearest_le (f : Diff) (t : Int) : f.nearest t ≤ f.maxLevel := by
  unfold Diff.nearest
  dsimp only
  have : ∀ (l : List Nat) (b : Nat) (g : Nat → Nat → Bool), (∀ k ∈ l, k ≤ f.maxLevel) → b ≤ f.maxLevel →
      l.foldl (fun b k => if g b k then k else b) b ≤ f.maxLevel := by
    intro l
    induction l with
    | nil => intro b g _ hb; exact hb
    | cons a t ih =>
      intro b g h hb
      refine ih _ g (fun k hk => h k (by simp [hk])) ?_
      dsimp only
      split
      · exact h a (by simp)
      · exact hb
  refine (this (List.range (f.maxLevel + 1)) 0 (fun b k => decide (mag (t - 16 * (f.values.getD k 0 : Nat)) < mag (t - 16 * (f.values.getD b 0 : Nat)))) ?_ (Nat.zero_le _)).trans' ?_
  · intro k hk; have := List.mem_range.mp hk; omega
  · simp

theorem addNext_spec (i : Nat) (x : Int) (a : Diffusing) (hi : i < a.next.length) :
    (a.addNext i x).next.length = a.next.length ∧ (a.addNext i x).out = a.out ∧ (a.addNext i x).f1 = a.f1 ∧
    (a.addNext i x).f2 = a.f2 ∧ a.sats ≤ (a.addNext i x).sats ∧
    ((∀ y ∈ a.next, -65536 ≤ y ∧ y ≤ 65535) → ∀ y ∈ (a.addNext i x).next, -65536 ≤ y ∧ y ≤ 65535) ∧
    ((a.addNext i x).sats = a.sats → (a.addNext i x).next.sum = a.next.sum + x) ∧
    (∀ j, j ≠ i → (a.addNext i x).next.getD j 0 = a.next.getD j 0) := by
  unfold Diffusing.addNext
  refine ⟨by simp, rfl, rfl, rfl, Nat.le_add_right _ _, ?_, ?_, ?_⟩
  · intro h y hy
    rcases List.mem_or_eq_of_mem_set hy with hy | rfl
    · exact h y hy
    · exact sat_range _
  · intro h
    dsimp only at h ⊢
    have hs : satHit (a.next.getD i 0 + x) = 0 := by omega
    have : sat (a.next.getD i 0 + x) = a.next.getD i 0 + x := by
      unfold satHit at hs; by_contra hq; rw [if_neg hq] at hs; omega
    rw [this]
    have key : ∀ (l : List Int) (i : Nat), i < l.length → (l.set i (l.getD i 0 + x)).sum = l.sum + x := by
      intro l
      induction l with
      | nil => intro i hi; simp at hi
      | cons b t ih =>
        intro i hi
        cases i with
        | zero => simp; omega
        | succ i =>
          simp only [List.set_cons_succ, List.sum_cons, List.getD_cons_succ]
          rw [ih i (by simpa using hi)]; omega
    exact key _ _ hi
  · intro j hj
    simp only [List.getD_eq_getElem?_getD]
    rw [List.getElem?_set_ne (fun h => hj h.symm)]

theorem addNext_self (i : Nat) (x : Int) (a : Diffusing) (hi : i < a.next.length) :
    (a.addNext i x).next.getD i 0 = sat (a.next.getD i 0 + x) := by
  unfold Diffusing.addNext
  simp only [List.getD_eq_getElem?_getD]
  rw [List.getElem?_set_self hi]; rfl

/-- What holds after p positions. -/
structure Passed (f : Diff) (status v : Nat → Nat) (cur : List Int) (w p : Nat) (a : Diffusing) : Prop where
  len : a.out.length = p
  max : ∀ k ∈ a.out, k ≤ f.maxLevel
  zero : ∀ q, q < p → status q = 2 ∨ status q = 3 → a.out.reverse.getD q 0 = 0
  nlen : a.next.length = w
  range : ∀ x ∈ a.next, -65536 ≤ x ∧ x ≤ 65535
  dis : ∀ q, status q = 3 → a.next.getD q 0 = 0
  f1 : w ≤ p ∨ status p = 3 → a.f1 = 0
  f2 : w ≤ p + 1 ∨ status (p + 1) = 3 → a.f2 = 0
  total : a.sats = 0 →
    ((List.range p).map fun q => if status q = 3 then (0 : Int) else 16 * (v q : Int)).sum +
    ((List.range p).map fun q => if status q = 3 then (0 : Int) else cur.getD q 0).sum =
    ((List.range p).map fun q => if status q = 3 then (0 : Int) else 16 * (f.values.getD (a.out.reverse.getD q 0) 0 : Nat)).sum +
    a.next.sum + a.f1 + a.f2

theorem rev_getD_lt (k : Nat) (l : List Nat) (q : Nat) (h : q < l.length) : (k :: l).reverse.getD q 0 = l.reverse.getD q 0 := by
  simp only [List.reverse_cons, List.getD_eq_getElem?_getD]
  rw [List.getElem?_append_left (by simpa using h)]

theorem rev_getD_eq (k : Nat) (l : List Nat) : (k :: l).reverse.getD l.length 0 = k := by
  simp only [List.reverse_cons, List.getD_eq_getElem?_getD]
  rw [List.getElem?_append_right (by simp)]; simp

theorem sat_zero : sat 0 = 0 := by decide

theorem satHit_zero {x : Int} (h : satHit x = 0) : sat x = x := by
  unfold satHit at h; by_contra hq; rw [if_neg hq] at h; omega

theorem passed_next {f : Diff} {status v : Nat → Nat} {cur : List Int} {w p : Nat} {a b : Diffusing}
    (h : Passed f status v cur w p a) (k : Nat) (ho : b.out = k :: a.out) (hk : k ≤ f.maxLevel)
    (hz : status p = 2 ∨ status p = 3 → k = 0) (hl : b.next.length = w) (hr : ∀ x ∈ b.next, -65536 ≤ x ∧ x ≤ 65535)
    (hd : ∀ q, status q = 3 → b.next.getD q 0 = 0) (h1 : w ≤ p + 1 ∨ status (p + 1) = 3 → b.f1 = 0)
    (h2 : w ≤ p + 2 ∨ status (p + 2) = 3 → b.f2 = 0) (hs : b.sats = 0 → a.sats = 0)
    (ht : b.sats = 0 → (if status p = 3 then (0 : Int) else 16 * (v p : Int)) + (if status p = 3 then (0 : Int) else cur.getD p 0) +
      a.next.sum + a.f1 + a.f2 = (if status p = 3 then (0 : Int) else 16 * (f.values.getD k 0 : Nat)) + b.next.sum + b.f1 + b.f2) :
    Passed f status v cur w (p + 1) b where
  len := by rw [ho, List.length_cons, h.len]
  max := by
    rw [ho]; intro x hx
    rcases List.mem_cons.mp hx with rfl | hx
    · exact hk
    · exact h.max x hx
  zero := by
    intro q hq hst
    rw [ho]
    by_cases hqp : q = p
    · subst hqp; have := rev_getD_eq k a.out; rw [h.len] at this; rw [this]; exact hz hst
    · rw [rev_getD_lt _ _ _ (by rw [h.len]; omega)]; exact h.zero q (by omega) hst
  nlen := hl
  range := hr
  dis := hd
  f1 := h1
  f2 := h2
  total := by
    intro h0
    have e := h.total (hs h0)
    have e' := ht h0
    have hk' : b.out.reverse.getD p 0 = k := by rw [ho]; have := rev_getD_eq k a.out; rwa [h.len] at this
    have hm : (List.range p).map (fun q => if status q = 3 then (0 : Int) else 16 * (f.values.getD (b.out.reverse.getD q 0) 0 : Nat)) =
        (List.range p).map (fun q => if status q = 3 then (0 : Int) else 16 * (f.values.getD (a.out.reverse.getD q 0) 0 : Nat)) := by
      refine List.map_congr_left fun q hq => ?_
      rw [ho, rev_getD_lt _ _ _ (by rw [h.len]; exact List.mem_range.mp hq)]
    simp only [List.range_succ, List.map_append, List.map_cons, List.map_nil, List.sum_append, List.sum_cons, List.sum_nil, hm, hk']
    omega

theorem passed_step {f : Diff} {status v : Nat → Nat} {cur : List Int} {w p : Nat} {a : Diffusing} (hp : p < w)
    (h : Passed f status v cur w p a) : Passed f status v cur w (p + 1) (f.step status v cur w a p) := by
  by_cases h3 : status p = 3
  · have hst : f.step status v cur w a p = { a with out := 0 :: a.out, f1 := a.f2, f2 := 0 } := by
      unfold Diff.step; rw [if_pos h3]
    rw [hst]
    refine passed_next h 0 rfl (Nat.zero_le _) (fun _ => rfl) h.nlen h.range h.dis h.f2 (fun _ => rfl) id ?_
    intro _
    have := h.f1 (Or.inr h3)
    simp only [if_pos h3]; omega
  · let t : Int := 16 * (v p : Int) + cur.getD p 0 + a.f1
    let k := if status p = 2 then 0 else f.nearest t
    let kern := if status p = 2 then f.dead else f.kernel
    let e := t - 16 * (f.values.getD k 0 : Nat)
    let part (i : Nat) : Int := Int.fdiv (e * (kern.getD i 0 : Nat)) 16
    let okE := (true && decide (p + 1 < w) && !(status (p + 1) = 3))
    let okE2 := (true && decide (p + 2 < w) && !(status (p + 2) = 3))
    let okSw := (decide (0 < p) && decide (p - 1 < w) && !(status (p - 1) = 3))
    let share (ok : Bool) (i : Nat) : Int := if ok then part i else 0
    let back (ok : Bool) (i : Nat) : Int := if ok then 0 else part i
    let ss := e - part 0 - part 1 - part 2 - part 4 + back okE 0 + back okE2 1 + back okSw 2 + back okE 4
    let F1 := a.f2 + share okE 0
    let F2 := share okE2 1
    let a1 : Diffusing := { a with out := k :: a.out, f1 := sat F1, f2 := sat F2, sats := a.sats + satHit F1 + satHit F2 }
    let a2 := if 0 < p then a1.addNext (p - 1) (share okSw 2) else a1
    let a3 := a2.addNext p ss
    let a4 := if p + 1 < w then a3.addNext (p + 1) (share okE 4) else a3
    have hst : f.step status v cur w a p = a4 := by
      unfold Diff.step; rw [if_neg h3]
    rw [hst]
    have hb : ∀ ok i, share ok i + back ok i = part i := by intro ok i; cases ok <;> simp [share, back]
    have l1 : a1.next.length = w := h.nlen
    have P2 : a2.next.length = w ∧ a2.out = a1.out ∧ a2.f1 = a1.f1 ∧ a2.f2 = a1.f2 ∧ a1.sats ≤ a2.sats ∧
        (∀ y ∈ a2.next, -65536 ≤ y ∧ y ≤ 65535) ∧ (a2.sats = a1.sats → a2.next.sum = a1.next.sum + share okSw 2) ∧
        (∀ q, status q = 3 → a2.next.getD q 0 = 0) := by
      simp only [a2]
      split
      · rename_i h0
        obtain ⟨b1, b2, b3, b4, b5, b6, b7, b8⟩ := addNext_spec (p - 1) (share okSw 2) a1 (by rw [l1]; omega)
        refine ⟨b1.trans l1, b2, b3, b4, b5, b6 h.range, b7, fun q hq => ?_⟩
        by_cases hqp : q = p - 1
        · subst hqp
          rw [addNext_self _ _ _ (by rw [l1]; omega)]
          have : okSw = false := by simp [okSw, hq]
          rw [show a1.next.getD (p - 1) 0 = 0 from h.dis _ hq, this]
          exact sat_zero
        · rw [b8 q hqp]; exact h.dis q hq
      · rename_i h0
        refine ⟨l1, rfl, rfl, rfl, Nat.le_refl _, h.range, fun _ => ?_, h.dis⟩
        have : okSw = false := by simp [okSw, h0]
        rw [this]; simp [share]
    clear_value a2
    have P3 : a3.next.length = w ∧ a3.out = a1.out ∧ a3.f1 = a1.f1 ∧ a3.f2 = a1.f2 ∧ a2.sats ≤ a3.sats ∧
        (∀ y ∈ a3.next, -65536 ≤ y ∧ y ≤ 65535) ∧ (a3.sats = a2.sats → a3.next.sum = a2.next.sum + ss) ∧
        (∀ q, status q = 3 → a3.next.getD q 0 = 0) := by
      obtain ⟨b1, b2, b3, b4, b5, b6, b7, b8⟩ := addNext_spec p ss a2 (by rw [P2.1]; exact hp)
      refine ⟨b1.trans P2.1, b2.trans P2.2.1, b3.trans P2.2.2.1, b4.trans P2.2.2.2.1, b5, b6 P2.2.2.2.2.2.1, b7, fun q hq => ?_⟩
      rw [b8 q (by intro hq'; subst hq'; exact h3 hq)]; exact P2.2.2.2.2.2.2.2 q hq
    clear_value a3
    have P4 : a4.next.length = w ∧ a4.out = a1.out ∧ a4.f1 = a1.f1 ∧ a4.f2 = a1.f2 ∧ a3.sats ≤ a4.sats ∧
        (∀ y ∈ a4.next, -65536 ≤ y ∧ y ≤ 65535) ∧ (a4.sats = a3.sats → a4.next.sum = a3.next.sum + share okE 4) ∧
        (∀ q, status q = 3 → a4.next.getD q 0 = 0) := by
      simp only [a4]
      split
      · rename_i h0
        obtain ⟨b1, b2, b3, b4, b5, b6, b7, b8⟩ := addNext_spec (p + 1) (share okE 4) a3 (by rw [P3.1]; exact h0)
        refine ⟨b1.trans P3.1, b2.trans P3.2.1, b3.trans P3.2.2.1, b4.trans P3.2.2.2.1, b5, b6 P3.2.2.2.2.2.1, b7, fun q hq => ?_⟩
        by_cases hqp : q = p + 1
        · subst hqp
          rw [addNext_self _ _ _ (by rw [P3.1]; exact h0)]
          have : okE = false := by simp [okE, hq]
          rw [P3.2.2.2.2.2.2.2 _ hq, this]
          exact sat_zero
        · rw [b8 q hqp]; exact P3.2.2.2.2.2.2.2 q hq
      · rename_i h0
        refine ⟨P3.1, P3.2.1, P3.2.2.1, P3.2.2.2.1, Nat.le_refl _, P3.2.2.2.2.2.1, fun _ => ?_, P3.2.2.2.2.2.2.2⟩
        have : okE = false := by simp [okE, h0]
        rw [this]; simp [share]
    clear_value a4
    refine passed_next h k P4.2.1 ?_ ?_ P4.1 P4.2.2.2.2.2.1 P4.2.2.2.2.2.2.2 ?_ ?_ ?_ ?_
    · simp only [k]; split
      · exact Nat.zero_le _
      · exact nearest_le _ _
    · intro hq
      have : status p = 2 := hq.resolve_right h3
      simp only [k, if_pos this]
    · intro hq
      rw [P4.2.2.1]
      show sat F1 = 0
      have : okE = false := by
        rcases hq with hq | hq
        · simp [okE, show ¬ (p + 1 < w) by omega]
        · simp [okE, hq]
      rw [show F1 = 0 from by simp only [F1, this, share]; rw [h.f2 hq]; rfl]; exact sat_zero
    · intro hq
      rw [P4.2.2.2.1]
      show sat F2 = 0
      have : okE2 = false := by
        rcases hq with hq | hq
        · simp [okE2, show ¬ (p + 2 < w) by omega]
        · simp [okE2, hq]
      rw [show F2 = 0 from by simp only [F2, this, share]; rfl]; exact sat_zero
    · intro h0
      have c1 := P2.2.2.2.2.1
      have c2 := P3.2.2.2.2.1
      have c3 := P4.2.2.2.2.1
      have c0 : a.sats ≤ a1.sats := by show a.sats ≤ a.sats + satHit F1 + satHit F2; omega
      omega
    · intro h0
      have c1 := P2.2.2.2.2.1
      have c2 := P3.2.2.2.2.1
      have c3 := P4.2.2.2.2.1
      have c0 : a1.sats = a.sats + satHit F1 + satHit F2 := rfl
      have s1 : sat F1 = F1 := satHit_zero (by omega)
      have s2 : sat F2 = F2 := satHit_zero (by omega)
      have e2 := P2.2.2.2.2.2.2.1 (by omega)
      have e3 := P3.2.2.2.2.2.2.1 (by omega)
      have e4 := P4.2.2.2.2.2.2.1 (by omega)
      have n1 : a1.next.sum = a.next.sum := rfl
      rw [P4.2.2.1, P4.2.2.2.1, show a1.f1 = sat F1 from rfl, show a1.f2 = sat F2 from rfl, s1, s2, e4, e3, e2, n1, if_neg h3, if_neg h3, if_neg h3]
      have b0 := hb okE 0
      have b1 := hb okE2 1
      have b2 := hb okSw 2
      have b4 := hb okE 4
      show 16 * (v p : Int) + cur.getD p 0 + a.next.sum + a.f1 + a.f2 = 16 * (f.values.getD k 0 : Nat) +
        (a.next.sum + share okSw 2 + (e - part 0 - part 1 - part 2 - part 4 + back okE 0 + back okE2 1 + back okSw 2 + back okE 4) + share okE 4) +
        (a.f2 + share okE 0) + share okE2 1
      have he : e = 16 * (v p : Int) + cur.getD p 0 + a.f1 - 16 * (f.values.getD k 0 : Nat) := rfl
      rw [he, ← b0, ← b1, ← b2, ← b4]
      ring

end Sys2Proof.Laws
end

