-- ==== Sys2Proof/Laws/Dma.lean ====
section
/-! SUPPORT. What the operations of the DMA engine do to channels, objects and packets. -/

namespace Sys2Proof.Laws

open Machine

theorem dmaHold_eq (t : Tab Nat) (b : Bool) (d : Dev) : d.dmaHold t b =
    forL (d.dmaReads t) (fun i d => d.modObj i (fun o => { o with readers := if b then o.readers + 1 else o.readers - 1 }))
      (match d.dmaWrites t with | some i => d.modObj i (fun o => { o with writing := b }) | none => d) := rfl

theorem dmaHold_keep {β : Type} (g : Dev → β) (hg : ∀ i f (d : Dev), g (d.modObj i f) = g d) (t : Tab Nat) (b : Bool) (d : Dev) :
    g (d.dmaHold t b) = g d := by
  rw [dmaHold_eq]
  generalize d.dmaReads t = r
  generalize d.dmaWrites t = w
  rw [forL_keep g (fun i d => hg i _ d)]
  cases w with
  | none => rfl
  | some i => exact hg i _ d

theorem dmaHold_chan (t : Tab Nat) (b : Bool) (d : Dev) (k : Nat) : (d.dmaHold t b).chan k = d.chan k :=
  dmaHold_keep (fun d => d.chan k) (fun _ _ _ => rfl) t b d

theorem dmaHold_done (t : Tab Nat) (b : Bool) (d : Dev) : (d.dmaHold t b).ing.dmaDone = d.ing.dmaDone :=
  dmaHold_keep (fun d => d.ing.dmaDone) (fun _ _ _ => rfl) t b d

theorem swap_ing (e d : Dev) (h : ({ e with ing := d.ing } : Dev) = d) : e = { d with ing := e.ing } :=
  Eq.trans (b := { ({ e with ing := d.ing } : Dev) with ing := e.ing }) rfl
    (congrArg (a₁ := ({ e with ing := d.ing } : Dev)) (fun x : Dev => ({ x with ing := e.ing } : Dev)) h)

theorem dmaHold_frame (t : Tab Nat) (b : Bool) (d : Dev) : d.dmaHold t b = { d with ing := (d.dmaHold t b).ing } :=
  swap_ing _ _ (dmaHold_keep (fun x : Dev => ({ x with ing := d.ing } : Dev)) (fun _ _ _ => rfl) t b d)

theorem dmaHold_todo (t : Tab Nat) (b : Bool) (d : Dev) : (d.dmaHold t b).flt.todo = d.flt.todo :=
  dmaHold_keep (fun d => d.flt.todo) (fun _ _ _ => rfl) t b d

theorem dmaStop_idle (s : State) (c : Nat) (h : (s.dev.chan c).st ≠ .running) : s.dmaStop c = s := by
  unfold State.dmaStop; simp [h]

theorem dmaDrop_idle (d : Dev) (c : Nat) (h : (d.chan c).armed = false) : d.dmaDrop c = d := by
  unfold Dev.dmaDrop; simp [h]

theorem dmaAbort_idle (s : State) (c : Nat) (h : (s.dev.chan c).st ≠ .running) (h2 : (s.dev.chan c).armed = false) :
    s.dmaAbort c = s := by
  unfold State.dmaAbort; rw [dmaStop_idle s c h, State.onDev, dmaDrop_idle _ _ h2]

theorem complete?_frame (d : Dev) (r st a b) : d.complete? r st a b = Dev.ringed d (d.complete? r st a b) := by
  cases r
  · rfl
  · exact complete_frame ..

theorem complete?_chan (d : Dev) (r st a b k) : (d.complete? r st a b).chan k = d.chan k := by
  cases r
  · rfl
  · exact complete_chan_at ..

theorem complete?_ing (d : Dev) (r st a b) : (d.complete? r st a b).ing = d.ing := by
  cases r
  · rfl
  · exact complete_ing ..

theorem modChan_done (d : Dev) (n f) : (d.modChan n f).ing.dmaDone = d.ing.dmaDone := rfl

theorem setDone_chan (e : Dev) (x k : Nat) : Dev.chan { e with ing := { e.ing with dmaDone := x } } k = e.chan k := rfl

theorem setDone_done (e : Dev) (x : Nat) : (({ e with ing := { e.ing with dmaDone := x } } : Dev)).ing.dmaDone = x := rfl

theorem dmaEnd_eq (d : Dev) (c result residue st res aux halt) : d.dmaEnd c result residue st res aux halt =
    Dev.complete? (d.chan c).actRef st res aux
      { (d.dmaHold (d.chan c).act false).modChan c (fun x => { x with st := if halt then .halted else .idle, lastResult := result, residue := residue, actRef := none }) with
        ing := { ((d.dmaHold (d.chan c).act false).modChan c (fun x => { x with st := if halt then .halted else .idle, lastResult := result, residue := residue, actRef := none })).ing with
          dmaDone := ((d.dmaHold (d.chan c).act false).modChan c (fun x => { x with st := if halt then .halted else .idle, lastResult := result, residue := residue, actRef := none })).ing.dmaDone ||| 2 ^ c } } := rfl

theorem dmaEnd_done (d : Dev) (c result residue st res aux halt) : (d.dmaEnd c result residue st res aux halt).ing.dmaDone = d.ing.dmaDone ||| 2 ^ c := by
  rw [dmaEnd_eq, complete?_ing, setDone_done, modChan_done, dmaHold_done]

theorem dmaEnd_at (d : Dev) (c result residue st res aux halt) : (d.dmaEnd c result residue st res aux halt).chan c = { d.chan c with
          st := if halt then .halted else .idle, lastResult := result, residue := residue, actRef := none } := by
  rw [dmaEnd_eq, complete?_chan, setDone_chan, Dev.chan_modChan, dmaHold_chan]

theorem dmaEnd_chan (d : Dev) (c result residue st res aux halt) : let e := d.dmaEnd c result residue st res aux halt
        e.chan c = { d.chan c with
          st := if halt then .halted else .idle, lastResult := result, residue := residue, actRef := none } ∧
        e.ing.dmaDone = d.ing.dmaDone ||| 2 ^ c := ⟨dmaEnd_at .., dmaEnd_done ..⟩

theorem modChan_err (d : Dev) (c a k : Nat) (b : Bool) : d.modChan c (fun x => { x with
      errAddr := a, errDir := b, errSpace := if b then descDst x.act else descSrc x.act, errKind := k }) =
    d.modChan c (fun x => { x with
      errAddr := a, errDir := b, errSpace := if b then descDst (d.chan c).act else descSrc (d.chan c).act, errKind := k }) := by
  simp only [Dev.modChan]

theorem bit_or {v b : BitVec 32} {i : Nat} : (v ||| b).toNat.testBit i = (v.toNat.testBit i || b.toNat.testBit i) := by
  rw [BitVec.toNat_or, Nat.testBit_or]

end Sys2Proof.Laws
end

