-- ==== Sys2Proof/Laws/Memory.lean ====
section
/-! SUPPORT. Laws of the byte-addressed memories: read after write, and every operation keeps the canonical form. -/

namespace Sys2Proof.Machine

variable {e : BitVec 8}

/-- Addresses of a memory all lie above a. -/
def Memory.above (a : Nat) (m : Memory) : Prop := ∀ c ∈ m, a < c.1

/-- The canonical form, cell by cell. -/
theorem Memory.wf_cons (a : Nat) (b : BitVec 8) (m : Memory) :
    Memory.wf e ((a, b) :: m) = true ↔ b ≠ e ∧ Memory.above a m ∧ Memory.wf e m = true := by
  induction m generalizing a b with
  | nil => simp [Memory.wf, Memory.above]
  | cons c m ih =>
    obtain ⟨a', b'⟩ := c
    have h := ih a' b'
    simp only [Memory.wf, Bool.and_eq_true, decide_eq_true_eq, bne_iff_ne, ne_eq]
    constructor
    · rintro ⟨⟨h1, h2⟩, h3⟩
      refine ⟨h1, ?_, h3⟩
      intro c hc
      rcases List.mem_cons.1 hc with rfl | hc
      · exact h2
      · have := (h.1 h3).2.1 c hc
        omega
    · rintro ⟨h1, h2, h3⟩
      exact ⟨⟨h1, h2 (a', b') (by simp)⟩, h3⟩

/-- The byte just written is read back. -/
@[simp] theorem Memory.read_write (a : Nat) (b : BitVec 8) (m : Memory) (h : Memory.wf e m = true) :
    Memory.read e (Memory.write e a b m) a = b := by
  induction m with
  | nil => simp only [Memory.write]; split <;> simp_all [Memory.read]
  | cons c m ih =>
    obtain ⟨i, x⟩ := c
    rw [Memory.wf_cons] at h
    have low : Memory.above a m → Memory.read e m a = e := by
      intro ha
      clear ih h
      induction m with
      | nil => rfl
      | cons c m ih =>
        have h1 := ha c (by simp)
        simp only [Memory.read]
        rw [if_neg (by omega)]
        exact ih (fun c hc => ha c (by simp [hc]))
    simp only [Memory.write]
    split
    · rename_i hlt
      split
      · rename_i hb
        subst hb
        simp only [Memory.read]
        rw [if_neg (by omega)]
        exact low (fun c hc => by have := h.2.1 c hc; omega)
      · simp [Memory.read]
    · split
      · rename_i hi
        subst hi
        split
        · rename_i hb
          subst hb
          exact low h.2.1
        · simp [Memory.read]
      · simp only [Memory.read]
        rw [if_neg (by omega)]
        exact ih h.2.2

/-- Every other byte reads as before. -/
theorem Memory.read_write_ne (a : Nat) (b : BitVec 8) (m : Memory) {k : Nat} (h : k ≠ a) :
    Memory.read e (Memory.write e a b m) k = Memory.read e m k := by
  have hk : ¬ a = k := fun q => h q.symm
  induction m with
  | nil => simp only [Memory.write]; split <;> simp [Memory.read, hk]
  | cons c m ih =>
    obtain ⟨i, x⟩ := c
    simp only [Memory.write]
    split
    · split <;> simp [Memory.read, hk]
    · split
      · rename_i hi
        subst hi
        split <;> simp [Memory.read, hk]
      · simp [Memory.read, ih]

/-- Addresses of a memory with one byte written: that address and the old ones. -/
theorem Memory.above_write {k a : Nat} {b : BitVec 8} {m : Memory} (h : Memory.above k m) (ha : k < a) :
    Memory.above k (Memory.write e a b m) := by
  induction m with
  | nil => simp only [Memory.write]; split <;> simp [Memory.above, ha]
  | cons c m ih =>
    obtain ⟨i, x⟩ := c
    have hi : k < i := h (i, x) (by simp)
    have hm : Memory.above k m := fun c hc => h c (by simp [hc])
    simp only [Memory.write]
    split
    · split
      · exact h
      · intro c hc
        rcases List.mem_cons.1 hc with rfl | hc
        · exact ha
        · exact h c hc
    · split
      · split
        · exact hm
        · intro c hc
          rcases List.mem_cons.1 hc with rfl | hc
          · exact ha
          · exact hm c hc
      · intro c hc
        rcases List.mem_cons.1 hc with rfl | hc
        · exact hi
        · exact ih hm c hc

/-- A write keeps the canonical form. -/
theorem Memory.wf_write (a : Nat) (b : BitVec 8) (m : Memory) (h : Memory.wf e m = true) :
    Memory.wf e (Memory.write e a b m) = true := by
  induction m with
  | nil => simp only [Memory.write]; split <;> simp_all [Memory.wf]
  | cons c m ih =>
    obtain ⟨i, x⟩ := c
    have h0 := h
    rw [Memory.wf_cons] at h
    simp only [Memory.write]
    split
    · rename_i hlt
      split
      · exact h0
      · rename_i hb
        rw [Memory.wf_cons]
        refine ⟨hb, ?_, h0⟩
        intro c hc
        rcases List.mem_cons.1 hc with rfl | hc
        · exact hlt
        · have := h.2.1 c hc
          omega
    · split
      · rename_i hi
        subst hi
        split
        · exact h.2.2
        · rename_i hb
          rw [Memory.wf_cons]
          exact ⟨hb, h.2.1, h.2.2⟩
      · rename_i h1 h2
        rw [Memory.wf_cons]
        exact ⟨h.1, Memory.above_write h.2.1 (by omega), ih h.2.2⟩

/-- A write of several bytes keeps the canonical form. -/
theorem Memory.wf_writeList (a : Nat) (l : List (BitVec 8)) (m : Memory) (h : Memory.wf e m = true) :
    Memory.wf e (Memory.writeList e a l m) = true := by
  induction l generalizing a m with
  | nil => exact h
  | cons b l ih => exact ih (a + 1) _ (Memory.wf_write a b m h)

/-- A memory with some of its cells left out keeps the canonical form. -/
theorem Memory.wf_filter (p : Host.Cell → Bool) (m : Memory) (h : Memory.wf e m = true) : Memory.wf e (m.filter p) = true := by
  induction m with
  | nil => rfl
  | cons c m ih =>
    obtain ⟨i, x⟩ := c
    rw [Memory.wf_cons] at h
    simp only [List.filter_cons]
    split
    · rw [Memory.wf_cons]
      exact ⟨h.1, fun c hc => h.2.1 c (List.mem_filter.1 hc).1, ih h.2.2⟩
    · exact ih h.2.2

/-- Clearing a range keeps the canonical form. -/
theorem Memory.wf_clear (a n : Nat) (m : Memory) (h : Memory.wf e m = true) : Memory.wf e (Memory.clear a n m) = true :=
  Memory.wf_filter _ m h

/-- A byte outside the bytes written reads as before. -/
theorem Memory.read_writeList_ne (a : Nat) (l : List (BitVec 8)) (m : Memory) {k : Nat} (h : k < a ∨ a + l.length ≤ k) :
    Memory.read e (Memory.writeList e a l m) k = Memory.read e m k := by
  induction l generalizing a m with
  | nil => rfl
  | cons b l ih =>
    simp only [List.length_cons] at h
    simp only [Memory.writeList]
    rw [ih (a + 1) _ (by omega), Memory.read_write_ne _ _ _ (by omega)]

/-- The bytes written are read back. -/
theorem Memory.read_writeList (a : Nat) (l : List (BitVec 8)) (m : Memory) (h : Memory.wf e m = true) {k : Nat}
    (hk : k < l.length) : Memory.read e (Memory.writeList e a l m) (a + k) = l[k] := by
  induction l generalizing a m k with
  | nil => simp at hk
  | cons b l ih =>
    simp only [Memory.writeList]
    match k with
    | 0 => rw [Memory.read_writeList_ne _ _ _ (by omega)]; exact Memory.read_write _ _ _ h
    | k + 1 =>
      rw [show a + (k + 1) = a + 1 + k by omega]
      exact ih (a + 1) _ (Memory.wf_write _ _ _ h) (by simpa using hk)

/-- A cleared byte reads as an unlisted one, every other as before. -/
theorem Memory.read_clear (a n : Nat) (m : Memory) (b : Nat) :
    Memory.read e (Memory.clear a n m) b = if a ≤ b ∧ b < a + n then e else Memory.read e m b := by
  induction m with
  | nil => simp [Memory.clear, Memory.read]
  | cons c m ih =>
    obtain ⟨i, x⟩ := c
    unfold Memory.clear at ih ⊢
    simp only [List.filter_cons]
    by_cases hi : i = b
    · subst hi
      by_cases hin : a ≤ i ∧ i < a + n
      · rw [if_neg (by simpa using hin), ih, if_pos hin, if_pos hin]
      · rw [if_pos (by simp; omega), if_neg hin]
        simp [Memory.read]
    · split
      · rw [Memory.read, if_neg hi, ih, Memory.read, if_neg hi]
      · rw [ih, Memory.read, if_neg hi]

end Sys2Proof.Machine
end

