-- ==== Sys2Proof/Laws/Keep.lean ====
section
/-! SUPPORT. What every operation on the whole state keeps: the queue, and the form of the byte-addressed memories. -/

namespace Sys2Proof.Laws

open Machine

/-- t has the queue of s, and its memories are in form where those of s are. -/
def Kept (s t : State) : Prop :=
  t.pending = s.pending ∧ (MemWf s → MemWf t) ∧ (SramIn s → SramIn t)

theorem Kept.refl (s : State) : Kept s s := ⟨rfl, id, id⟩

theorem Kept.trans {s t u : State} (h : Kept s t) (k : Kept t u) : Kept s u :=
  ⟨k.1.trans h.1, k.2.1 ∘ h.2.1, k.2.2 ∘ h.2.2⟩

/-- The same queue and the same memories are kept. -/
theorem kept_same {s t : State} (h : t.pending = s.pending) (k : t.mem = s.mem) : Kept s t := by
  refine ⟨h, fun w => ?_, fun w => ?_⟩ <;> simpa only [MemWf, SramIn, k] using w

theorem kept_dev (s : State) (d : Dev) : Kept s { s with dev := d } := kept_same rfl rfl

theorem kept_onDev (s : State) (f : Dev → Dev) : Kept s (s.onDev f) := kept_same rfl rfl

theorem kept_settle (s : State) : Kept s s.settle := kept_same rfl rfl

/-- Emptied on-chip memories are in form. -/
theorem kept_emptied (s : State) (d : Dev) : Kept s { s with dev := d, mem := { s.mem with sram := [] } } :=
  ⟨rfl, fun h => ⟨rfl, h.2⟩, fun _ => rfl⟩

/-- A list of steps that each keep the state keeps it. -/
theorem kept_foldl {α : Type} (f : State → α → State) (h : ∀ s a, Kept s (f s a)) (l : List α) (s : State) :
    Kept s (l.foldl f s) := by
  induction l generalizing s with
  | nil => exact .refl s
  | cons a l ih => exact (h s a).trans (ih _)

theorem kept_ite {p : Prop} [Decidable p] {s a b : State} (h : Kept s a) (k : Kept s b) : Kept s (if p then a else b) := by
  split <;> assumption

/-! ### Memories -/

theorem all_write (e : BitVec 8) (a n : Nat) (b : BitVec 8) (m : Memory) (ha : a < n)
    (h : m.all (fun c => decide (c.1 < n)) = true) : (Memory.write e a b m).all (fun c => decide (c.1 < n)) = true := by
  induction m with
  | nil => unfold Memory.write; split <;> simp [ha]
  | cons c m ih =>
    obtain ⟨i, x⟩ := c
    simp only [List.all_cons, Bool.and_eq_true, decide_eq_true_eq] at h
    unfold Memory.write
    split
    · split <;> simp [ha, h.1, h.2]
    · split
      · split <;> simp [ha, h.2]
      · simp [h.1, ih h.2]

theorem all_writeList (e : BitVec 8) (n : Nat) (l : List (BitVec 8)) (a : Nat) (m : Memory) (ha : a + l.length ≤ n)
    (h : m.all (fun c => decide (c.1 < n)) = true) : (Memory.writeList e a l m).all (fun c => decide (c.1 < n)) = true := by
  induction l generalizing a m with
  | nil => exact h
  | cons b l ih =>
    simp only [List.length_cons] at ha
    exact ih (a + 1) _ (by omega) (all_write e a n b m (by omega) h)

theorem all_clear (n a k : Nat) (m : Memory) (h : m.all (fun c => decide (c.1 < n)) = true) :
    (Memory.clear a k m).all (fun c => decide (c.1 < n)) = true := by
  simp only [Memory.clear, List.all_eq_true, List.mem_filter] at h ⊢
  exact fun c hc => h c hc.1

/-- New flash contents in canonical form are kept beside the on-chip memories. -/
theorem kept_flash (s : State) (d : Dev) (m : Mems) (h : m.sram = s.mem.sram)
    (k : Memory.wf flashDefault s.mem.flash = true → Memory.wf flashDefault m.flash = true) :
    Kept s { s with dev := d, mem := m } :=
  ⟨rfl, fun w => ⟨by simpa only [h] using w.1, k w.2⟩, fun w => by simpa only [SramIn, h] using w⟩

theorem wf_program (a : Nat) (b : List Nat) (m : Mems) (h : Memory.wf flashDefault m.flash = true) :
    Memory.wf flashDefault (m.program a b).flash = true := Memory.wf_writeList _ _ _ h

theorem wf_eraseFlash (a n : Nat) (m : Mems) (h : Memory.wf flashDefault m.flash = true) :
    Memory.wf flashDefault (m.eraseFlash a n).flash = true := Memory.wf_clear _ _ _ h

theorem wf_writeDirectory (d : Directory) (m : Mems) (h : Memory.wf flashDefault m.flash = true) :
    Memory.wf flashDefault (m.writeDirectory d).flash = true := by
  unfold Mems.writeDirectory
  dsimp only
  exact wf_program _ _ _ (wf_eraseFlash _ _ _ h)

@[simp] theorem program_sram (a : Nat) (b : List Nat) (m : Mems) : (m.program a b).sram = m.sram := rfl

@[simp] theorem eraseFlash_sram (a n : Nat) (m : Mems) : (m.eraseFlash a n).sram = m.sram := rfl

@[simp] theorem writeDirectory_sram (d : Directory) (m : Mems) : (m.writeDirectory d).sram = m.sram := by
  unfold Mems.writeDirectory
  dsimp only
  rw [program_sram, eraseFlash_sram]

theorem kept_cleared (s : State) (d : Dev) (a n : Nat) :
    Kept s { s with dev := d, mem := { s.mem with sram := Memory.clear a n s.mem.sram } } :=
  ⟨rfl, fun w => ⟨Memory.wf_clear _ _ _ w.1, w.2⟩, fun w => all_clear _ _ _ _ w⟩

theorem kept_tableWrite (s : State) (o : Nat) (b : List Nat) : Kept s (s.tableWrite o b) := by
  unfold State.tableWrite
  split
  · rename_i h
    simp only [Bool.and_eq_true, decide_eq_true_eq] at h
    refine ⟨rfl, fun w => ⟨Memory.wf_writeList _ _ _ w.1, w.2⟩, fun w => all_writeList _ _ _ _ _ ?_ w⟩
    simp only [List.length_map, List.length_take, bankBytes]; omega
  · exact .refl s

/-! ### Reset and boot -/

theorem kept_coldBoot (c : Nat) (s : State) : Kept s (s.coldBoot c) := kept_emptied s _

theorem kept_domainsUp (s : State) : Kept s s.domainsUp := kept_emptied s _

theorem kept_clocksDone (s : State) : Kept s s.clocksDone := kept_ite (kept_domainsUp s) (.refl s)

theorem dropTrial_sram (m : Mems) : m.dropTrial.sram = m.sram := by
  unfold Mems.dropTrial
  split
  · split
    · exact writeDirectory_sram _ _
    · rfl
  · rfl

theorem wf_dropTrial (m : Mems) (h : Memory.wf flashDefault m.flash = true) : Memory.wf flashDefault m.dropTrial.flash = true := by
  unfold Mems.dropTrial
  split
  · split
    · exact wf_writeDirectory _ _ h
    · exact h
  · exact h

theorem kept_failedStart (s : State) : Kept s s.failedStart := by
  unfold State.failedStart
  have h (d : Dev) : Kept s { s with mem := { s.mem.dropTrial with sram := [] }, dev := d } :=
    ⟨rfl, fun w => ⟨rfl, wf_dropTrial _ w.2⟩, fun _ => rfl⟩
  exact kept_ite ((h _).trans (kept_onDev _ _)) (kept_ite (h _) (((h _).trans (kept_onDev _ _)).trans (kept_clocksDone _)))

theorem kept_trainingEnds (c : Nat) (ok : Bool) (s : State) : Kept s (s.trainingEnds c ok) := by
  unfold State.trainingEnds
  exact kept_ite (kept_onDev _ _) (kept_ite (.refl _) (kept_ite (kept_onDev _ _)
    (((kept_onDev _ _).trans (kept_settle _)).trans (kept_failedStart _))))

theorem kept_loadImage (s : State) : Kept s s.loadImage := by
  unfold State.loadImage
  split
  · exact kept_onDev _ _
  · exact kept_ite (kept_onDev _ _) (kept_ite (kept_onDev _ _) (kept_onDev _ _))

theorem kept_operational (s : State) : Kept s s.operational := by
  unfold State.operational
  refine kept_flash s _ _ ?_ fun h => ?_
  · split
    · split
      · exact writeDirectory_sram _ _
      · rfl
    · rfl
  · split
    · split
      · exact wf_writeDirectory _ _ h
      · exact h
    · exact h

theorem kept_pfwRises (s : State) : Kept s s.pfwRises := by
  unfold State.pfwRises
  exact kept_ite (.refl s) (kept_ite (((kept_onDev _ _).trans (kept_settle _)).trans (kept_coldBoot _ _)) (kept_onDev _ _))

theorem kept_stageClears (s : State) : Kept s s.stageClears := by
  unfold State.stageClears
  exact kept_ite (.refl s) (kept_ite (kept_coldBoot _ _) (kept_ite (kept_dev _ _)
    (kept_ite ((kept_dev _ _).trans (kept_coldBoot _ _)) (kept_ite ((kept_dev _ _).trans (kept_onDev _ _)) (kept_dev _ _)))))

theorem kept_runSysFwWrite (p : Packet) (s : State) : Kept s (runSysFwWrite p s) := by
  unfold runSysFwWrite
  exact kept_ite (kept_onDev _ _) (kept_ite (kept_onDev _ _) (kept_onDev _ _))

theorem kept_fwProgrammed (ok : Bool) (s : State) : Kept s (s.fwProgrammed ok) := by
  unfold State.fwProgrammed
  split
  · exact .refl s
  · refine kept_flash s _ _ ((program_sram _ _ _).trans ?_) fun h => wf_program _ _ _ ?_
    · split
      · exact eraseFlash_sram _ _ _
      · rfl
    · split
      · exact wf_eraseFlash _ _ _ h
      · exact h

theorem kept_runSysFwActivate (p : Packet) (s : State) : Kept s (runSysFwActivate p s) := by
  unfold runSysFwActivate
  dsimp only
  split
  · exact kept_onDev _ _
  · exact (kept_flash s s.dev _ (writeDirectory_sram _ _) fun h => wf_writeDirectory _ _ h).trans (kept_onDev _ _)

/-! ### DMA -/

theorem kept_dmaWrite (s : State) (t : Tab Nat) (b : List Nat) (whole : Bool) : Kept s (s.dmaWrite t b whole) := by
  unfold State.dmaWrite
  dsimp only
  split
  · exact kept_ite (.refl s) (kept_onDev _ _)
  · split
    · exact kept_ite (kept_onDev _ _) (.refl s)
    · exact .refl s
  · exact kept_tableWrite _ _ _

/-- Reading the destination of a COMPARE changes the device at most. -/
theorem dmaOther_dev (s : State) (t : Tab Nat) (host : List Nat) (n : Nat) :
    ∃ l d, s.dmaOther t host n = (l, { s with dev := d }) := by
  unfold State.dmaOther
  by_cases h : descDst t = 0
  · rw [if_pos h]; exact ⟨_, s.dev, rfl⟩
  · rw [if_neg h]
    cases s.dev.objIndex (descFld t 32 0 32) with
    | none => exact ⟨_, s.dev, rfl⟩
    | some i => exact ⟨_, _, rfl⟩

theorem kept_dmaOther (s : State) (t : Tab Nat) (host : List Nat) (n : Nat) : Kept s (s.dmaOther t host n).2 := by
  obtain ⟨l, d, h⟩ := dmaOther_dev s t host n
  rw [h]
  exact kept_dev s d

theorem kept_dmaFinish (c : Nat) (moved other : List Nat) (s : State) : Kept s (s.dmaFinish c moved other) := by
  unfold State.dmaFinish
  refine kept_ite (.refl s) (kept_ite ?_ (kept_ite (.refl s) ((kept_dmaWrite _ _ _ _).trans (kept_onDev _ _))))
  dsimp only
  refine (kept_dmaOther s (s.dev.chan c).act other (descLen (s.dev.chan c).act)).trans ?_
  refine kept_ite (.refl _) ?_
  split
  · exact kept_onDev _ _
  · exact kept_onDev _ _

theorem kept_dmaFail (c kind : Nat) (dir : Bool) (addr : Nat) (moved : List Nat) (s : State) :
    Kept s (s.dmaFail c kind dir addr moved) := by
  unfold State.dmaFail
  exact kept_ite (.refl s) ((kept_ite (.refl s) (kept_dmaWrite _ _ _ _)).trans (kept_onDev _ _))

theorem kept_dmaStop (c : Nat) (s : State) : Kept s (s.dmaStop c) := by
  unfold State.dmaStop
  exact kept_ite (.refl s) (((kept_dev s _).trans (kept_ite (.refl _) (kept_dmaWrite _ _ _ _))).trans (kept_onDev _ _))

theorem kept_dmaAbort (c : Nat) (s : State) : Kept s (s.dmaAbort c) := (kept_dmaStop c s).trans (kept_onDev _ _)

theorem kept_dmaCtrl (c v : Nat) (s : State) : Kept s (s.dmaCtrl c v) := by
  have h1 (s : State) : Kept s (if v.testBit 2 then s.onDev (Dev.dmaClear c) else s) := kept_ite (kept_onDev _ _) (.refl s)
  have h2 (s : State) : Kept s (if v.testBit 1 then (if (s.dev.chan c).owner then s.onDev (Dev.dmaIgnored c) else s.dmaAbort c) else s) :=
    kept_ite (kept_ite (kept_onDev _ _) (kept_dmaAbort _ _)) (.refl s)
  have h3 (s : State) : Kept s (if v.testBit 0 then s.onDev (Dev.dmaGoReg c) else s) := kept_ite (kept_onDev _ _) (.refl s)
  unfold State.dmaCtrl
  exact kept_ite (.refl s) ((((kept_onDev s _).trans (h1 _)).trans (h2 _)).trans (h3 _))

theorem kept_runStageDmaAbort (p : Packet) (s : State) : Kept s (runStageDmaAbort p s) :=
  (kept_dmaAbort _ _).trans (kept_onDev _ _)

theorem kept_abortAll (s : State) : Kept s ((List.range 32).foldl (fun s c => State.dmaAbort c s) s) :=
  kept_foldl _ (fun s c => kept_dmaAbort c s) _ _

theorem kept_runStageReinit (p : Packet) (s : State) : Kept s (runStageReinit p s) := (kept_abortAll s).trans (kept_onDev _ _)

/-! ### Faults, imprints, memories and tests -/

theorem kept_parityRefuse (region hop : Nat) (again : Bool) (s : State) : Kept s (s.parityRefuse region hop again) := by
  have h (s : State) : Kept s (s.fabricEffect region hop) := by
    unfold State.fabricEffect
    split
    · exact kept_abortAll s
    all_goals first | exact kept_onDev _ _ | exact kept_ite (kept_onDev _ _) (.refl s)
  unfold State.parityRefuse
  exact kept_ite (.refl s) ((kept_onDev s _).trans (kept_ite (h _) (.refl _)))

theorem kept_recordEnds (ok : Bool) (s : State) : Kept s (s.recordEnds ok) := by
  have h : Kept s s.recordDone := by
    unfold State.recordDone
    dsimp only
    split
    · exact .refl s
    · exact kept_flash s _ _ (program_sram _ _ _) fun h => wf_program _ _ _ h
  exact kept_ite (kept_ite h (kept_onDev _ _)) (.refl s)

theorem kept_sectorErased (s : State) : Kept s s.sectorErased := by
  unfold State.sectorErased
  exact kept_ite (kept_flash s _ _ (eraseFlash_sram _ _ _) fun h => wf_eraseFlash _ _ _ h) (.refl s)

theorem kept_runImpRelease (p : Packet) (s : State) : Kept s (runImpRelease p s) := by
  unfold runImpRelease
  split
  · exact .refl s
  · exact kept_onDev _ _

theorem kept_ueOutcome (a : Nat) (reader : DdrReader) (s : State) : Kept s (s.ueOutcome a reader) := by
  unfold State.ueOutcome
  dsimp only
  split <;> first | exact .refl s | exact kept_ite (kept_onDev _ _) (.refl s) | exact kept_ite (kept_dmaFail _ _ _ _ _ s) (.refl s)

theorem kept_bankLeaves (n : Nat) (s : State) : Kept s (s.bankLeaves n) := by
  refine kept_foldl _ (fun s c => ?_) _ _
  split
  · exact kept_dmaFail _ _ _ _ _ s
  · exact .refl s

theorem kept_bankCleared (n : Nat) (s : State) : Kept s (s.bankCleared n) := by
  unfold State.bankCleared
  exact kept_ite (.refl s) (((kept_ite (kept_bankLeaves n s) (.refl s)).trans (kept_cleared _ _ _ _)).trans (kept_onDev _ _))

theorem kept_memtestEnd (n : Nat) (st : Status) (failing : Nat) (s : State) : Kept s (s.memtestEnd n st failing) := by
  unfold State.memtestEnd
  split
  · exact .refl s
  · exact (kept_cleared s s.dev _ _).trans (kept_onDev _ _)

theorem kept_memtestDone (ref : PktRef) (failing : Nat) (s : State) : Kept s (s.memtestDone ref failing) := by
  unfold State.memtestDone
  split
  · exact .refl s
  · exact kept_memtestEnd _ _ _ _

theorem kept_runDiagReinit (p : Packet) (s : State) : Kept s (runDiagReinit p s) :=
  ((kept_onDev s _).trans (kept_foldl _ (fun s n => kept_memtestEnd n _ _ s) _ _)).trans (kept_onDev _ _)

/-! ### Registers and windows -/

theorem kept_bar2Write (o : Nat) (b : List Nat) (s : State) : Kept s (s.bar2Write o b) :=
  kept_ite (kept_tableWrite _ _ _) (.refl s)

theorem kept_apertureWrite (x v : Nat) (s : State) : Kept s (s.apertureWrite x v) := kept_bar2Write _ _ _

theorem kept_aperture (x : Nat) (write : Option (BitVec 32)) (s : State) :
    Kept s (match write with | some v => if x % 4 = 0 then s.apertureWrite x v.toNat else s | none => s) := by
  cases write with
  | some v => exact kept_ite (kept_apertureWrite _ _ _) (.refl s)
  | none => exact .refl s

theorem kept_regStore (a v : Nat) (s : State) : Kept s (s.regStore a v) := by
  unfold State.regStore
  refine kept_ite (.refl s) ?_
  split
  · exact kept_ite (kept_apertureWrite _ _ _) (kept_onDev _ _)
  · exact kept_onDev _ _
  · split
    · exact kept_dmaCtrl _ _ _
    · exact kept_onDev _ _
  all_goals first
    | exact kept_onDev _ _
    | exact .refl s
    | (split
       · exact kept_onDev _ _
       · exact .refl s)

theorem kept_regRead (a : Nat) (s : State) : Kept s (s.regRead a) := by
  unfold State.regRead
  exact kept_ite (.refl s) ((kept_ite (kept_onDev _ _) (.refl s)).trans (kept_onDev _ _))

theorem kept_readBy (path : Path) (a : Nat) (s : State) : Kept s (s.readBy path a) := by
  unfold State.readBy
  exact kept_ite (kept_onDev _ _) ((kept_regRead _ _).trans (kept_onDev _ _))

theorem kept_writeBy (path : Path) (a v : Nat) (s : State) : Kept s (s.writeBy path a v) := by
  unfold State.writeBy
  exact kept_ite (.refl s) (kept_ite (kept_onDev _ _) (kept_regStore _ _ _))

theorem kept_writeRun (path : Path) (a : Nat) (l : List (Nat × Nat)) (s : State) :
    Kept s (l.foldl (fun s e => State.writeBy path (a + 4 * e.2) e.1 s) s) :=
  kept_foldl _ (fun s _ => kept_writeBy path _ _ s) _ _

theorem kept_mspiWrite (a : Nat) (b : List Nat) (s : State) : Kept s (s.mspiWrite a b) := by
  unfold State.mspiWrite
  exact (kept_onDev s _).trans (kept_ite (kept_onDev _ _)
    ((kept_writeRun _ _ _ _).trans (kept_ite (.refl _) (kept_onDev _ _))))

theorem kept_readRun (n : Nat) (a : Nat) (s : State) (l : List Nat) : Kept s (State.readRun a n s l).1 := by
  induction n generalizing a s l with
  | zero => exact .refl s
  | succ n ih => exact (kept_regRead a s).trans (ih _ _ _)

theorem kept_mspiRead (a count : Nat) (ready : Bool) (s : State) : Kept s (s.mspiRead a count ready) := by
  unfold State.mspiRead
  exact kept_ite (kept_same rfl rfl) (kept_ite (kept_same rfl rfl)
    ((((kept_readRun _ _ _ _).trans (kept_onDev _ _)).trans (kept_ite (.refl _) (kept_onDev _ _))).trans (kept_onDev _ _)))

theorem kept_runRegRead (p : Packet) (s : State) : Kept s (runRegRead p s) := (kept_readRun _ _ _ _).trans (kept_onDev _ _)

theorem kept_runRegWrite (p : Packet) (s : State) : Kept s (runRegWrite p s) := (kept_writeRun _ _ _ _).trans (kept_onDev _ _)

theorem kept_runRegRmw (p : Packet) (s : State) : Kept s (runRegRmw p s) :=
  ((kept_regRead _ _).trans (kept_writeBy _ _ _ _)).trans (kept_onDev _ _)

theorem kept_pollRead (ref : PktRef) (s : State) : Kept s (s.pollRead ref) := by
  unfold State.pollRead
  split
  · exact .refl s
  · exact kept_ite (.refl s) ((kept_regRead _ _).trans (kept_ite (kept_onDev _ _) (kept_onDev _ _)))

theorem kept_runRegTableWrite (p : Packet) (s : State) : Kept s (runRegTableWrite p s) :=
  (kept_tableWrite _ _ _).trans (kept_onDev _ _)

theorem kept_runRegTableRead (p : Packet) (s : State) : Kept s (runRegTableRead p s) := kept_onDev _ _

/-! ### Commands -/

theorem kept_chk (chk : Option Status) (ref : PktRef) {s t u : State} (h : Kept s t) (k : Kept t u) :
    Kept s (match chk with | some st => t.onDev (Dev.complete ref st 0 0) | none => u) := by
  cases chk with
  | some st => exact h.trans (kept_onDev _ _)
  | none => exact h.trans k

theorem kept_runOp (op : Nat) (chk : Packet → Dev → Option Status) (run : Packet → State → State)
    (h : ∀ p s, Kept s (run p s)) (r seq : Nat) (s : State) : Kept s (runOp op chk run r seq s) := by
  unfold runOp
  cases s.dev.runnable op (r, seq) with
  | none => exact .refl s
  | some p =>
    exact kept_ite (kept_chk _ _ (.refl s) (h _ _)) (kept_chk _ _ (.refl s)
      (kept_ite (kept_ite (kept_chk _ _ (kept_onDev s _) (h _ _)) (kept_onDev _ _))
        (kept_ite (kept_onDev _ _) (kept_onDev _ _))))

/-- A command is answered with a next state that keeps the queue and the memories' form and is settled where the state was. -/
def Answers (o : Host.Outcome State Fault Refusal) (s : State) : Prop :=
  ∃ t, o = .next t ∧ Kept s t ∧ (Settled s → Settled t)

theorem answers_settled {s t : State} (h : Kept s t) : Answers (.next t.settle) s :=
  ⟨_, rfl, h.trans (kept_settle t), fun _ => settled_settle t⟩

theorem answers_self (s : State) : Answers (.next s) s := ⟨s, rfl, .refl s, id⟩

theorem answers_ite {c : Prop} [Decidable c] {s t : State} (h : Kept s t) :
    Answers (if c then .next t.settle else .next s) s := by
  split
  · exact answers_settled h
  · exact answers_self s

theorem answers_inDomain (k : Nat) (f : Dev → Dev) (s : State) : Answers (inDomain k f s) s := answers_ite (kept_onDev s f)

theorem answers_ringEvent (f : Dev → Dev) (s : State) : Answers (ringEvent f s) s := answers_ite (kept_onDev s f)

theorem answers_inDomainS (k : Nat) {f : State → State} {s : State} (h : Kept s (f s)) : Answers (inDomainS k f s) s := answers_ite h

theorem answers_busAccess {f : State → State} {s : State} (h : Kept s (f s)) : Answers (busAccess f s) s := answers_ite h

theorem answers_opRow (op : Nat) (chk : Packet → Dev → Option Status) {run : Packet → State → State} (r seq : Nat) (s : State)
    (h : ∀ p s, Kept s (run p s)) : Answers (opRow op chk run r seq s) s := answers_ite (kept_runOp op chk run h r seq s)

theorem answers_row (op : Nat) (chk : Packet → Dev → Option Status) (f : Packet → Dev → Dev) (r seq : Nat) (s : State) :
    Answers (opRow op chk (onPkt f) r seq s) s := answers_opRow op chk r seq s fun p s => kept_onDev s (f p)

end Sys2Proof.Laws
end

