-- ==== Sys2Proof/Laws/Motion.lean ====
section
/-! SUPPORT. What coming to rest and the stops of an axis do: the axis, the frame, and that nothing is posted. -/

namespace Sys2Proof.Laws

open Machine

/-- d' differs from d in its axes, its rings and its trace. -/
def AxisStep (n : Nat) (d d' : Dev) : Prop :=
  d' = { Dev.ringed d d' with mot := d'.mot } ∧ ∀ m, m ≠ n → d'.axis m = d.axis m

theorem AxisStep.trans {n : Nat} {a b c : Dev} (h : AxisStep n a b) (k : AxisStep n b c) : AxisStep n a c := by
  obtain ⟨h1, h2⟩ := h
  obtain ⟨k1, k2⟩ := k
  refine ⟨?_, fun m hm => (k2 m hm).trans (h2 m hm)⟩
  generalize hx : c.mot = x at k1 ⊢
  rw [k1]
  conv_lhs => rw [h1]
  rfl

theorem axisStep_modAxis (n : Nat) (f : Axis → Axis) (d : Dev) : AxisStep n d (d.modAxis n f) :=
  ⟨rfl, fun _ hm => Dev.axis_modAxis_ne _ _ _ _ hm⟩

theorem axisStep_pin (n : Nat) (q : Pin) (i : Nat) (h : Bool) (d : Dev) : AxisStep n d (d.pin q i h) := ⟨rfl, fun _ _ => rfl⟩

theorem axisStep_ring {n : Nat} {d d' : Dev} (h : RingStep d d') : AxisStep n d d' := by
  refine ⟨?_, fun m _ => by rw [h.1]; rfl⟩
  have : d'.mot = d.mot := by rw [h.1]; rfl
  rw [this]
  exact h.1

theorem AxisStep.todo {n : Nat} {d d' : Dev} (h : AxisStep n d d') : d'.flt.todo = d.flt.todo := by rw [h.1]; rfl

theorem endStops_axis (n : Nat) (d : Dev) : AxisStep n d (d.endStops n) ∧ (d.endStops n).axis n = { d.axis n with stops := [] } := by
  have h : RingStep (d.modAxis n (fun a => { a with stops := [] })) (d.endStops n) :=
    ringStep_forL _ _ (fun _ _ => ringStep_complete _ _ _ _ _) _
  refine ⟨(axisStep_modAxis n _ d).trans (axisStep_ring h), ?_⟩
  have e : (d.endStops n).axis n = (d.modAxis n (fun a => { a with stops := [] })).axis n := by rw [h.1]; rfl
  rw [e, Dev.axis_modAxis]

/-- What coming to rest leaves of an axis. -/
def Rested (a : Axis) : Axis :=
  { a with
    vel := 0, mode := .none, en := a.en && !a.disableAfter, disableAfter := false, posLost := a.posLost || a.disableAfter,
    kept := if a.disableAfter then none else a.kept, keptV := if a.disableAfter then none else a.keptV,
    st := if a.en && !a.disableAfter then .idle else .disabled, stops := [] }

theorem axisRest_axis (n : Nat) (d : Dev) : AxisStep n d (d.axisRest n) ∧ (d.axisRest n).axis n = Rested (d.axis n) := by
  unfold Dev.axisRest
  extract_lets dis d1 d2
  have h1 : AxisStep n d d1 := axisStep_modAxis _ _ _
  have e1 : d1.axis n = { d.axis n with
      vel := 0, mode := .none, en := (d.axis n).en && !dis, disableAfter := false, posLost := (d.axis n).posLost || dis,
      kept := if dis then none else (d.axis n).kept, keptV := if dis then none else (d.axis n).keptV,
      st := if (d.axis n).en && !dis then .idle else .disabled } := Dev.axis_modAxis _ _ _
  have h2 : AxisStep n d1 d2 ∧ d2.axis n = d1.axis n := by
    simp only [d2]; unfold Dev.when; split
    · exact ⟨axisStep_pin _ _ _ _ _, rfl⟩
    · exact ⟨⟨rfl, fun _ _ => rfl⟩, rfl⟩
  obtain ⟨h3, e3⟩ := endStops_axis n d2
  refine ⟨(h1.trans h2.1).trans h3, ?_⟩
  rw [e3, h2.2, e1]
  rfl

/-- An immediate stop: the axis rests, its position lost, nothing kept. -/
theorem stopNow_axis (n result : Nat) (d : Dev) : AxisStep n d (d.stopNow n result) ∧
    (d.stopNow n result).axis n = Rested { d.axis n with
      posLost := true, homed := false, kept := none, keptV := none, folPend := [], chg := none, blending := false,
      homeResult := if (d.axis n).st = .homing then result else (d.axis n).homeResult } := by
  unfold Dev.stopNow
  obtain ⟨h1, e1⟩ := axisRest_axis n (d.modAxis n fun a => { a with
      posLost := true, homed := false, kept := none, keptV := none, folPend := [], chg := none, blending := false,
      homeResult := if a.st = .homing then result else a.homeResult })
  refine ⟨(axisStep_modAxis _ _ _).trans h1, ?_⟩
  rw [e1, Dev.axis_modAxis]

/-- The enable of an axis. -/
theorem enableAxis_axis (n : Nat) (d : Dev) : AxisStep n d (d.enableAxis n) ∧
    (d.enableAxis n).axis n = { d.axis n with en := true, enWait := (d.axis n).enWait || !(d.axis n).en } ∧
    (∃ pre, (d.enableAxis n).out = pre ++ d.out) ∧ (d.enableAxis n).rings = d.rings ∧ (d.enableAxis n).flt = d.flt ∧
    d.enableAxis n = { d with mot := (d.enableAxis n).mot, out := (d.enableAxis n).out } := by
  unfold Dev.enableAxis
  dsimp only
  split
  · rename_i h
    refine ⟨⟨rfl, fun _ _ => rfl⟩, ?_, ⟨[], rfl⟩, rfl, rfl, rfl⟩
    cases ha : d.axis n
    simp_all
  · rename_i h
    refine ⟨(axisStep_modAxis _ _ _).trans (axisStep_pin _ _ _ _ _), ?_, ⟨[_], rfl⟩, rfl, rfl, rfl⟩
    simp_all

end Sys2Proof.Laws
end

