-- ==== Sys2Proof/Laws/Spoils.lean ====
section
/-! SUPPORT. What the parts of a spoil leave alone: VOID sets, the capture blocks it closes and the spoil mark change no Cairn
entry and no checkpoint record; the spoil of one imprint changes its entry and appends its record. -/

namespace Sys2Proof.Laws

open Machine

theorem voidPort_imp (d : Dev) (s q : Nat) (m : Int) (a : List Nat) : (d.voidPort s q m a).imp = d.imp := by
  unfold Dev.voidPort
  dsimp only
  refine forL_keep Dev.imp (fun l d => forL_keep Dev.imp (fun i d => ?_) _ _) _ _
  split <;> rfl

theorem closeCapture_imp (d : Dev) (s p : Nat) (b : Bool) : (d.closeCapture s p b).imp = d.imp := by
  unfold Dev.closeCapture
  split
  · rfl
  · dsimp only
    split <;> rfl

theorem newScale_imp (d : Dev) (p : Nat) : (d.newScale p).imp = d.imp := by
  unfold Dev.newScale Dev.when
  dsimp only
  split
  · rfl
  · split <;> split <;> rfl

theorem sendLine_imp (d : Dev) (s q : Nat) (n : Int) : (d.sendLine s q n).imp = d.imp := by
  unfold Dev.sendLine
  extract_lets p lev zero banks d1 sub per d2
  have h1 : d1.imp = d.imp := newScale_imp _ _
  have h2 : d2.imp = d1.imp := by simp only [d2, sub, Dev.subdot]; split <;> rfl
  refine Eq.trans ?_ (h2.trans h1)
  clear_value d2 banks lev per zero
  rfl

theorem placeMark_entries (d : Dev) (s : Nat) : (d.placeMark s).imp.entries = d.imp.entries := by
  unfold Dev.placeMark
  split
  · rfl
  · refine (congrArg Imp.entries (forL_keep Dev.imp (fun q d => ?_) _ _)).trans rfl
    dsimp only
    split
    · exact forL_keep Dev.imp (fun _ _ => sendLine_imp _ _ _ _) _ _
    · rfl

theorem placeMark_records (d : Dev) (s : Nat) :
    (d.placeMark s).imp.jobs.map (·.record) = d.imp.jobs.map (·.record) := by
  unfold Dev.placeMark
  split
  · rfl
  · refine (congrArg (fun x : Imp => x.jobs.map (·.record)) (forL_keep Dev.imp (fun q d => ?_) _ _)).trans ?_
    · dsimp only
      split
      · exact forL_keep Dev.imp (fun _ _ => sendLine_imp _ _ _ _) _ _
      · rfl
    · simp [Dev.modRptq, Dev.modIst]

/-- The spoil of one imprint: its entry, the other entries, and its record among those that wait. -/
theorem spoilEntry_spec (d : Dev) (i r : Nat) (m : Option Int) :
    (d.spoilEntry i r m).entry i = (d.entry i).next r ∧
    (∀ j, j ≠ i → (d.spoilEntry i r m).entry j = d.entry j) ∧
    (d.spoilEntry i r m).imp.jobs.map (·.record) = d.imp.jobs.map (·.record) ++
      [{ CkptRec.reset with
          id := (d.entry i).desc.id, acceptNum := (d.entry i).acceptNum, stream := (d.entry i).stream, event := 2
          attempt := (d.entry i).attempt }] := by
  unfold Dev.spoilEntry
  extract_lets e s sr sp sr' ca out d1 d2
  have hx : ∀ x : Dev, ((x.when (decide out) (Dev.unqueue s i)).unscreen s i).imp.entries = x.imp.entries ∧
      ((x.when (decide out) (Dev.unqueue s i)).unscreen s i).imp.jobs = x.imp.jobs := by
    intro x; unfold Dev.when; split <;> exact ⟨rfl, rfl⟩
  have he : ∀ j, ((d2.when (decide out) (Dev.unqueue s i)).unscreen s i).entry j = d2.entry j := fun j => by
    unfold Dev.entry; rw [(hx d2).1]
  refine ⟨(he i).trans (Dev.entry_modEntry ..), fun j hj => (he j).trans (Dev.entry_modEntry_ne _ _ _ _ hj), ?_⟩
  rw [(hx d2).2]
  show (d.imp.jobs ++ [_]).map _ = _
  rw [List.map_append]
  rfl

end Sys2Proof.Laws
end

