-- ==== Sys2Proof/Laws/TimeBase.lean ====
section
/-! SUPPORT. What a change of a time base's servo state can do. -/

namespace Sys2Proof.Laws

open Machine

/-- A base takes a state that it does not leave HOLDOVER for. -/
theorem tbState_spec {d : Dev} {k : Nat} {st : TbSt} {c : Bool} (h : (d.tb k).st = .holdover → st = .holdover) :
    (d.tbState k st c).tb k = { d.tb k with st := st, conv := c } ∧ (∀ j, j ≠ k → (d.tbState k st c).tb j = d.tb j) ∧
    (d.tbState k st c).flt.todo = d.flt.todo ∧
    (d.tbState k st c) = { Dev.ringed d (d.tbState k st c) with time := (d.tbState k st c).time } := by
  have h0 : (decide ((d.tb k).st = TbSt.holdover) && !decide (st = TbSt.holdover)) = false := by
    by_cases q : (d.tb k).st = .holdover
    · simp [h q]
    · simp [q]
  unfold Dev.tbState
  dsimp only
  rw [h0]
  simp only [Bool.false_eq_true, if_false]
  split
  · exact ⟨by rw [Dev.tb_modTb], fun j hj => by rw [Dev.tb_modTb_ne _ _ _ _ hj], rfl, rfl⟩
  · exact ⟨by rw [msix_tb, Dev.tb_modTb], fun j hj => by rw [msix_tb, Dev.tb_modTb_ne _ _ _ _ hj], rfl, rfl⟩

theorem forN_modTout_tb (n k : Nat) (f : Nat → Tout → Tout) (d : Dev) : (forN n (fun i d => d.modTout i (f i)) d).tb k = d.tb k :=
  forN_keep (fun d => d.tb k) (f := fun i d => d.modTout i (f i)) (fun _ _ => rfl) n d

theorem forL_startParked_tb (l : List Packet) (k : Nat) (d : Dev) : (forL l (fun p d => d.startParked p) d).tb k = d.tb k :=
  forL_keep (fun d => d.tb k) (f := fun p d => d.startParked p) (fun _ _ => rfl) l d

/-- d' differs from d in the time unit, the rings and the trace. -/
def TimeStep (d d' : Dev) : Prop := d' = { Dev.ringed d d' with time := d'.time }

theorem TimeStep.trans {a b c : Dev} (h : TimeStep a b) (k : TimeStep b c) : TimeStep a c := by
  unfold TimeStep at *
  generalize hx : c.time = x at k ⊢
  rw [k]
  conv_lhs => rw [h]
  rfl

theorem timeStep_complete (d : Dev) (ref st a b) : TimeStep d (d.complete ref st a b) := by
  unfold TimeStep
  rw [complete_time]
  exact complete_frame ..

theorem only_timeStep {s : State} {d : Dev} (h : TimeStep s.dev d) :
    Only { Dev.ringed s.dev d with time := d.time } s { s with dev := d } := congrArg (fun x => ({ s with dev := x } : State)) h

end Sys2Proof.Laws
end

