-- ==== Sys2Proof/Laws/Printing.lean ====
section
/-! SUPPORT. Motion, fire timing, nozzles, head ports, imprints, screening and wear: what single operations do. -/

namespace Sys2Proof.Laws

open Machine

theorem only_axisStep {n : Nat} {s : State} {d : Dev} (h : AxisStep n s.dev d) :
    (∀ m, m ≠ n → d.axis m = s.dev.axis m) ∧ Only { Dev.ringed s.dev d with mot := d.mot } s { s with dev := d } :=
  ⟨h.2, congrArg (fun x => ({ s with dev := x } : State)) h.1⟩

theorem axisStep_complete (n : Nat) (d : Dev) (ref st a b) : AxisStep n d (d.complete ref st a b) := axisStep_ring (ringStep_complete ..)

theorem rested_atRest (a : Axis) : (Rested a).atRest = true := by
  unfold Rested Axis.atRest; dsimp only; split <;> simp

theorem axisRest_quiet {n : Nat} {d : Dev} (h : (d.axis n).stops = []) :
    (d.axisRest n).rings = d.rings ∧ ∃ pre, (d.axisRest n).out = pre ++ d.out := by
  unfold Dev.axisRest
  extract_lets dis d1 d2
  have h1 : (d2.axis n).stops = [] := by
    have : d2.axis n = d1.axis n := by simp only [d2]; unfold Dev.when; split <;> rfl
    rw [this]; simp only [d1, Dev.axis_modAxis]; exact h
  have h2 : d2.endStops n = d2.modAxis n (fun a => { a with stops := [] }) := by
    unfold Dev.endStops; dsimp only; rw [h1]; rfl
  rw [h2]
  simp only [d2]
  unfold Dev.when
  split
  · exact ⟨rfl, [_], rfl⟩
  · exact ⟨rfl, [], rfl⟩

theorem enable_does {op : Nat} {p : Packet} {s : State} (h : Ready op p s) {chk : Packet → Dev → Option Status}
    {f : Packet → Dev → Dev} (hc : chk p s.dev = none) (g : Axis → Axis) (st : Status) (x y : Nat)
    (hf : f p s.dev = ((s.dev.enableAxis p.target).modAxis p.target g).complete p.ref st x y) :
    ∃ t, opRow op chk (onPkt f) p.ring p.seq s = .next t ∧ Completed p st x y s t ∧
      t.dev.axis p.target = g { s.dev.axis p.target with
        en := true, enWait := (s.dev.axis p.target).enWait || !(s.dev.axis p.target).en } ∧
      (∀ m, m ≠ p.target → t.dev.axis m = s.dev.axis m) ∧ Only { Dev.ringed s.dev t.dev with mot := t.dev.mot } s t := by
  obtain ⟨e1, e2, ⟨pre, e3⟩, e4, e5, e6⟩ := enableAxis_axis p.target s.dev
  obtain ⟨h1, h2⟩ := does_of h hc (f := f) _ _ _ _ hf e4 (pre := pre) e3 (by
    show (s.dev.enableAxis p.target).flt.todo = []; rw [e5]; exact h.1)
  refine ⟨_, h1, h2, ?_, only_axisStep ((e1.trans (axisStep_modAxis _ _ _)).trans (axisStep_complete _ _ _ _ _ _))⟩
  rw [complete_axis_at, Dev.axis_modAxis, e2]

/-- A change with a boundary of its own is appended, where no other change waits for one. -/
theorem schedule_spec {d : Dev} {k : Nat} {u : Int} {p : Packet} {w wp : Nat} {table : List Nat}
    (hx : ∀ x ∈ (d.nst k).changes, x.boundary.isSome = true) (hu : d.boundaryOf k w wp = some u)
    (hl : ¬ (w = 0 ∧ d.tooNear k wp = true)) :
    d.schedule k p w wp table = (d.modNst k (fun x => { x with changes := x.changes ++ [{ Change.reset with
      op := p.op, target := p.target, boundary := some u, earliest := d.earliestLine k, payload := p.payload,
      table := table }] })).complete p.ref .done (wpOf u) 0 := by
  unfold Dev.schedule
  rw [hu]
  dsimp only
  have h0 : (decide (w = 0) && d.tooNear k wp) = false := by
    by_cases h : w = 0
    · simp [h]; simpa [h] using hl
    · simp [h]
  rw [h0]
  generalize hc : ({ Change.reset with op := p.op, target := p.target, boundary := some u, earliest := d.earliestLine k, payload := p.payload, table := table } : Change) = c
  have hb : c.boundary = some u := by rw [← hc]
  generalize he : d.modNst k (fun x => { x with changes := x.changes ++ [c] }) = e
  have hn : (e.nst k).changes = (d.nst k).changes ++ [c] := by rw [← he, Dev.nst_modNst]
  have hf : e.fixGaps k = e := by
    unfold Dev.fixGaps
    have : (e.nst k).changes.filter (fun c => c.boundary.isNone) = [] := by
      rw [hn, List.filter_eq_nil_iff]
      intro x hx'
      rcases List.mem_append.1 hx' with h | h
      · have := hx x h; cases q : x.boundary <;> simp_all
      · simp only [List.mem_singleton] at h; rw [h, hb]; simp
    rw [this]; rfl
  rw [hf, hn]
  simp only [List.getLast?_append, List.getLast?_singleton, Option.some_or, Option.bind_some, hb]
  rfl

theorem clearPort_keep {β : Type} (g : Dev → β) (h1 : ∀ n f (d : Dev), g (d.modNport n f) = g d) (h2 : ∀ n f (d : Dev), g (d.modHp n f) = g d)
    (h3 : ∀ o (d : Dev), g (d.send o) = g d) (k q : Nat) (d : Dev) : g (d.clearPort k q) = g d := by
  have hs : ∀ a b c l (d : Dev), g (d.sendFrame q a b c l) = g d := fun a b c l d => (h3 _ _).trans (h2 _ _ _)
  have ho : ∀ b z (d : Dev), g (d.sendOffsets q b z) = g d := by
    intro b z d
    unfold Dev.sendOffsets
    dsimp only
    rw [h2]
    exact forL_keep g (fun _ _ => hs _ _ _ _ _) _ _
  unfold Dev.clearPort Dev.when
  dsimp only
  split
  · rw [ho, h2, h1]
  · rw [h2, h1]

/-- d' differs from d in the nozzle unit, the imprint unit, the head link and the trace. -/
def NozStep (d d' : Dev) : Prop := d' = { d with noz := d'.noz, hl := d'.hl, out := d'.out }

theorem nozStep_clear (k : Nat) (l : List PortEntry) (d : Dev) :
    { forL l (fun e d => d.clearPort k e.port) d with noz := d.noz, hl := d.hl, out := d.out } = d := by
  refine (forL_keep (fun x : Dev => ({ x with noz := d.noz, hl := d.hl, out := d.out } : Dev)) ?_ l d)
  intro e x
  exact clearPort_keep (fun x : Dev => ({ x with noz := d.noz, hl := d.hl, out := d.out } : Dev)) (fun _ _ _ => rfl) (fun _ _ _ => rfl) (fun _ _ => rfl) _ _ _

theorem clear_keep {β : Type} (g : Dev → β) (h1 : ∀ n f (d : Dev), g (d.modNport n f) = g d) (h2 : ∀ n f (d : Dev), g (d.modHp n f) = g d)
    (h3 : ∀ o (d : Dev), g (d.send o) = g d) (k : Nat) (l : List PortEntry) (d : Dev) :
    g (forL l (fun e d => d.clearPort k e.port) d) = g d :=
  forL_keep g (fun _ _ => clearPort_keep g h1 h2 h3 _ _ _) l d

theorem swap_noz {e d : Dev} (h : ({ e with noz := d.noz, hl := d.hl, out := d.out } : Dev) = d) : NozStep d e :=
  Eq.trans (b := { ({ e with noz := d.noz, hl := d.hl, out := d.out } : Dev) with noz := e.noz, hl := e.hl, out := e.out }) rfl
    (congrArg (a₁ := ({ e with noz := d.noz, hl := d.hl, out := d.out } : Dev)) (fun x : Dev => ({ x with noz := e.noz, hl := e.hl, out := e.out } : Dev)) h)

theorem noz_frame {d e : Dev} {k : Nat} {f : NozStream → NozStream} {n : Nat} {g : ImpStream → ImpStream} {ref : PktRef}
    (h : NozStep (d.modNst k f) e) :
    (e.modIst n g).complete ref .done 0 0 =
      { Dev.ringed d ((e.modIst n g).complete ref .done 0 0) with
        noz := e.noz, imp := (e.modIst n g).imp, hl := e.hl } := by
  rw [complete_frame]
  generalize (e.modIst n g).complete ref .done 0 0 = c
  unfold NozStep at h
  rw [h]
  rfl

theorem counted_back (t : Nat) (e : Enc) : Enc.counted false t e =
    { e with count := e.count - 1, edgeNs := t / 2 ^ 16, deficit := satInc 32 e.deficit } := rfl

theorem counted_pay (t : Nat) (e : Enc) (h : 0 < e.deficit) : Enc.counted true t e =
    { e with count := e.count + 1, edgeNs := t / 2 ^ 16, deficit := e.deficit - 1 } := by
  unfold Enc.counted
  simp only [Bool.not_true, Bool.false_eq_true, if_false, if_true]
  exact if_pos h

theorem counted_up (t : Nat) (e : Enc) (h : e.deficit = 0) : Enc.counted true t e =
    { e with count := e.count + 1, edgeNs := t / 2 ^ 16, m := e.m + 1
             xE := e.wpBase + 64 * e.ratio * (e.m + 1 - e.mBase) / 2 ^ 16, tE := t, edgeNew := true, still := false } := by
  unfold Enc.counted
  simp only [Bool.not_true, Bool.false_eq_true, if_false, if_true]
  exact if_neg (by simp [h])

theorem spoilEvery_none {d : Dev} (h : ∀ k, k < 4 → d.onWeb k = []) (r : Nat) : d.spoilEvery r = d := by
  unfold Dev.spoilEvery
  refine forN_id fun k hk => ?_
  unfold Dev.spoilAll
  rw [h k hk]
  rfl

theorem webLost_same (d : Dev) (w : Bool) (h : d.isWebLost = w) : d.webLost w = d := by
  unfold Dev.webLost
  have : (d.fire.lostSource || d.fire.lostSat) = w := h
  simp only [this]
  cases w <;> rfl

theorem modHp_twice (d : Dev) (q : Nat) (f g : HlPort → HlPort) : (d.modHp q f).modHp q g = d.modHp q (fun h => g (f h)) := by
  have h : (d.modHp q f).hp q = f (d.hp q) := Dev.hp_modHp _ _ _
  show ({ d with hl := { d.hl with ports := Tab.set q (g ((d.modHp q f).hp q)) (Tab.set q (f (d.hp q)) d.hl.ports) } } : Dev) = _
  rw [Tab.set_set, h]
  rfl

theorem forL_modEntry (f : Entry → Entry) (hf : ∀ e, f (f e) = f e) (l : List Nat) (d : Dev) (i : Nat) :
    (forL l (fun i d => Dev.modEntry i f d) d).entry i = if i ∈ l then f (d.entry i) else d.entry i := by
  induction l generalizing d with
  | nil => rfl
  | cons j t ih =>
    refine (ih (Dev.modEntry j f d)).trans ?_
    by_cases h : i = j
    · subst h; rw [Dev.entry_modEntry]; simp only [List.mem_cons, true_or, if_true, hf, ite_self]
    · rw [Dev.entry_modEntry_ne _ _ _ _ h]; simp [h]

theorem forL_modEntry_imp (f : Entry → Entry) (l : List Nat) (d : Dev) :
    forL l (fun i d => Dev.modEntry i f d) d = { d with imp := { d.imp with entries := (forL l (fun i d => Dev.modEntry i f d) d).imp.entries } } := by
  induction l generalizing d with
  | nil => rfl
  | cons j t ih =>
    show forL t _ (Dev.modEntry j f d) = { d with imp := { d.imp with entries := (forL t _ (Dev.modEntry j f d)).imp.entries } }
    rw [ih]; rfl

theorem forL_spoilEntry (l : List (Nat × Nat)) (d : Dev) (h : (l.map (·.1)).Nodup) :
    (∀ e ∈ l, (forL l (fun p d => d.spoilEntry p.1 p.2 none) d).entry e.1 = (d.entry e.1).next e.2) ∧
    (∀ j, j ∉ l.map (·.1) → (forL l (fun p d => d.spoilEntry p.1 p.2 none) d).entry j = d.entry j) ∧
    (forL l (fun p d => d.spoilEntry p.1 p.2 none) d).imp.jobs.map (·.record) = d.imp.jobs.map (·.record) ++ l.map (fun e =>
      { CkptRec.reset with
        id := (d.entry e.1).desc.id, acceptNum := (d.entry e.1).acceptNum, stream := (d.entry e.1).stream, event := 2
        attempt := (d.entry e.1).attempt }) := by
  induction l generalizing d with
  | nil => exact ⟨by simp, fun _ _ => rfl, by simp [forL]⟩
  | cons a t ih =>
    simp only [List.map_cons, List.nodup_cons] at h
    obtain ⟨h1, h2, h3⟩ := spoilEntry_spec d a.1 a.2 none
    obtain ⟨k1, k2, k3⟩ := ih (d.spoilEntry a.1 a.2 none) h.2
    refine ⟨?_, ?_, ?_⟩
    · intro e he
      rcases List.mem_cons.mp he with rfl | he
      · exact (k2 _ h.1).trans h1
      · refine (k1 e he).trans ?_
        rw [h2]
        intro hq; exact h.1 (hq ▸ List.mem_map_of_mem he)
    · intro j hj
      simp only [List.map_cons, List.mem_cons, not_or] at hj
      exact (k2 j hj.2).trans (h2 j hj.1)
    · refine k3.trans ?_
      rw [h3, List.append_assoc]
      refine congrArg _ ?_
      simp only [List.map_cons, List.singleton_append, List.cons.injEq, true_and]
      refine List.map_congr_left fun e he => ?_
      rw [h2]
      intro hq; exact h.1 (hq ▸ List.mem_map_of_mem he)

theorem fin_source (d : Dev) (n k : Nat) (f : Ring → Ring) (hf : ∀ r, (f r).source = r.source) :
    ((d.modRing n f).ring k).source = (d.ring k).source := by
  by_cases h : k = n
  · subst h; rw [Dev.ring_modRing]; exact hf _
  · rw [Dev.ring_modRing_ne _ _ _ _ h]

theorem newEntry_source (d : Dev) (p : Packet) (i k : Nat) : ((d.newEntry p i).ring k).source = (d.ring k).source := by
  unfold Dev.newEntry
  dsimp only
  refine (fin_source _ _ _ _ ?_).trans rfl
  exact fun _ => rfl

theorem freeEntry_source (d : Dev) (i k : Nat) : ((d.freeEntry i).ring k).source = (d.ring k).source := by
  unfold Dev.freeEntry
  dsimp only
  exact fin_source d (d.entry i).ring k (fun r => { r with windowOf := r.windowOf.map (fun q => if q.2 = i + 1 then (q.1, 0) else q) })
    fun _ => rfl

theorem newEntry_ist (d : Dev) (p : Packet) (i : Nat) : (d.newEntry p i).ist p.desc.stream = { d.ist p.desc.stream with
    nextAccept := ((d.ist p.desc.stream).nextAccept + 1) % 2 ^ 32
    awaiting := (d.ist p.desc.stream).awaiting ++ [((d.ist p.desc.stream).nextAccept, i)] } := by
  unfold Dev.newEntry
  dsimp only
  refine (show _ = _ from ?_ : (Dev.modRing _ _ _).ist _ = _)
  exact Tab.get_set_same ..

theorem newEntry_ist_ne (d : Dev) (p : Packet) (i : Nat) {j : Nat} (h : j ≠ p.desc.stream) :
    (d.newEntry p i).ist j = d.ist j := by
  unfold Dev.newEntry
  dsimp only
  exact Tab.get_set_ne _ _ _ h _

theorem shedFallback_spec (d : Dev) (i : Nat) : (∀ j, j ≠ i → (d.shedFallback i).entry j = d.entry j) ∧
    d.shedFallback i = { d with imp := { d.imp with entries := (d.shedFallback i).imp.entries }, scr := (d.shedFallback i).scr } ∧
    ∀ k, ((d.shedFallback i).sst k).cur = (d.sst k).cur := by
  obtain ⟨z, hz⟩ : ∃ z, z = d.shedFallback i := ⟨_, rfl⟩
  rw [← hz]
  unfold Dev.shedFallback at hz
  dsimp only at hz
  split at hz
  · unfold Dev.when at hz
    split at hz
    · subst hz
      refine ⟨fun j hj => ?_, rfl, fun k => ?_⟩
      · exact Dev.entry_modEntry_ne d i _ (fun e => { e with shedFallback := true }) hj
      · by_cases h : k = (d.entry i).stream
        · subst h; rw [Dev.sst_modSst]; rfl
        · rw [Dev.sst_modSst_ne _ _ _ _ h]; rfl
    · subst hz
      refine ⟨fun j hj => ?_, rfl, fun _ => rfl⟩
      exact Dev.entry_modEntry_ne d i _ (fun e => { e with shedFallback := true }) hj
  · subst hz; exact ⟨fun _ _ => rfl, rfl, fun _ => rfl⟩

theorem adopt_spec (d : Dev) (k : Nat) :
    (d.adopt k).sst k = { d.sst k with
      tone := (match (d.sst k).tonePend with | some y => some y | none => (d.sst k).tone)
      tonePend := none, density := (d.sst k).densityPend.getD (d.sst k).density, densityPend := none
      curCross := (d.sst k).phaseCross, curWeb := (d.sst k).phaseWeb, curStatus := (d.nst k).statusNext
      curShift := (d.nst k).shiftScreen } ∧
    d.adopt k = { d with scr := (d.adopt k).scr } := by
  unfold Dev.adopt
  dsimp only
  generalize hd : Dev.modSst k _ d = d1
  have h1 : d1 = { d with scr := d1.scr } := by rw [← hd]; rfl
  have h2 : d1.sst k = { d.sst k with
      tone := (match (d.sst k).tonePend with | some y => some y | none => (d.sst k).tone)
      tonePend := none, density := (d.sst k).densityPend.getD (d.sst k).density, densityPend := none
      curCross := (d.sst k).phaseCross, curWeb := (d.sst k).phaseWeb, curStatus := (d.nst k).statusNext
      curShift := (d.nst k).shiftScreen } := by rw [← hd]; exact Dev.sst_modSst ..
  clear hd
  generalize (d.nst k).ports = l
  induction l generalizing d1 with
  | nil => exact ⟨h2, h1⟩
  | cons a t ih => exact ih _ (by rw [h1]; rfl) h2

theorem modSst_entry (d : Dev) (k f j) : (Dev.modSst k f d).entry j = d.entry j := rfl

theorem when_true (f : Dev → Dev) (d : Dev) : Dev.when true f d = f d := rfl

theorem lined_spec (d : Dev) (k i n : Nat) (row : List Nat) (carry : List Int) (c1 c2 : Bool) :
    let z := Dev.when c2 (Dev.modSst k (fun x => { x with cur := none })) (Dev.when c1 (Dev.modEntry i (fun e =>
      { e with st := .staged, staged := true })) (Dev.modEntry i (fun e => { e with lines := e.lines ++ [row], carry := carry })
        (Dev.modSst k (fun x => { x with saturations := min (2 ^ 32 - 1) (x.saturations + n) }) d)))
    z.entry i = (if c1 then { d.entry i with lines := (d.entry i).lines ++ [row], carry := carry, st := .staged, staged := true }
      else { d.entry i with lines := (d.entry i).lines ++ [row], carry := carry }) ∧
    (∀ j, j ≠ i → z.entry j = d.entry j) ∧ (z.sst k).saturations = min (2 ^ 32 - 1) ((d.sst k).saturations + n) ∧
    (z.sst k).cur = (if c2 then none else (d.sst k).cur) ∧ z = { d with imp := z.imp, scr := z.scr } := by
  generalize hd1 : Dev.modSst k (fun x => { x with saturations := min (2 ^ 32 - 1) (x.saturations + n) }) d = d1
  generalize hd2 : Dev.modEntry i (fun e => { e with lines := e.lines ++ [row], carry := carry }) d1 = d2
  have e1 : ∀ j, d1.entry j = d.entry j := fun j => by rw [← hd1]; rfl
  have s1 : d1.sst k = { d.sst k with saturations := min (2 ^ 32 - 1) ((d.sst k).saturations + n) } := by
    rw [← hd1, Dev.sst_modSst]
  have f1 : d1 = { d with imp := d1.imp, scr := d1.scr } := by rw [← hd1]; rfl
  have e2 : d2.entry i = { d.entry i with lines := (d.entry i).lines ++ [row], carry := carry } := by
    rw [← hd2, Dev.entry_modEntry, e1]
  have o2 : ∀ j, j ≠ i → d2.entry j = d.entry j := fun j hj => by rw [← hd2, Dev.entry_modEntry_ne _ _ _ _ hj, e1]
  have s2 : d2.sst k = d1.sst k := by rw [← hd2]; rfl
  have f2 : d2 = { d with imp := d2.imp, scr := d2.scr } := by rw [← hd2, f1]; rfl
  clear hd1 hd2
  intro z
  obtain ⟨d3, hd3⟩ : ∃ d3, d3 = Dev.when c1 (Dev.modEntry i (fun e => { e with st := .staged, staged := true })) d2 := ⟨_, rfl⟩
  have hz : z = Dev.when c2 (Dev.modSst k (fun x => { x with cur := none })) d3 := by rw [hd3]
  clear_value z
  have e3 : d3.entry i = (if c1 then { d.entry i with lines := (d.entry i).lines ++ [row], carry := carry, st := .staged, staged := true }
      else { d.entry i with lines := (d.entry i).lines ++ [row], carry := carry }) := by
    rw [hd3]; cases c1
    · exact e2
    · rw [when_true, Dev.entry_modEntry, e2]; rfl
  have o3 : ∀ j, j ≠ i → d3.entry j = d.entry j := by
    intro j hj; rw [hd3]; cases c1
    · exact o2 j hj
    · rw [when_true, Dev.entry_modEntry_ne _ _ _ _ hj]; exact o2 j hj
  have s3 : d3.sst k = d1.sst k := by rw [hd3]; cases c1 <;> exact s2
  have f3 : d3 = { d with imp := d3.imp, scr := d3.scr } := by
    rw [hd3]; cases c1
    · exact f2
    · rw [when_true, f2]; rfl
  clear hd3
  subst hz
  refine ⟨?_, ?_, ?_, ?_, ?_⟩
  · cases c2 <;> exact e3
  · intro j hj; cases c2 <;> exact o3 j hj
  · cases c2
    · exact (congrArg ScrStream.saturations s3).trans (by rw [s1])
    · rw [when_true, Dev.sst_modSst, s3, s1]
  · cases c2
    · exact (congrArg ScrStream.cur s3).trans (by rw [s1]; rfl)
    · rw [when_true, Dev.sst_modSst]; rfl
  · cases c2
    · exact f3
    · rw [when_true, f3]; rfl

theorem foldl_set (l : List Density) (n : Nat) (t : Tab Density) (i : Nat) :
    Tab.get Density.reset ((l.zipIdx n).foldl (fun t e => Tab.set e.2 e.1 t) t) i =
      if n ≤ i ∧ i < n + l.length then l.getD (i - n) Density.reset else Tab.get Density.reset t i := by
  induction l generalizing n t with
  | nil => simp
  | cons a l ih =>
    rw [List.zipIdx_cons, List.foldl_cons, ih]
    by_cases h : i = n
    · subst h
      rw [if_neg (by omega), if_pos (by simp)]
      simp
    · rw [Tab.get_set_ne _ _ _ h]
      by_cases h2 : n + 1 ≤ i ∧ i < n + 1 + l.length
      · rw [if_pos h2, if_pos (by simp; omega), show i - n = i - (n + 1) + 1 by omega]; rfl
      · rw [if_neg h2, if_neg (by simp; omega)]

theorem roundOpen_le (tag : Nat) (num den m : Int) (hd : 0 < den) (h : num ≤ m * den) : roundOpen tag num den ≤ m := by
  unfold roundOpen
  have h1 : num / den ≤ m := by
    have : num / den ≤ (m * den) / den := Int.ediv_le_ediv hd h
    rwa [Int.mul_ediv_cancel _ (by omega)] at this
  have e := Int.mul_ediv_add_emod num den
  have hm := Int.emod_nonneg num (show den ≠ 0 by omega)
  split
  · exact h1
  · rename_i hne
    split
    · by_contra hq
      have : num / den = m := by omega
      rw [this] at e
      have : den * m + num % den = num := e
      have : m * den = den * m := Int.mul_comm _ _
      omega
    · exact h1

/-- One port's bias. -/
theorem heatBias_spec (p : Nat) (d : Dev) :
    (∀ q, q ≠ p → (Dev.heatBias p d).pmodel q = d.pmodel q) ∧ ((d.hp p).st ≠ .up → Dev.heatBias p d = d) ∧
    ((d.hp p).st = .up →
      ((Dev.heatBias p d).pmodel p).overMs = (if 32 < (d.hp p).temp - (d.pmodel p).pred then min 1100 ((d.pmodel p).overMs + 100) else 0) ∧
      ((Dev.heatBias p d).pmodel p).bias = (clampI ((d.pmodel p).bias +
        roundOpen 31 (((d.hp p).temp - (d.pmodel p).pred - (d.pmodel p).bias) * Config.expRise 1 10) (2 ^ 32)) 0 160).toNat) ∧
    (((d.hp p).st = .up → (d.hp p).temp - (d.pmodel p).pred ≤ 32) → (Dev.heatBias p d).flt = d.flt) ∧
    Dev.heatBias p d = { d with sched := (Dev.heatBias p d).sched, flt := (Dev.heatBias p d).flt } := by
  by_cases h : (d.hp p).st = .up
  · unfold Dev.heatBias
    rw [if_neg (by simp [h])]
    dsimp only
    generalize hx : (clampI ((d.pmodel p).bias +
        roundOpen 31 (((d.hp p).temp - (d.pmodel p).pred - (d.pmodel p).bias) * Config.expRise 1 10) (2 ^ 32)) 0 160).toNat = bias
    generalize hh : (if 32 < (d.hp p).temp - (d.pmodel p).pred then min 1100 ((d.pmodel p).overMs + 100) else 0) = high
    generalize hd1 : Dev.modPmodel p (fun m => { m with bias := bias, overMs := high }) d = d1
    generalize Dev.heatStep d1 p 10 (d.hp p).temp 1 (d1.dropNow p) = pr
    generalize hd2 : Dev.modPmodel p (fun m => { m with pred := pr }) d1 = d2
    have a1 : ∀ q, q ≠ p → d2.pmodel q = d.pmodel q := fun q hq => by
      rw [← hd2, Dev.pmodel_modPmodel_ne _ _ _ _ hq, ← hd1, Dev.pmodel_modPmodel_ne _ _ _ _ hq]
    have a2 : d2.pmodel p = { d.pmodel p with bias := bias, overMs := high, pred := pr } := by
      rw [← hd2, Dev.pmodel_modPmodel, ← hd1, Dev.pmodel_modPmodel]
    have a3 : d2 = { d with sched := d2.sched } := by rw [← hd2, ← hd1]; rfl
    have aw : ∀ b : Bool, (∀ q, (Dev.when b (fun d => d.raise 90 0) d2).pmodel q = d2.pmodel q) ∧
        Dev.when b (fun d => d.raise 90 0) d2 = { d2 with flt := (Dev.when b (fun d => d.raise 90 0) d2).flt } := by
      intro b; cases b <;> exact ⟨fun _ => rfl, rfl⟩
    obtain ⟨w1, w2⟩ := aw (decide (high = 1000))
    refine ⟨fun q hq => (w1 q).trans (a1 q hq), fun hn => absurd h hn, fun _ => ?_, fun hq => ?_, ?_⟩
    · rw [w1, a2]; exact ⟨rfl, rfl⟩
    · have : high = 0 := by rw [← hh]; exact if_neg (by have := hq h; omega)
      rw [this]
      show d2.flt = d.flt
      rw [a3]
    · generalize Dev.when _ _ d2 = z at w2 ⊢
      rw [w2, a3]
  · have : Dev.heatBias p d = d := by unfold Dev.heatBias; exact if_pos (by simp [h])
    rw [this]
    exact ⟨fun _ _ => rfl, fun _ => rfl, fun hu => absurd hu h, fun _ => rfl, rfl⟩

theorem sampleInd_spec (v : List (Nat × Nat)) (s d : Dev) (n : Nat) (hd : d = { s with wear := d.wear })
    (hn : d.wearInd n = s.wearInd n) :
    ((Dev.sampleInd v n d).wearInd n).latest = s.indValue n v ∧
    ((Dev.sampleInd v n d).wearInd n).samples = (s.indValue n v :: (s.wearInd n).samples).take 64 ∧
    (∀ m, m ≠ n → (Dev.sampleInd v n d).wearInd m = d.wearInd m) ∧
    Dev.sampleInd v n d = { s with wear := (Dev.sampleInd v n d).wear } ∧
    (Dev.sampleInd v n d).wear.stored = d.wear.stored := by
  have hv : d.indValue n v = s.indValue n v := by
    unfold Dev.indValue
    rw [hn, hd]; rfl
  unfold Dev.sampleInd
  dsimp only
  rw [hv]
  refine ⟨?_, ?_, fun m hm => Dev.wearInd_modWearInd_ne _ _ _ _ hm, ?_, rfl⟩
  · rw [Dev.wearInd_modWearInd]
  · rw [Dev.wearInd_modWearInd, hn]
  · rw [hd]; rfl

theorem sampleAll (v : List (Nat × Nat)) (s : Dev) (l : List Nat) (d : Dev) (hl : l.Nodup) (hd : d = { s with wear := d.wear })
    (h : ∀ n ∈ l, d.wearInd n = s.wearInd n) :
    (∀ n ∈ l, ((forL l (Dev.sampleInd v) d).wearInd n).latest = s.indValue n v ∧
      ((forL l (Dev.sampleInd v) d).wearInd n).samples = (s.indValue n v :: (s.wearInd n).samples).take 64) ∧
    (∀ n, n ∉ l → (forL l (Dev.sampleInd v) d).wearInd n = d.wearInd n) ∧
    forL l (Dev.sampleInd v) d = { s with wear := (forL l (Dev.sampleInd v) d).wear } ∧
    (forL l (Dev.sampleInd v) d).wear.stored = d.wear.stored := by
  induction l generalizing d with
  | nil => exact ⟨by simp, fun _ _ => rfl, hd, rfl⟩
  | cons a t ih =>
    rw [List.nodup_cons] at hl
    obtain ⟨b1, b2, b3, b4, b5⟩ := sampleInd_spec v s d a hd (h a (by simp))
    obtain ⟨i1, i2, i3, i4⟩ := ih (Dev.sampleInd v a d) hl.2 b4 (fun n hn => by
      rw [b3 n (fun e => hl.1 (e ▸ hn))]; exact h n (by simp [hn]))
    refine ⟨fun n hn => ?_, fun n hn => ?_, i3, i4.trans b5⟩
    · rcases List.mem_cons.mp hn with rfl | hn
      · show ((forL t (Dev.sampleInd v) (Dev.sampleInd v n d)).wearInd n).latest = _ ∧ ((forL t (Dev.sampleInd v) (Dev.sampleInd v n d)).wearInd n).samples = _
        rw [i2 n hl.1]; exact ⟨b1, b2⟩
      · exact i1 n hn
    · simp only [List.mem_cons, not_or] at hn
      exact (i2 n hn.2).trans (b3 n hn.1)

theorem wearIds_nodup : wearIds.Nodup := by decide

/-- What the end of one memory test does. -/
theorem memtestEnd_spec (n : Nat) (st : Status) (x : Nat) (s : State) :
    ((State.memtestEnd n st x s).dev.bank n).memtest = none ∧ (∀ m, m ≠ n → (State.memtestEnd n st x s).dev.bank m = s.dev.bank m) ∧
    (State.memtestEnd n st x s).dev.diag = s.dev.diag ∧ (State.memtestEnd n st x s).dev.flt = s.dev.flt ∧
    (State.memtestEnd n st x s).mem.flash = s.mem.flash ∧
    ((s.dev.bank n).memtest = none → State.memtestEnd n st x s = s) ∧
    (∀ a, Memory.read sramDefault s.mem.sram a = sramDefault → Memory.read sramDefault (State.memtestEnd n st x s).mem.sram a = sramDefault) ∧
    ((s.dev.bank n).memtest ≠ none → ∀ a, n * bankBytes ≤ a → a < n * bankBytes + bankBytes →
      Memory.read sramDefault (State.memtestEnd n st x s).mem.sram a = sramDefault) := by
  unfold State.memtestEnd
  cases h : (s.dev.bank n).memtest with
  | none => exact ⟨h, fun _ _ => rfl, rfl, rfl, rfl, fun _ => rfl, fun _ ha => ha, fun hn => absurd rfl hn⟩
  | some q =>
    dsimp only
    refine ⟨?_, fun m hm => ?_, ?_, ?_, rfl, fun hn => by simp at hn, fun a ha => ?_, fun _ a h1 h2 => ?_⟩
    · show ((Dev.complete q st x 0 (s.dev.modBank n _)).bank n).memtest = none
      rw [complete_bank_at, Dev.bank_modBank]
    · show (Dev.complete q st x 0 (s.dev.modBank n _)).bank m = _
      rw [complete_bank_at, Dev.bank_modBank_ne _ _ _ _ hm]
    · show (Dev.complete q st x 0 (s.dev.modBank n _)).diag = _
      rw [complete_diag]; rfl
    · show (Dev.complete q st x 0 (s.dev.modBank n _)).flt = _
      rw [complete_flt]; rfl
    · show Memory.read sramDefault (Memory.clear _ _ _) a = _
      rw [Memory.read_clear]; split
      · rfl
      · exact ha
    · show Memory.read sramDefault (Memory.clear _ _ _) a = _
      rw [Memory.read_clear, if_pos ⟨h1, h2⟩]

theorem memtestAll (m : Nat) (s : State) (st : Status) (x : Nat) :
    let z := (List.range m).foldl (fun s n => State.memtestEnd n st x s) s
    (∀ n, n < m → (z.dev.bank n).memtest = none) ∧ (∀ n, m ≤ n → z.dev.bank n = s.dev.bank n) ∧
    z.dev.diag = s.dev.diag ∧ z.dev.flt = s.dev.flt ∧ z.mem.flash = s.mem.flash ∧
    ((∀ n, n < m → (s.dev.bank n).memtest = none) → z = s) ∧
    (∀ n, n < m → (s.dev.bank n).memtest ≠ none → ∀ a, n * bankBytes ≤ a → a < n * bankBytes + bankBytes →
      Memory.read sramDefault z.mem.sram a = sramDefault) := by
  induction m with
  | zero => exact ⟨fun _ h => absurd h (by omega), fun _ _ => rfl, rfl, rfl, rfl, fun _ => rfl, fun _ h => absurd h (by omega)⟩
  | succ m ih =>
    intro z
    simp only [z, List.range_succ, List.foldl_append, List.foldl_cons, List.foldl_nil]
    dsimp only at ih
    generalize (List.range m).foldl (fun s n => State.memtestEnd n st x s) s = y at ih
    obtain ⟨i1, i2, i3, i4, i5, i6, i7⟩ := ih
    obtain ⟨b1, b2, b3, b4, b5, b6, b7, b8⟩ := memtestEnd_spec m st x y
    refine ⟨fun n hn => ?_, fun n hn => ?_, b3.trans i3, b4.trans i4, b5.trans i5, fun h => ?_, fun n hn ht a h1 h2 => ?_⟩
    · by_cases hq : n = m
      · subst hq; exact b1
      · rw [b2 n hq]; exact i1 n (by omega)
    · rw [b2 n (by omega)]; exact i2 n (by omega)
    · have hy := i6 fun n hn => h n (by omega)
      rw [b6 (by rw [hy]; exact h m (by omega)), hy]
    · by_cases hq : n = m
      · subst hq; exact b8 (by rw [i2 n (Nat.le_refl _)]; exact ht) a h1 h2
      · exact b7 a (i7 n (by omega) ht a h1 h2)

theorem fixGaps_imp (d : Dev) (k : Nat) : (d.fixGaps k).imp = d.imp := by
  unfold Dev.fixGaps
  dsimp only
  split
  · rfl
  · split <;> rfl

theorem setTarget_imp (d : Dev) (v : Nat) : (d.setTarget v).imp = d.imp := by
  unfold Dev.setTarget; split <;> rfl

theorem updFloor_imp (d : Dev) : d.updFloor.imp = d.imp := by
  unfold Dev.updFloor
  dsimp only
  split
  · exact setTarget_imp _ _
  · rfl

theorem askVoltage_imp (e : Entry) (l : List Nat) (d : Dev) : (d.askVoltage e l).imp = d.imp := by
  have hx : ∀ x : Dev, (if x.coreRuns then x.updFloor else x : Dev).imp = x.imp := by
    intro x; split
    · exact updFloor_imp _
    · rfl
  unfold Dev.askVoltage
  split
  · split
    · exact hx _
    · rfl
  · rfl

theorem commitAt_entry (d : Dev) (i : Nat) (f : Int) :
    ((d.commitAt i f).entry i).st = .committed ∧ ((d.commitAt i f).entry i).firstLine = some f ∧
    ∀ j, j ≠ i → (d.commitAt i f).entry j = d.entry j := by
  unfold Dev.commitAt
  dsimp only
  generalize hm : d.modEntry i _ = m
  have hj : ∀ (g : ImpStream → ImpStream) (k j : Nat), ((m.modIst k g).fixGaps k).entry j = m.entry j := fun g k j => by
    unfold Dev.entry; rw [fixGaps_imp]; rfl
  refine ⟨?_, ?_, fun j hne => ?_⟩
  · rw [hj, ← hm, Dev.entry_modEntry]
  · rw [hj, ← hm, Dev.entry_modEntry]
  · rw [hj, ← hm, Dev.entry_modEntry_ne _ _ _ _ hne]

end Sys2Proof.Laws
end

