-- ==== Sys2Proof/Laws/Units.lean ====
section
/-! SUPPORT. Boot, rails, domains, clocks, memories, rings and datagrams: what single operations do. -/

namespace Sys2Proof.Laws

open Machine

theorem warmSys_mask (c : Nat) (d : Dev) : (d.warmSys c).sys.irqMask = 0 := by
  unfold Dev.warmSys
  dsimp only
  exact (forN_keep (fun d => d.sys.irqMask) (fun k d => by show (if _ then _ else d : Dev).sys.irqMask = _; split <;> rfl) 4 _)

theorem when_mask (b : Bool) (d : Dev) (h : d.sys.irqMask = 0) : ((d.when b Dev.leaveSaddle).msix 1).sys.irqMask = 0 := by
  show (Dev.when b Dev.leaveSaddle d).sys.irqMask = 0
  unfold Dev.when
  split
  · unfold Dev.leaveSaddle
    exact (forN_keep (fun d => d.sys.irqMask) (fun k d => rfl) 11 _).trans h
  · exact h

theorem coldBooted_settled {c : Nat} {s t : State} (h : ColdBooted c s t) : Settled t := h.2.2.2.2.2.2.2.1

theorem loadWear_frame (d : Dev) : d.loadWear = { d with wear := d.loadWear.wear } := by
  unfold Dev.loadWear
  cases d.wear.saved with
  | none => rfl
  | some w => rfl

/-- The bytes of flash that programming does not reach keep their values. -/
theorem program_read (a : Nat) (b : List Nat) (m : Mems) {k : Nat} (h : k < a ∨ a + b.length ≤ k) :
    Memory.read flashDefault (m.program a b).flash k = Memory.read flashDefault m.flash k := by
  unfold Mems.program
  dsimp only
  refine Memory.read_writeList_ne a _ m.flash ?_
  have hl : ((b.zip (m.flashBytes a b.length)).map (fun x => BitVec.ofNat 8 (x.1 % 256 &&& x.2))).length ≤ b.length := by
    rw [List.length_map, List.length_zip]; exact Nat.min_le_left _ _
  omega

theorem warmReset_ignored (c : Nat) (d : Dev) (h : d.sched.stopping = true ∨ d.goingDown = true) : d.warmReset c = d := by
  unfold Dev.warmReset
  exact if_pos (by rcases h with h | h <;> simp [h])

theorem failedOff_rail (l : List Nat) (d : Dev) (n : Nat) :
    let z := forL l (fun n d => d.modRail n (fun r => if r.st = .failed then { r with st := .off } else r)) d
    (z.rail n = if n ∈ l ∧ (d.rail n).st = .failed then { d.rail n with st := .off } else d.rail n) ∧ z = { d with pwr := z.pwr } := by
  induction l generalizing d with
  | nil => exact ⟨by simp [forL], rfl⟩
  | cons a t ih =>
    obtain ⟨h1, h2⟩ := ih (d.modRail a (fun r => if r.st = .failed then { r with st := .off } else r))
    refine ⟨h1.trans ?_, h2.trans rfl⟩
    by_cases q : n = a
    · subst q
      rw [Dev.rail_modRail]
      by_cases f : (d.rail n).st = .failed
      · simp [f]
      · simp [f]
    · rw [Dev.rail_modRail_ne _ _ _ _ q]
      simp [q]

/-- What switching a domain off does to the device. -/
theorem offDomain_spec (k : Nat) (d g : Dev) (hg : g = ((d.modDom k (fun _ => Dom.off)).domainReset k).dropSources k) :
    g.dom k = .off ∧ (∀ j, j ≠ k → g.dom j = d.dom j) ∧ g.pwr.rails = d.pwr.rails ∧
    (k = 9 → g.time = { Time.reset with tb2 := d.time.tb2 }) ∧
    (k = 10 → g.hl = { Hl.reset with fuses := d.hl.fuses, fuseDone := d.hl.fuseDone }) ∧
    g.flt.todo = d.flt.todo ∧ g = { d with pwr := g.pwr, time := g.time, hl := g.hl, flt := g.flt } := by
  obtain ⟨e, he⟩ : ∃ e, e = (d.modDom k (fun _ => Dom.off)).domainReset k := ⟨_, rfl⟩
  rw [← he] at hg
  have h1 := domStep_dropSources k e
  have hp : (e.dropSources k).pwr = e.pwr := by
    unfold Dev.dropSources
    exact forL_keep (fun d => d.pwr) (f := fun n d => d.modSrc n (fun x => { x with
      raised := false, wireErr := false, softTimer := none, st := if x.st = .active then .quiet else x.st })) (fun _ _ => rfl) _ e
  rw [← hg] at h1 hp
  have a1 : e.pwr = (d.modDom k (fun _ => Dom.off)).pwr := by
    rw [he]; unfold Dev.domainReset; split <;> rfl
  have a2 : e.flt = d.flt := by
    rw [he]; unfold Dev.domainReset; split <;> rfl
  have a3 : e = { d with pwr := e.pwr, time := e.time, hl := e.hl, flt := e.flt } := by
    rw [he]; unfold Dev.domainReset; split <;> rfl
  have b1 : g.time = e.time := by rw [h1.1]
  have b2 : g.hl = e.hl := by rw [h1.1]
  have hd : ∀ j, g.dom j = (d.modDom k (fun _ => Dom.off)).dom j := fun j => by unfold Dev.dom; rw [hp, a1]
  refine ⟨?_, fun j hj => ?_, ?_, fun hk => ?_, fun hk => ?_, h1.2.1.trans (congrArg Flt.todo a2), ?_⟩
  · rw [hd, Dev.dom_modDom]
  · rw [hd, Dev.dom_modDom_ne _ _ _ _ hj]
  · rw [hp, a1]; rfl
  · rw [b1, he, hk]; rfl
  · rw [b2, he, hk]; rfl
  · rw [h1.1, a3]

theorem pll_two (f : Pll → Pll) (d : Dev) (k : Nat) :
    ((d.modPll 0 f).modPll 1 f).pll k = if k < 2 then f (d.pll k) else d.pll k := by
  by_cases h1 : k = 1
  · subst h1
    rw [Dev.pll_modPll, Dev.pll_modPll_ne _ _ _ _ (by omega)]; rfl
  · rw [Dev.pll_modPll_ne _ _ _ _ h1]
    by_cases h0 : k = 0
    · subst h0; rw [Dev.pll_modPll]; rfl
    · rw [Dev.pll_modPll_ne _ _ _ _ h0, if_neg (by omega)]

theorem ite_and_bool {α : Type} (a b : Prop) [Decidable a] [Decidable b] (x y : α) :
    (if (decide a && decide b) = true then x else y) = if a ∧ b then x else y := by
  by_cases h : a <;> by_cases k : b <;> simp [h, k]

/-- The bank's registers after one Scree region. -/
theorem screeRegion_eq (n : Nat) (fails : Bool) (d : Dev) :
    Dev.screeRegion n fails d = if (!(d.bank n).scree || !(decide ((d.bank n).power = 0)) || decide (1 ≤ d.sched.stage)) = true then d
      else (((d.modBank n fun x => { x with
          screePos := if 8191 ≤ (d.bank n).screePos then 0 else x.screePos + 1,
          screePass := if 8191 ≤ (d.bank n).screePos then (x.screePass + 1) % 65536 else x.screePass,
          screeFails := if fails = true then satInc 32 x.screeFails else x.screeFails,
          remaps := if fails = true ∧ (d.bank n).remaps.length < 8 then x.screePos :: x.remaps else x.remaps,
          sparesOut := x.sparesOut || (fails && decide (8 ≤ (d.bank n).remaps.length)) }).when fails (Dev.raise 208 0)).when
            (decide (8191 ≤ (d.bank n).screePos) && !(d.bank n).screeCont) (Dev.screeStop n)) := by
  have h8 : (!decide ((d.bank n).remaps.length < 8)) = decide (8 ≤ (d.bank n).remaps.length) := by
    by_cases h : (d.bank n).remaps.length < 8
    · simp [h]
    · simp [h]; omega
  unfold Dev.screeRegion
  dsimp only
  simp only [Bool.and_eq_true, decide_eq_true_eq, h8]

theorem bits_one (x k : Nat) : bits x k 1 = (x.testBit k).toNat := by
  unfold bits
  rw [Nat.testBit_eq_decide_div_mod_eq, pow_one]
  have := Nat.mod_lt (x / 2 ^ k) (by decide : 0 < 2)
  by_cases h : x / 2 ^ k % 2 = 1
  · simp [h]
  · simp [h]; omega

theorem bit_set (v c : BitVec 32) (k : Nat) (h : c.toNat.testBit k = true) : bits (v ||| c).toNat k 1 = 1 := by
  rw [bits_one, BitVec.toNat_or, Nat.testBit_or, h]; simp

theorem bit_clear (v c : BitVec 32) (k : Nat) (h : c.toNat.testBit k = false) : bits (v &&& c).toNat k 1 = 0 := by
  rw [bits_one, BitVec.toNat_and, Nat.testBit_and, h]; simp

theorem bit_keep (v c : BitVec 32) (k : Nat) (h : c.toNat.testBit k = false) : bits (v ||| c).toNat k 1 = bits v.toNat k 1 := by
  rw [bits_one, bits_one, BitVec.toNat_or, Nat.testBit_or, h]; simp

theorem ctrlWrite_eq (n w : Nat) (d : Dev) :
    let e := (if bits w 25 1 = 1 ∧ (d.ring n).enable = false then d.modRing n fun r => { r with seqValid := false, window := [], windowOf := [] }
      else d).modRing n fun r => { r with
        log2Slots := bits w 0 5, source := bits w 6 2, priority := bits w 8 2, weight := bits w 16 8 }
    Dev.ringCtrlWrite n w d = if bits w 24 1 = 1 then
        (if (d.ring n).enable = true then e else if (e.ring n).configOk n = true then e.ringOn n
          else e.modRing n (fun r => { r with configErr := true }))
        else if (d.ring n).enable = true then e.ringOff n else e := by
  let G : Dev → Dev := fun d1 =>
    let e := d1.modRing n fun r => { r with
      log2Slots := bits w 0 5, source := bits w 6 2, priority := bits w 8 2, weight := bits w 16 8 }
    if bits w 24 1 = 1 then
      (if (d.ring n).enable = true then e else if (e.ring n).configOk n = true then e.ringOn n
        else e.modRing n (fun r => { r with configErr := true }))
      else if (d.ring n).enable = true then e.ringOff n else e
  have hA : ∀ A : Dev, (if (decide (bits w 25 1 = 1) && !(d.ring n).enable) = true then A else d) =
      if bits w 25 1 = 1 ∧ (d.ring n).enable = false then A else d := by
    intro A
    by_cases q : bits w 25 1 = 1 ∧ (d.ring n).enable = false
    · rw [if_pos q, if_pos (by simp [q.1, q.2])]
    · rw [if_neg q, if_neg (by simpa using q)]
  exact congrArg G (hA _)

theorem ringStep_ringOff (n : Nat) (d : Dev) : RingStep d (d.ringOff n) := by
  unfold Dev.ringOff
  dsimp only
  exact ((ringStep_modRing _ _ _).trans (forL_complete_frame _ _ _)).trans (ringStep_settleRing _ _)

/-- What a datagram does by its type. -/
theorem dgram_eq (port k : Nat) (udp : List Nat) (f : Transport → Dev → Dev) (d : Dev) (hr : d.ringsRun = true) :
    (if d.ringsRun then d.dgram port k udp f else d) = if d.dgramDropped udp = true then
        d.modEth port (fun e => { e with drops := satInc 32 e.drops })
      else if (transportOf udp).type = k ∧ d.serves (transportOf udp).ring = true then f (transportOf udp) d else d := by
  rw [if_pos hr]
  unfold Dev.dgram
  by_cases q : d.dgramDropped udp = true
  · rw [if_pos q, if_pos q]
  · rw [if_neg q, if_neg q]
    dsimp only
    by_cases x : (transportOf udp).type = k ∧ d.serves (transportOf udp).ring = true
    · rw [if_pos x, if_pos (by simp [x.1, x.2])]
    · rw [if_neg x, if_neg (by simpa using x)]

end Sys2Proof.Laws
end

