-- ==== Sys2Proof/WellFormed.lean ====
section
/-! DEFINITION. Which commands can come from outside: every index names a unit the device has, and every byte is a byte. -/

namespace Sys2Proof

/-- The indices of a command, each with the number of units it chooses among: 256 rings (R92), 4 streams, 16 head ports, 32
DMA channels, 8 axes, 12 banks, 16 rails, 256 fault sources and so on; a SEQ has 32 bits (R103) and a BAR0 offset 24, a BAR2 offset 28. -/
def Instr.indices : Instr → List (Nat × Nat)
  | .registerWrite _ addr _ => [(addr, 16777216)]
  | .readToClear _ addr => [(addr, 16777216)]
  | .counterLowRead _ addr => [(addr, 16777216)]
  | .mspiWriteFrame addr _ => [(addr, 16777216)]
  | .mspiReadFrame addr _ _ => [(addr, 16777216)]
  | .bar2Write offset _ => [(offset, 268435456)]
  | .ringTailWrite r _ => [(r, 256)]
  | .ringSlotFetch r _ => [(r, 256)]
  | .indirectPayloadFetch r seq _ => [(r, 256), (seq, 4294967296)]
  | .cqHeadWrite r _ => [(r, 256)]
  | .ringEnable r _ => [(r, 256)]
  | .ringDisable r _ => [(r, 256)]
  | .clearWindow r _ => [(r, 256)]
  | .ringIrqHoldoffEnd r => [(r, 256)]
  | .rptqHeadWrite st _ => [(st, 4)]
  | .rptqEnable st _ => [(st, 4)]
  | .capqHeadWrite st _ => [(st, 4)]
  | .captureRecordDeliver st => [(st, 4)]
  | .ethCmdReceive port _ _ => [(port, 2)]
  | .ethBulkReceive port _ _ => [(port, 2)]
  | .ethAckReceive port _ _ => [(port, 2)]
  | .ethAckTimer r => [(r, 256)]
  | .ethRtoExpire r tseq => [(r, 256), (tseq, 4294967296)]
  | .sysNop r seq => [(r, 256), (seq, 4294967296)]
  | .sysBarrier r seq => [(r, 256), (seq, 4294967296)]
  | .barrierTimeout r seq => [(r, 256), (seq, 4294967296)]
  | .sysInfo r seq => [(r, 256), (seq, 4294967296)]
  | .sysSetAddr r seq => [(r, 256), (seq, 4294967296)]
  | .sysTrigCancel r seq => [(r, 256), (seq, 4294967296)]
  | .sysWarmReset r seq => [(r, 256), (seq, 4294967296)]
  | .sysPowerCycle r seq => [(r, 256), (seq, 4294967296)]
  | .sysFwWrite r seq => [(r, 256), (seq, 4294967296)]
  | .sysFwActivate r seq => [(r, 256), (seq, 4294967296)]
  | .regRead r seq => [(r, 256), (seq, 4294967296)]
  | .regWrite r seq => [(r, 256), (seq, 4294967296)]
  | .regRmw r seq => [(r, 256), (seq, 4294967296)]
  | .regPoll r seq => [(r, 256), (seq, 4294967296)]
  | .regPollRead r seq => [(r, 256), (seq, 4294967296)]
  | .regPollTimeout r seq => [(r, 256), (seq, 4294967296)]
  | .regTableWrite r seq => [(r, 256), (seq, 4294967296)]
  | .regTableRead r seq => [(r, 256), (seq, 4294967296)]
  | .timeTriggerDue r seq => [(r, 256), (seq, 4294967296)]
  | .impSubmit r seq => [(r, 256), (seq, 4294967296)]
  | .impCancel r seq => [(r, 256), (seq, 4294967296)]
  | .impSpoil r seq => [(r, 256), (seq, 4294967296)]
  | .impRelease r seq => [(r, 256), (seq, 4294967296)]
  | .impConfigStream r seq => [(r, 256), (seq, 4294967296)]
  | .impRecover r seq => [(r, 256), (seq, 4294967296)]
  | .impReinit r seq => [(r, 256), (seq, 4294967296)]
  | .stageObjOpen r seq => [(r, 256), (seq, 4294967296)]
  | .stageObjAppend r seq => [(r, 256), (seq, 4294967296)]
  | .stageObjClose r seq => [(r, 256), (seq, 4294967296)]
  | .stageObjFree r seq => [(r, 256), (seq, 4294967296)]
  | .stageDmaStart r seq => [(r, 256), (seq, 4294967296)]
  | .stageDmaAbort r seq => [(r, 256), (seq, 4294967296)]
  | .stageCapture r seq => [(r, 256), (seq, 4294967296)]
  | .stageReinit r seq => [(r, 256), (seq, 4294967296)]
  | .dmaGo c _ => [(c, 32)]
  | .dmaCtrlAbort c _ => [(c, 32)]
  | .dmaCtrlClear c _ => [(c, 32)]
  | .dmaTransferEnd c _ _ => [(c, 32)]
  | .dmaBusError c _ _ _ _ => [(c, 32)]
  | .lookaheadDecodeStart index => [(index, 1048576)]
  | .lookaheadDecodeEnd index => [(index, 1048576)]
  | .stagingDecodeEnd index _ segment _ => [(index, 1048576), (segment, 256)]
  | .attemptBoundary st => [(st, 4)]
  | .screenLineDone st => [(st, 4)]
  | .scrCapacityUpdate st _ _ => [(st, 4)]
  | .scrLoadTone r seq => [(r, 256), (seq, 4294967296)]
  | .scrLoadDensity r seq => [(r, 256), (seq, 4294967296)]
  | .scrLoadThresh r seq => [(r, 256), (seq, 4294967296)]
  | .scrSetDiffusion r seq => [(r, 256), (seq, 4294967296)]
  | .scrLoadDropmap r seq => [(r, 256), (seq, 4294967296)]
  | .scrReinit r seq => [(r, 256), (seq, 4294967296)]
  | .nozConfigStream r seq => [(r, 256), (seq, 4294967296)]
  | .nozLoadStatus r seq => [(r, 256), (seq, 4294967296)]
  | .nozSwapStatus r seq => [(r, 256), (seq, 4294967296)]
  | .nozLoadTakeover r seq => [(r, 256), (seq, 4294967296)]
  | .nozSetStitch r seq => [(r, 256), (seq, 4294967296)]
  | .nozSetDelay r seq => [(r, 256), (seq, 4294967296)]
  | .nozLoadOffsets r seq => [(r, 256), (seq, 4294967296)]
  | .nozReinit r seq => [(r, 256), (seq, 4294967296)]
  | .encoderTransition e _ _ _ => [(e, 2)]
  | .encoderIndexEdge e => [(e, 2)]
  | .encoderLos e => [(e, 2)]
  | .fsyncEmit port => [(port, 16)]
  | .fireConfigEncoder r seq => [(r, 256), (seq, 4294967296)]
  | .fireSetRatio r seq => [(r, 256), (seq, 4294967296)]
  | .fireSetTracking r seq => [(r, 256), (seq, 4294967296)]
  | .fireSetDatum r seq => [(r, 256), (seq, 4294967296)]
  | .fireRegister r seq => [(r, 256), (seq, 4294967296)]
  | .fireReinit r seq => [(r, 256), (seq, 4294967296)]
  | .hlLineSend port => [(port, 16)]
  | .hlFeederDeadline port => [(port, 16)]
  | .hlLstatReceive port _ => [(port, 16)]
  | .hlLstatTimeout port => [(port, 16)]
  | .hlRxLockLoss port => [(port, 16)]
  | .hlReplayTimeout port tseq => [(port, 16), (tseq, 4294967296)]
  | .hlFireConfirmTimeout port => [(port, 16)]
  | .hlVoidCheckTimeout port => [(port, 16)]
  | .hlHrstRelease port => [(port, 16)]
  | .hlTrainingSetReceive port _ _ => [(port, 16)]
  | .hlDeclareReceive port _ => [(port, 16)]
  | .hlRespReceive port _ _ => [(port, 16)]
  | .hlTrainingTimeout port => [(port, 16)]
  | .hlI2cTransactionEnd port _ _ => [(port, 16)]
  | .hlHalertLow port => [(port, 16)]
  | .hlUsageIncrementTimer port => [(port, 16)]
  | .headTrain r seq => [(r, 256), (seq, 4294967296)]
  | .headAuth r seq => [(r, 256), (seq, 4294967296)]
  | .headLoadWave r seq => [(r, 256), (seq, 4294967296)]
  | .headSelectWave r seq => [(r, 256), (seq, 4294967296)]
  | .headReset r seq => [(r, 256), (seq, 4294967296)]
  | .headReadCounter r seq => [(r, 256), (seq, 4294967296)]
  | .headReinit r seq => [(r, 256), (seq, 4294967296)]
  | .heldAttemptTimer st => [(st, 4)]
  | .pwrSetCap r seq => [(r, 256), (seq, 4294967296)]
  | .pwrSetExtBudget r seq => [(r, 256), (seq, 4294967296)]
  | .maintStart r seq => [(r, 256), (seq, 4294967296)]
  | .maintEnd r seq => [(r, 256), (seq, 4294967296)]
  | .maintQuery r seq => [(r, 256), (seq, 4294967296)]
  | .maintQueryTimeout r seq => [(r, 256), (seq, 4294967296)]
  | .maintActivityTimeout id => [(id, 4294967296)]
  | .maintReinit r seq => [(r, 256), (seq, 4294967296)]
  | .ptpSyncReceive k port _ => [(k, 2), (port, 2)]
  | .ptpFollowUpReceive k port _ => [(k, 2), (port, 2)]
  | .ptpDelayRespReceive k port _ => [(k, 2), (port, 2)]
  | .ptpPdelayReceive port _ => [(port, 2)]
  | .ptpAnnounceReceive k port _ => [(k, 2), (port, 2)]
  | .ptpSyncTimeout k => [(k, 2)]
  | .ptpAnnounceTimeout k => [(k, 2)]
  | .ptpMessageSend k _ => [(k, 2)]
  | .ptpEventRelay port _ _ => [(port, 2)]
  | .ethFrameRelay port _ _ => [(port, 2)]
  | .ethLinkChange port _ => [(port, 2)]
  | .timeSlewEnd k => [(k, 2)]
  | .timeConfigPtp r seq => [(r, 256), (seq, 4294967296)]
  | .timeSet r seq => [(r, 256), (seq, 4294967296)]
  | .timeAdjust r seq => [(r, 256), (seq, 4294967296)]
  | .timeToutConfig r seq => [(r, 256), (seq, 4294967296)]
  | .timeTinConfig r seq => [(r, 256), (seq, 4294967296)]
  | .timeRead r seq => [(r, 256), (seq, 4294967296)]
  | .timeReinit r seq => [(r, 256), (seq, 4294967296)]
  | .toutEdge n => [(n, 16)]
  | .toutPulseEnd n => [(n, 16)]
  | .tinEdge i _ _ => [(i, 8)]
  | .tinPop i _ => [(i, 8)]
  | .motConfig r seq => [(r, 256), (seq, 4294967296)]
  | .motMove r seq => [(r, 256), (seq, 4294967296)]
  | .motStop r seq => [(r, 256), (seq, 4294967296)]
  | .motHome r seq => [(r, 256), (seq, 4294967296)]
  | .motFollow r seq => [(r, 256), (seq, 4294967296)]
  | .motGear r seq => [(r, 256), (seq, 4294967296)]
  | .motSetLimits r seq => [(r, 256), (seq, 4294967296)]
  | .motReinit r seq => [(r, 256), (seq, 4294967296)]
  | .axisStepPulse n _ _ => [(n, 8)]
  | .axisEnableSetupEnd n => [(n, 8)]
  | .axisLimitActive n _ _ => [(n, 8)]
  | .axisHomeEdge n _ => [(n, 8)]
  | .followCoarseStep m _ => [(m, 4)]
  | .gearLock n => [(n, 8)]
  | .gearBlendStart n => [(n, 8)]
  | .blConfig r seq => [(r, 256), (seq, 4294967296)]
  | .blStart r seq => [(r, 256), (seq, 4294967296)]
  | .blSetSpeed r seq => [(r, 256), (seq, 4294967296)]
  | .blStop r seq => [(r, 256), (seq, 4294967296)]
  | .blReinit r seq => [(r, 256), (seq, 4294967296)]
  | .blPwmPeriod n _ => [(n, 4)]
  | .blSpeedUpdate n => [(n, 4)]
  | .blChopperCheckEnd n _ => [(n, 4)]
  | .blBusSettled n => [(n, 4)]
  | .blMeasureEnd n _ _ => [(n, 4)]
  | .blAlignEnd n => [(n, 4)]
  | .blHandover n _ => [(n, 4)]
  | .blRetryEnd n => [(n, 4)]
  | .loopConfig r seq => [(r, 256), (seq, 4294967296)]
  | .loopSetPoint r seq => [(r, 256), (seq, 4294967296)]
  | .loopEnable r seq => [(r, 256), (seq, 4294967296)]
  | .loopRead r seq => [(r, 256), (seq, 4294967296)]
  | .loopReinit r seq => [(r, 256), (seq, 4294967296)]
  | .loopUpdate l => [(l, 32)]
  | .memBankHandover r seq => [(r, 256), (seq, 4294967296)]
  | .memRetrain r seq => [(r, 256), (seq, 4294967296)]
  | .memScrub r seq => [(r, 256), (seq, 4294967296)]
  | .memScree r seq => [(r, 256), (seq, 4294967296)]
  | .memErrRead r seq => [(r, 256), (seq, 4294967296)]
  | .memReinit r seq => [(r, 256), (seq, 4294967296)]
  | .ddrTrainingEnd c _ => [(c, 2)]
  | .ddrTrackTimer c => [(c, 2)]
  | .ddrRefreshDue c rank _ => [(c, 2), (rank, 2)]
  | .ddrCommandSlot c _ _ => [(c, 2)]
  | .ddrReadReturn c addr _ _ => [(c, 2), (addr, 1099511627776)]
  | .ddrScrubRead c addr _ _ => [(c, 2), (addr, 1099511627776)]
  | .sramcBankCtrlWrite n _ => [(n, 12)]
  | .bankClearEnd n => [(n, 12)]
  | .bankWakeEnd n => [(n, 12)]
  | .screeRegionStart n _ => [(n, 12)]
  | .sramReadError n offset _ st => [(n, 12), (offset, 2097152), (st, 4)]
  | .railGoodChange n _ => [(n, 16)]
  | .railQualEnd n _ => [(n, 16)]
  | .railRiseTimeout n => [(n, 16)]
  | .railBelowOff n => [(n, 16)]
  | .railFallTimeout n => [(n, 16)]
  | .railRunFault n => [(n, 16)]
  | .railWarnEnd n => [(n, 16)]
  | .pwrRailConfig r seq => [(r, 256), (seq, 4294967296)]
  | .pwrRailOn r seq => [(r, 256), (seq, 4294967296)]
  | .pwrRailOff r seq => [(r, 256), (seq, 4294967296)]
  | .pwrDomain r seq => [(r, 256), (seq, 4294967296)]
  | .domainSettled k => [(k, 12)]
  | .pwrReinit r seq => [(r, 256), (seq, 4294967296)]
  | .srstStretchEnd k => [(k, 4)]
  | .srstPulse k _ => [(k, 4)]
  | .pllUpdate k _ => [(k, 4)]
  | .pllLock k => [(k, 4)]
  | .pllLossOfLock k => [(k, 4)]
  | .clkoutCfgWrite k _ => [(k, 4)]
  | .colBridgeTimeout b => [(b, 16)]
  | .faultRaise n => [(n, 256)]
  | .faultLower n => [(n, 256)]
  | .faultWireError n => [(n, 256)]
  | .wireSoundEnd n => [(n, 256)]
  | .softTimerExpire n => [(n, 256)]
  | .quietExpire n => [(n, 256)]
  | .fabricParityRefuse region hop _ => [(region, 16), (hop, 4096)]
  | .fltConfig r seq => [(r, 256), (seq, 4294967296)]
  | .fltRead r seq => [(r, 256), (seq, 4294967296)]
  | .fltClear r seq => [(r, 256), (seq, 4294967296)]
  | .fltInject r seq => [(r, 256), (seq, 4294967296)]
  | .fltInjectEnd r seq => [(r, 256), (seq, 4294967296)]
  | .fltReinit r seq => [(r, 256), (seq, 4294967296)]
  | .wearRead r seq => [(r, 256), (seq, 4294967296)]
  | .wearPredict r seq => [(r, 256), (seq, 4294967296)]
  | .wearReinit r seq => [(r, 256), (seq, 4294967296)]
  | .diagEcho r seq => [(r, 256), (seq, 4294967296)]
  | .diagLoopback r seq => [(r, 256), (seq, 4294967296)]
  | .diagLoopbackEnd r seq _ _ => [(r, 256), (seq, 4294967296)]
  | .diagTrace r seq => [(r, 256), (seq, 4294967296)]
  | .diagMemtest r seq => [(r, 256), (seq, 4294967296)]
  | .diagReinit r seq => [(r, 256), (seq, 4294967296)]
  | .encoderSignalRestore e _ _ => [(e, 2)]
  | .hlHalertRelease port => [(port, 16)]
  | .hlRxFrameDiscard port => [(port, 16)]
  | .ptpDelayReqReceive k port _ => [(k, 2), (port, 2)]
  | .diagMemtestEnd r seq _ => [(r, 256), (seq, 4294967296)]
  | .mspiStatusFrame => []
  | .tableApertureAccess _ _ => []
  | .sysInfoBroadcastReply => []
  | .cycleOffExpire => []
  | .ckptRecordProgrammed _ => []
  | .ckptSectorErased => []
  | .ckptScanEnd => []
  | .scrLaneMapWrite _ => []
  | .encoderCompare => []
  | .trackingLoopTick => []
  | .standstill => []
  | .heatBiasUpdate => []
  | .coreVfloorUpdate => []
  | .coreSlackRaiseTick _ _ => []
  | .coreSlackLowerTimer _ _ => []
  | .avsPoll => []
  | .avsAlert => []
  | .avsTransactionEnd _ _ => []
  | .thermSample _ => []
  | .shedStageClear => []
  | .orderlyStopEnd => []
  | .timeSnap _ => []
  | .ddrActTableClear => []
  | .powerOn => []
  | .powerRemoved => []
  | .bootRailRetry => []
  | .pfwAssert => []
  | .pfwBudgetEnd => []
  | .pfwRelease => []
  | .hkRound _ _ => []
  | .pllRefLoss => []
  | .pllRefReturn => []
  | .fwImageLoadEnd => []
  | .bootOperational => []
  | .bootWatchdogExpire => []
  | .bootImgGo _ => []
  | .bootImgLoadEnd _ => []
  | .perstRelease => []
  | .lockstepMismatch => []
  | .fwWatchdogExpire => []
  | .wearDailySample _ => []
  | .fwWriteProgrammed _ => []

/-- The bytes a command carries. -/
def Instr.bytes : Instr → List Nat
  | .mspiWriteFrame _ bytes => bytes
  | .bar2Write _ bytes => bytes
  | .ringSlotFetch _ slot => slot.getD []
  | .indirectPayloadFetch _ _ data => data.getD []
  | .ethCmdReceive _ _ udp => udp
  | .ethBulkReceive _ _ udp => udp
  | .ethAckReceive _ _ udp => udp
  | .dmaTransferEnd _ moved other => moved ++ other
  | .dmaBusError _ _ _ _ moved => moved
  | .hlI2cTransactionEnd _ _ data => data
  | .ethFrameRelay _ _ bytes => bytes
  | .bootImgLoadEnd data => data.getD []
  | .registerWrite _ _ _ => []
  | .readToClear _ _ => []
  | .counterLowRead _ _ => []
  | .mspiReadFrame _ _ _ => []
  | .mspiStatusFrame => []
  | .tableApertureAccess _ _ => []
  | .ringTailWrite _ _ => []
  | .cqHeadWrite _ _ => []
  | .ringEnable _ _ => []
  | .ringDisable _ _ => []
  | .clearWindow _ _ => []
  | .ringIrqHoldoffEnd _ => []
  | .rptqHeadWrite _ _ => []
  | .rptqEnable _ _ => []
  | .capqHeadWrite _ _ => []
  | .captureRecordDeliver _ => []
  | .ethAckTimer _ => []
  | .ethRtoExpire _ _ => []
  | .sysInfoBroadcastReply => []
  | .sysNop _ _ => []
  | .sysBarrier _ _ => []
  | .barrierTimeout _ _ => []
  | .sysInfo _ _ => []
  | .sysSetAddr _ _ => []
  | .sysTrigCancel _ _ => []
  | .sysWarmReset _ _ => []
  | .sysPowerCycle _ _ => []
  | .cycleOffExpire => []
  | .sysFwWrite _ _ => []
  | .sysFwActivate _ _ => []
  | .regRead _ _ => []
  | .regWrite _ _ => []
  | .regRmw _ _ => []
  | .regPoll _ _ => []
  | .regPollRead _ _ => []
  | .regPollTimeout _ _ => []
  | .regTableWrite _ _ => []
  | .regTableRead _ _ => []
  | .timeTriggerDue _ _ => []
  | .impSubmit _ _ => []
  | .impCancel _ _ => []
  | .impSpoil _ _ => []
  | .impRelease _ _ => []
  | .impConfigStream _ _ => []
  | .impRecover _ _ => []
  | .impReinit _ _ => []
  | .ckptRecordProgrammed _ => []
  | .ckptSectorErased => []
  | .ckptScanEnd => []
  | .stageObjOpen _ _ => []
  | .stageObjAppend _ _ => []
  | .stageObjClose _ _ => []
  | .stageObjFree _ _ => []
  | .stageDmaStart _ _ => []
  | .stageDmaAbort _ _ => []
  | .stageCapture _ _ => []
  | .stageReinit _ _ => []
  | .dmaGo _ _ => []
  | .dmaCtrlAbort _ _ => []
  | .dmaCtrlClear _ _ => []
  | .lookaheadDecodeStart _ => []
  | .lookaheadDecodeEnd _ => []
  | .stagingDecodeEnd _ _ _ _ => []
  | .attemptBoundary _ => []
  | .screenLineDone _ => []
  | .scrCapacityUpdate _ _ _ => []
  | .scrLaneMapWrite _ => []
  | .scrLoadTone _ _ => []
  | .scrLoadDensity _ _ => []
  | .scrLoadThresh _ _ => []
  | .scrSetDiffusion _ _ => []
  | .scrLoadDropmap _ _ => []
  | .scrReinit _ _ => []
  | .nozConfigStream _ _ => []
  | .nozLoadStatus _ _ => []
  | .nozSwapStatus _ _ => []
  | .nozLoadTakeover _ _ => []
  | .nozSetStitch _ _ => []
  | .nozSetDelay _ _ => []
  | .nozLoadOffsets _ _ => []
  | .nozReinit _ _ => []
  | .encoderTransition _ _ _ _ => []
  | .encoderIndexEdge _ => []
  | .encoderLos _ => []
  | .encoderCompare => []
  | .trackingLoopTick => []
  | .standstill => []
  | .fsyncEmit _ => []
  | .fireConfigEncoder _ _ => []
  | .fireSetRatio _ _ => []
  | .fireSetTracking _ _ => []
  | .fireSetDatum _ _ => []
  | .fireRegister _ _ => []
  | .fireReinit _ _ => []
  | .hlLineSend _ => []
  | .hlFeederDeadline _ => []
  | .hlLstatReceive _ _ => []
  | .hlLstatTimeout _ => []
  | .hlRxLockLoss _ => []
  | .hlReplayTimeout _ _ => []
  | .hlFireConfirmTimeout _ => []
  | .hlVoidCheckTimeout _ => []
  | .hlHrstRelease _ => []
  | .hlTrainingSetReceive _ _ _ => []
  | .hlDeclareReceive _ _ => []
  | .hlRespReceive _ _ _ => []
  | .hlTrainingTimeout _ => []
  | .hlHalertLow _ => []
  | .hlUsageIncrementTimer _ => []
  | .headTrain _ _ => []
  | .headAuth _ _ => []
  | .headLoadWave _ _ => []
  | .headSelectWave _ _ => []
  | .headReset _ _ => []
  | .headReadCounter _ _ => []
  | .headReinit _ _ => []
  | .heldAttemptTimer _ => []
  | .heatBiasUpdate => []
  | .coreVfloorUpdate => []
  | .coreSlackRaiseTick _ _ => []
  | .coreSlackLowerTimer _ _ => []
  | .avsPoll => []
  | .avsAlert => []
  | .avsTransactionEnd _ _ => []
  | .thermSample _ => []
  | .shedStageClear => []
  | .orderlyStopEnd => []
  | .pwrSetCap _ _ => []
  | .pwrSetExtBudget _ _ => []
  | .maintStart _ _ => []
  | .maintEnd _ _ => []
  | .maintQuery _ _ => []
  | .maintQueryTimeout _ _ => []
  | .maintActivityTimeout _ => []
  | .maintReinit _ _ => []
  | .ptpSyncReceive _ _ _ => []
  | .ptpFollowUpReceive _ _ _ => []
  | .ptpDelayRespReceive _ _ _ => []
  | .ptpPdelayReceive _ _ => []
  | .ptpAnnounceReceive _ _ _ => []
  | .ptpSyncTimeout _ => []
  | .ptpAnnounceTimeout _ => []
  | .ptpMessageSend _ _ => []
  | .ptpEventRelay _ _ _ => []
  | .ethLinkChange _ _ => []
  | .timeSlewEnd _ => []
  | .timeConfigPtp _ _ => []
  | .timeSet _ _ => []
  | .timeAdjust _ _ => []
  | .timeToutConfig _ _ => []
  | .timeTinConfig _ _ => []
  | .timeRead _ _ => []
  | .timeReinit _ _ => []
  | .toutEdge _ => []
  | .toutPulseEnd _ => []
  | .tinEdge _ _ _ => []
  | .tinPop _ _ => []
  | .timeSnap _ => []
  | .motConfig _ _ => []
  | .motMove _ _ => []
  | .motStop _ _ => []
  | .motHome _ _ => []
  | .motFollow _ _ => []
  | .motGear _ _ => []
  | .motSetLimits _ _ => []
  | .motReinit _ _ => []
  | .axisStepPulse _ _ _ => []
  | .axisEnableSetupEnd _ => []
  | .axisLimitActive _ _ _ => []
  | .axisHomeEdge _ _ => []
  | .followCoarseStep _ _ => []
  | .gearLock _ => []
  | .gearBlendStart _ => []
  | .blConfig _ _ => []
  | .blStart _ _ => []
  | .blSetSpeed _ _ => []
  | .blStop _ _ => []
  | .blReinit _ _ => []
  | .blPwmPeriod _ _ => []
  | .blSpeedUpdate _ => []
  | .blChopperCheckEnd _ _ => []
  | .blBusSettled _ => []
  | .blMeasureEnd _ _ _ => []
  | .blAlignEnd _ => []
  | .blHandover _ _ => []
  | .blRetryEnd _ => []
  | .loopConfig _ _ => []
  | .loopSetPoint _ _ => []
  | .loopEnable _ _ => []
  | .loopRead _ _ => []
  | .loopReinit _ _ => []
  | .loopUpdate _ => []
  | .memBankHandover _ _ => []
  | .memRetrain _ _ => []
  | .memScrub _ _ => []
  | .memScree _ _ => []
  | .memErrRead _ _ => []
  | .memReinit _ _ => []
  | .ddrTrainingEnd _ _ => []
  | .ddrTrackTimer _ => []
  | .ddrRefreshDue _ _ _ => []
  | .ddrCommandSlot _ _ _ => []
  | .ddrActTableClear => []
  | .ddrReadReturn _ _ _ _ => []
  | .ddrScrubRead _ _ _ _ => []
  | .sramcBankCtrlWrite _ _ => []
  | .bankClearEnd _ => []
  | .bankWakeEnd _ => []
  | .screeRegionStart _ _ => []
  | .sramReadError _ _ _ _ => []
  | .powerOn => []
  | .powerRemoved => []
  | .railGoodChange _ _ => []
  | .railQualEnd _ _ => []
  | .railRiseTimeout _ => []
  | .railBelowOff _ => []
  | .railFallTimeout _ => []
  | .railRunFault _ => []
  | .railWarnEnd _ => []
  | .bootRailRetry => []
  | .pwrRailConfig _ _ => []
  | .pwrRailOn _ _ => []
  | .pwrRailOff _ _ => []
  | .pwrDomain _ _ => []
  | .domainSettled _ => []
  | .pwrReinit _ _ => []
  | .pfwAssert => []
  | .pfwBudgetEnd => []
  | .pfwRelease => []
  | .srstStretchEnd _ => []
  | .srstPulse _ _ => []
  | .hkRound _ _ => []
  | .pllUpdate _ _ => []
  | .pllLock _ => []
  | .pllLossOfLock _ => []
  | .pllRefLoss => []
  | .pllRefReturn => []
  | .clkoutCfgWrite _ _ => []
  | .colBridgeTimeout _ => []
  | .fwImageLoadEnd => []
  | .bootOperational => []
  | .bootWatchdogExpire => []
  | .bootImgGo _ => []
  | .perstRelease => []
  | .faultRaise _ => []
  | .faultLower _ => []
  | .faultWireError _ => []
  | .wireSoundEnd _ => []
  | .softTimerExpire _ => []
  | .quietExpire _ => []
  | .lockstepMismatch => []
  | .fwWatchdogExpire => []
  | .fabricParityRefuse _ _ _ => []
  | .fltConfig _ _ => []
  | .fltRead _ _ => []
  | .fltClear _ _ => []
  | .fltInject _ _ => []
  | .fltInjectEnd _ _ => []
  | .fltReinit _ _ => []
  | .wearDailySample _ => []
  | .wearRead _ _ => []
  | .wearPredict _ _ => []
  | .wearReinit _ _ => []
  | .diagEcho _ _ => []
  | .diagLoopback _ _ => []
  | .diagLoopbackEnd _ _ _ _ => []
  | .diagTrace _ _ => []
  | .diagMemtest _ _ => []
  | .diagReinit _ _ => []
  | .encoderSignalRestore _ _ _ => []
  | .hlHalertRelease _ => []
  | .hlRxFrameDiscard _ => []
  | .ptpDelayReqReceive _ _ _ => []
  | .diagMemtestEnd _ _ _ => []
  | .fwWriteProgrammed _ => []

/-- A well-formed command. -/
def Instr.wf (i : Instr) : Bool :=
  i.indices.all (fun p => decide (p.1 < p.2)) && i.bytes.all (fun b => decide (b < 256))

end Sys2Proof
end

