-- ==== Sys2Proof/Tests/Slice0.lean ====
section
/-! SUPPORT. Own tests: the checks of well-formedness, the worked examples of the spec, and for every statement that has
hypotheses a state and operands that meet them. -/

namespace Sys2Proof.Tests

open Machine Laws

set_option Elab.async false

/-! ## States -/

/-- A device that is operational, every domain on. -/
def upDev : Dev :=
  { State.reset.dev with
    sys := { State.reset.dev.sys with powered := true, stage := .operational },
    pwr := { State.reset.dev.pwr with domains := (List.range 12).map (fun k => (k, Dom.on)) } }

/-- The operational device with its memories and queue empty, changed by f. -/
def up (f : Dev → Dev) : State := { State.reset with dev := f upDev }

/-- A started packet of ring 3 with SEQ 7. -/
def pkt (op target : Nat) (payload : List Nat) : Packet :=
  { Packet.reset with ring := 3, seq := 7, op := op, target := target, payload := payload, phase := .started }

/-- The operational device with one packet in progress. -/
def rdy (p : Packet) (f : Dev → Dev) : State := up (fun d => f { d with rings := { d.rings with inflight := [p] } })

/-! ## Well-formedness -/

/-- An index past the last unit is refused: there are sixteen head ports. -/
theorem test_wf_refuses_port_16 : (Instr.fsyncEmit 16).wf = false := by decide

/-- The last head port is taken. -/
theorem test_wf_takes_port_15 : (Instr.fsyncEmit 15).wf = true := by decide

/-- A byte of 256 is refused. -/
theorem test_wf_refuses_byte_256 : (Instr.mspiWriteFrame 0 [256]).wf = false := by decide

/-- A SEQ of 33 bits is refused. -/
theorem test_wf_refuses_long_seq : (Instr.sysNop 3 4294967296).wf = false := by decide

/-! ## Worked examples of the spec -/

/-- R226: the counts 3 and 6 in sequence order. -/
theorem test_counts : count? [false, true, true] = some (3, []) ∧ count? [false, false, true, false, true] = some (6, []) := by
  decide

/-- R148: the check value of the IEEE 802.3 CRC that R260 gives. -/
theorem test_crc32 : crc32 [0x31, 0x32, 0x33, 0x34, 0x35, 0x36, 0x37, 0x38, 0x39] = 0xCBF43926 := by decide +kernel

/-- Chapter 5, coding two dot-plane lines: the payload's first line. -/
theorem test_dotplane_first_line :
    (dotLine 16 [] (bitsOfBytes [0x00, 0xCA, 0x48, 0xAA, 0x00, 0x09, 0x00, 0x00])).toOption.map (·.1) =
      some [0, 0, 0, 0, 0, 0, 3, 3, 3, 3, 5, 2, 0, 0, 0, 0] := by decide +kernel

/-- Chapter 5, coding two dot-plane lines: the second line repeats the first. -/
theorem test_dotplane_second_line :
    (dotLine 16 [[0, 0, 0, 0, 0, 0, 3, 3, 3, 3, 5, 2, 0, 0, 0, 0]]
      ((bitsOfBytes [0x00, 0xCA, 0x48, 0xAA, 0x00, 0x09, 0x00, 0x00]).drop 43)).toOption.map (·.1) =
      some [0, 0, 0, 0, 0, 0, 3, 3, 3, 3, 5, 2, 0, 0, 0, 0] := by decide +kernel

/-- R293, the example under R309: positions 1 and 4. -/
theorem test_density : Density.apply { gain := 1075, offset := -12 } 1900 = 1983 ∧
    Density.apply { gain := 980, offset := 8 } 1900 = 1826 := by decide

/-- The diffusion set of the example under R309. -/
def exampleSet : Diff where
  loaded := true
  kernel := [7, 0, 3, 5, 1]
  dead := [8, 0, 4, 0, 4]
  maxLevel := 3
  fallback := 0
  values := [0, 1400, 2600, 4095]

/-- The example under R309: levels 1, 2, 0, 2, 1 and the carry into the next line. -/
theorem test_diffusion :
    (exampleSet.line (fun p => if p = 2 then 2 else 0) (fun p => [1900, 1983, 1900, 1900, 1826].getD p 0) [0, 0, 0, 0, 0] 5) =
      ([1, 2, 0, 2, 1], [2805, 5413, 89, 9210, 6627], 0) := by decide +kernel

/-- R292: an odd position takes the rounded mean of its neighbours, an even one its sample. -/
theorem test_upscale : upscale (fun x _ => if x = 0 then 100 else 201) 2 1 1 0 = 151 ∧
    upscale (fun x _ => if x = 0 then 100 else 201) 2 1 2 0 = 201 := by decide

/-- The example under R835: thirty samples that rise by 9,800 units a day to 620,000 against a limit of 953,674. -/
theorem test_wear_prediction :
    ({ WearInd.reset with limit := 953674, window := 30, samples := (List.range 30).map (fun k => 620000 - 9800 * k) }).predict =
      some 817 := by decide +kernel

/-- R2: SYS_DEV_ID of a B0 part. -/
theorem test_dev_id : (up id).regValue 0 = 0x3216205D := by decide +kernel

/-- R11: a misaligned write is discarded. -/
theorem test_misaligned_write : exec (.registerWrite .bar0 0x10A 5) (up id) = .next (up id) := rfl

/-- R786: a directory copy that is erased is none. -/
theorem test_erased_directory : (up id).mem.directory.isNone = true := by decide +kernel

/-! ## Witnesses: the hypotheses of the statements can be met -/

theorem witness_step_front : ∃ s : State, ∃ c rest, s.pending = c :: rest :=
  ⟨{ State.reset with pending := [.powerOn] }, .powerOn, [], rfl⟩

theorem witness_step_idle : (∃ s : State, s.pending = [] ∧ s.dev.sys.powered = true) ∧
    ∃ s : State, s.pending = [] ∧ s.dev.sys.powered = false :=
  ⟨⟨State.reset, rfl, rfl⟩, up (fun d => { d with sys := { d.sys with powered := false } }), rfl, rfl⟩

theorem witness_step_invariant : ∃ s t : State, Inv s ∧ step s = .next t :=
  ⟨State.reset, idle State.reset, ⟨rfl, ⟨rfl, rfl⟩, rfl⟩, rfl⟩

theorem witness_unpowered : ∃ (c : Instr) (s : State), s.dev.sys.powered = false ∧ c ≠ .powerOn ∧ c ≠ .powerRemoved ∧
    c ≠ .perstRelease :=
  ⟨.mspiStatusFrame, up (fun d => { d with sys := { d.sys with powered := false } }), rfl, by decide, by decide, by decide⟩

theorem witness_cycleOff : ∃ s : State, s.dev.on 0 = true ∧ s.dev.pwr.offHold = true :=
  ⟨up (fun d => { d with pwr := { d.pwr with offHold := true } }), by decide, rfl⟩

theorem witness_irqMask : (∃ s : State, s.dev.sys.powered = true ∧ Settled s) ∧ ∃ d : Dev, d.sched.stopping = false ∧
    d.goingDown = false ∧ d.sys.stage = .operational :=
  ⟨⟨up id, rfl, rfl⟩, upDev, rfl, by decide, rfl⟩

/-- The operational device with its supervisor's registers changed. -/
def withPwr (f : Pwr → Pwr) : State := up fun d => { d with pwr := f d.pwr }

/-- The operational device with its SYS registers changed. -/
def withSys (f : Sys → Sys) : State := up fun d => { d with sys := f d.sys }

theorem witness_ResetAndStartEvents :
    (Settled (up id) ∧ (up id).dev.on 0 = true ∧ (up id).dev.sys.stage = .operational ∧ (up id).dev.pwr.pfwLow = false ∧
      (up id).dev.sched.stage = 0 ∧ (up id).dev.pwr.offHold = false) ∧
    (let s := up (fun d => ({ d with sys := { d.sys with stage := .clocks } }.modPll 0 (fun x => { x with locked := true })).modPll 1
        (fun x => { x with locked := true, refLost := true }));
      Settled s ∧ s.dev.on 0 = true ∧ (s.dev.pll 1).refLost = true ∧ (s.dev.pll 1).locked = true ∧ (s.dev.pll 0).locked = true) ∧
    (let s := withSys fun x => { x with stage := .ddrTrain, failedStarts := 2 };
      Settled s ∧ s.dev.on 0 = true ∧ s.dev.goingDown = false ∧ s.dev.pwr.offHold = false) ∧
    ((withPwr fun x => { x with pfwLow := true }).dev.on 0 = true ∧ (withPwr fun x => { x with offHold := true }).dev.on 0 = true) ∧
    (let s := up fun d => { d with pwr := { d.pwr with pfwLow := true, hkExt := (List.range 32).map (fun n => (n, 100)) }, sched := { d.sched with stage := 7 } };
      Settled s ∧ s.dev.on 0 = true ∧ s.dev.pwr.pfwLow = true) ∧
    (let s := up fun d => { d with pwr := { d.pwr with timedDue := true, hkInt := [(0, 4000)] }, sched := { d.sched with stage := 7 } };
      Settled s ∧ s.dev.on 0 = true ∧ s.dev.pwr.cycling = false ∧ s.dev.pwr.pfwLow = false ∧ s.dev.stageClear 7 = true) ∧
    (∀ k ∈ [1, 2, 5], let s := up fun d => { d with pwr := { d.pwr with hkInt := [(0, 4000)] }, sched := { d.sched with stage := k, stopDone := true } };
      Settled s ∧ s.dev.on 0 = true ∧ s.dev.stageClear k = true ∧ s.dev.pwr.timedDue = false ∧ s.dev.pwr.cycling = false) := by
  refine ⟨?_, ?_, ?_, ?_, ?_, ?_, ?_⟩ <;> decide +kernel

/-- The bytes of a directory with both slots and the checkpoint ring in place, ACTIVE a and TRIAL. -/
def testDirectory (a : Nat) : Directory :=
  { active := a, trial := true, a := (0x100000, 0x400000), b := (0x500000, 0x400000), cal := (0x900000, 0x10000),
    ckpt := (0xA00000, 0x400000), seq := 5, copy := 0 }

/-- Flash with that directory in copy 0 and nothing else. -/
def testFlash (a : Nat) : Mems := Mems.program 0 (testDirectory a).bytes State.reset.mem

theorem test_directory_bad : (testDirectory 1).bad = false := by
  unfold Directory.bad
  rw [Bool.or_eq_false_iff]
  refine ⟨List.any_eq_false.mpr fun x hx => ?_, by decide +kernel⟩
  have h : x.1 + x.2 ≤ 0x1000000 := by revert x; decide +kernel
  have h1 : x.1 + x.2 ≤ Config.flashSize := Nat.le_trans h (Nat.le_add_right _ _)
  rw [decide_eq_true_iff]
  exact Nat.not_lt.mpr h1

theorem test_directory_read : (testFlash 1).directory = some (testDirectory 1) := by
  let b := (testFlash 1).flashBytes 0 48
  let w (i : Nat) : Nat := leNat ((b.drop i).take 4)
  have h0 : (decide (w 0 = 0x52444845) && decide (b.getD 4 0 = 1) && decide (w 44 = crc32 (b.take 44))) = true := by decide +kernel
  have hd : ({ active := bits (b.getD 5 0) 0 1, trial := bits (b.getD 5 0) 1 1 = 1, a := (w 8, w 12), b := (w 16, w 20), cal := (w 24, w 28), ckpt := (w 32, w 36), seq := w 40, copy := 0 } : Directory) = testDirectory 1 := by decide +kernel
  have hc : (testFlash 1).dirCopy 0 = some (testDirectory 1) := by
    unfold Mems.dirCopy
    refine (if_pos h0).trans ?_
    show (if ({ active := bits (b.getD 5 0) 0 1, trial := bits (b.getD 5 0) 1 1 = 1, a := (w 8, w 12), b := (w 16, w 20), cal := (w 24, w 28), ckpt := (w 32, w 36), seq := w 40, copy := 0 } : Directory).bad = true then none else some _) = _
    rw [hd, test_directory_bad]; rfl
  have h1 : (testFlash 1).dirCopy 1 = none := by decide +kernel
  unfold Mems.directory
  rw [hc, h1]

theorem witness_BootTrainsLoads :
    (let s := up fun d => { d with ddr := { d.ddr with channels := 1, chs := [(0, { DdrCh.reset with st := .training })] }, sys := { d.sys with stage := .ddrTrain } };
      Settled s ∧ s.dev.on 7 = true ∧ (s.dev.dch 0).st = .training ∧ (s.dev.dch 1).st ≠ .training) ∧
    (Settled (up id) ∧ (up id).dev.on 7 = true ∧ (up id).dev.on 0 = true ∧ (up id).dev.sys.stage = .operational ∧
      (up id).dev.sys.bootLoading = false) ∧
    (let s := withSys fun x => { x with stage := .fwLoad };
      Settled s ∧ s.dev.on 0 = true ∧ s.mem.directory = none) ∧
    ((testFlash 1).slotOk ((testDirectory 1).slot 1) = false ∧ (testFlash 1).slotOk ((testDirectory 1).slot 0) = false) ∧
    (∀ w ∈ [false, true], let s := withSys fun x => { x with stage := .fwInit, warmStarting := w };
      Settled s ∧ s.dev.on 0 = true ∧ s.mustReload = false ∧ s.dev.sys.warmStarting = w) ∧
    (∀ k ∈ [Dom.on, .off], let s := up fun d => { d with sys := { d.sys with stage := .noImage } }.modDom 7 fun _ => k;
      Settled s ∧ s.dev.on 0 = true ∧ s.dev.dom 7 = k) ∧
    (let s := withSys fun x => { x with stage := .noImage, bootLoading := true, bootImgLen := 257 };
      Settled s ∧ s.dev.on 0 = true ∧ s.dev.sys.bootImgLen = (leBytes 8 0 ++ leBytes 4 1 ++ List.replicate 245 0).length ∧
      imageOk (leBytes 8 0 ++ leBytes 4 1 ++ List.replicate 245 0) = false) := by
  refine ⟨?_, ?_, ?_, ?_, ?_, ?_, ?_⟩ <;> decide +kernel

theorem witness_SystemCommands :
    (Ready 0x0005 (pkt 0x0005 0 []) (rdy (pkt 0x0005 0 []) id) ∧ Ready 0x0006 (pkt 0x0006 0 []) (rdy (pkt 0x0006 0 []) id) ∧
      (rdy (pkt 0x0006 0 []) id).dev.sched.stopping = false ∧ (rdy (pkt 0x0006 0 []) id).dev.goingDown = false) ∧
    (let f := fun d : Dev => { d with sched := { d.sched with stopping := true } };
      Ready 0x0005 (pkt 0x0005 0 []) (rdy (pkt 0x0005 0 []) f) ∧ Ready 0x0006 (pkt 0x0006 0 []) (rdy (pkt 0x0006 0 []) f) ∧
      (rdy (pkt 0x0006 0 []) f).dev.sched.stopping = true) ∧
    (let p := pkt 0x0007 0 ([1, 0, 0, 0] ++ leBytes 4 0x400000 ++ List.replicate 8 0 ++ [1, 2, 3]);
      Ready 0x0007 p (rdy p id) ∧ chkSysFwWrite p (rdy p id).dev = none ∧
      ((rdy p id).mem.fwRegion (p.fld 0 0 2)).2 < p.fld 4 0 32 + (p.payload.drop 16).length) ∧
    (let p := pkt 0x0007 0 ([1, 0, 0, 0] ++ leBytes 4 0 ++ List.replicate 8 0 ++ [1, 2, 3]);
      Ready 0x0007 p (rdy p id) ∧ chkSysFwWrite p (rdy p id).dev = none ∧
      ¬((rdy p id).mem.fwRegion (p.fld 0 0 2)).2 < p.fld 4 0 32 + (p.payload.drop 16).length ∧ (rdy p id).mem.directory = none) ∧
    (let p := pkt 0x0007 0 ([1, 0, 0, 0] ++ leBytes 4 0 ++ List.replicate 8 0 ++ [1, 2, 3]);
      let w : FwWrite := { ref := p.ref, addr := 0x500000, erase := true, len := 0x400000, data := [1, 2, 3] };
      let s := rdy p (fun d => { d with diag := { d.diag with fw := some w } });
      Settled s ∧ s.dev.on 0 = true ∧ MemWf s ∧ s.dev.diag.fw = some w ∧ s.dev.packet? w.ref = some p ∧ p.ref = w.ref ∧
      (rdy p id).dev.diag.fw = none) ∧
    (let p := pkt 0x0008 0 [0, 0, 0, 0];
      Ready 0x0008 p (rdy p id) ∧ chkSysFwActivate p (rdy p id).dev = none ∧ (rdy p id).mem.directory = none) ∧
    (let p := pkt 0x0008 0 [2, 0, 0, 0];
      p.flag 0 1 = true ∧ Ready 0x0008 p (rdy p id) ∧ chkSysFwActivate p (rdy p id).dev = none) := by
  refine ⟨?_, ?_, ?_, ?_, ?_, ?_, ?_⟩ <;> decide +kernel

/-- Where an image verifies, a directory naming its slot meets the last clause: slotOk then is the part's own answer (log entry 10). -/
theorem witness_FwActivate (h : Config.imageVerifies ((leBytes 4 0x57464845 ++ leBytes 4 7 ++ leBytes 4 1 ++ List.replicate 245 0).map (fun x => BitVec.ofNat 8 x)) = true) :
    imageOk (leBytes 4 0x57464845 ++ leBytes 4 7 ++ leBytes 4 1 ++ List.replicate 245 0) = true := by
  have h0 : (decide (leNat ((leBytes 4 0x57464845 ++ leBytes 4 7 ++ leBytes 4 1 ++ List.replicate 245 0).take 4) = 0x57464845) &&
      decide (1 ≤ leNat (((leBytes 4 0x57464845 ++ leBytes 4 7 ++ leBytes 4 1 ++ List.replicate 245 0).drop 8).take 4)) &&
      decide ((leBytes 4 0x57464845 ++ leBytes 4 7 ++ leBytes 4 1 ++ List.replicate 245 0).length =
        256 + leNat (((leBytes 4 0x57464845 ++ leBytes 4 7 ++ leBytes 4 1 ++ List.replicate 245 0).drop 8).take 4))) = true := by decide +kernel
  unfold imageOk
  dsimp only
  rw [h0, h]; rfl

/-- The operational device with rail 7 in this state. -/
def withRail (f : Rail → Rail) : State := up fun d => d.modRail 7 fun r => f { r with uv := 900, ov := 1100, chatterLimit := 2 }

theorem witness_Rails :
    (∀ st ∈ [RailSt.rising, .qualifying, .falling, .up, .off], ∀ g ∈ [false, true], let s := withRail fun r => { r with st := st, good := g, warning := g };
      Settled s ∧ s.dev.on 0 = true ∧ (s.dev.rail 7).st = st ∧ (s.dev.rail 7).good = g ∧ (s.dev.rail 7).warning = g) ∧
    (let s := withRail fun r => { r with st := .qualifying, chatter := 2 };
      (s.dev.rail 7).ov < 1101 ∧ ¬(s.dev.rail 7).ov < 900 ∧ (s.dev.rail 7).chatterLimit < (s.dev.rail 7).chatter + 1 ∧
      (decide ((s.dev.rail 7).uv < 900) && decide (900 < (s.dev.rail 7).ov)) = false ∧
      (decide ((s.dev.rail 7).uv < 901) && decide (901 < (s.dev.rail 7).ov)) = true) ∧
    (let s := withRail fun r => { r with st := .up, failDevice := true };
      (s.dev.rail 7).st = .up ∧ (s.dev.rail 7).good = false ∧ (s.dev.rail 7).warning = false ∧ (s.dev.rail 7).failDevice = true) ∧
    (let s := withPwr fun x => { x with bootRetry := true };
      Settled s ∧ s.dev.on 0 = true ∧ s.dev.pwr.bootRetry = true ∧ s.dev.pwr.seqKind = .idle) := by
  refine ⟨?_, ?_, ?_, ?_⟩ <;> decide +kernel

theorem witness_RailCommands :
    (let p := pkt 0x0C00 7 ([0x20, 8] ++ leBytes 2 0 ++ leBytes 2 900 ++ leBytes 2 1100 ++ leBytes 2 100 ++ leBytes 2 1 ++ leBytes 2 10 ++ leBytes 2 10);
      Ready 0x0C00 p (rdy p id) ∧ chkPwrRailConfig p (rdy p id).dev = none) ∧
    (let p := pkt 0x0C01 0 [0x80, 0, 0, 0];
      Ready 0x0C01 p (rdy p id) ∧ chkPwrRailOn p (rdy p id).dev = none ∧
      (rdy p id).dev.railOnEnds (p.fld 0 0 16) = some .refused) ∧
    (let p := pkt 0x0C01 0 [0x80, 0, 0, 0];
      let s := rdy p (Dev.modRail 7 fun r => { r with configured := true, prereq := 0 });
      Ready 0x0C01 p s ∧ s.dev.railOnEnds (p.fld 0 0 16) = none) ∧
    (let p := pkt 0x0C02 0 [0x80, 0, 0, 0];
      Ready 0x0C02 p (rdy p id) ∧ chkPwrRailOff p (rdy p id).dev = none ∧
      ((rdy p id).dev.enabledWith (p.fld 0 0 16) = []) ∧
      ((rdy p (Dev.modRail 7 fun r => { r with en := true, st := .up })).dev.enabledWith (p.fld 0 0 16) = [7])) ∧
    (let p := pkt 0x0CFF 0 [];
      Ready 0x0CFF p (rdy p id)) := by
  refine ⟨?_, ?_, ?_, ?_, ?_⟩ <;> decide +kernel

theorem witness_PowerDomains :
    (∀ k ∈ [4, 9, 10], let p := pkt 0x0C05 k [2, 0, 0, 0];
      let s := rdy p id;
      Ready 0x0C05 p s ∧ chkPwrDomain p s.dev = none ∧ p.fld 0 0 2 = 2) ∧
    (let p := pkt 0x0C05 4 [0, 0, 0, 0];
      let s := rdy p (Dev.modDom 4 fun _ => .off);
      Ready 0x0C05 p s ∧ chkPwrDomain p s.dev = none ∧ p.fld 0 0 2 ≠ 2) ∧
    (let p := { pkt 0x0C05 4 [0, 0, 0, 0] with phase := .executing };
      let s := rdy p (Dev.modDom 4 fun _ => .reset);
      Settled s ∧ s.dev.on 0 = true ∧ s.dev.dom 4 = .reset ∧
      s.dev.rings.inflight.find? (fun p => p.op = 0x0C05 && p.target = 4 && p.phase = .executing) = some p) ∧
    (let s := withPwr fun x => { x with pfwEn := true, pfwLow := false };
      Settled s ∧ s.dev.on 0 = true ∧ s.dev.pwr.pfwEn = true ∧ s.dev.pwr.pfwLow = false ∧ s.dev.sched.stopping = false ∧
      ((up (Dev.modSrst 0 fun x => { x with asserted := false })).dev.srst 0).asserted = false ∧ (up id).dev.dom 4 = .on) ∧
    (let s := up fun d => { d with pwr := { d.pwr with timedDue := true }, sched := { d.sched with stopping := true } };
      Settled s ∧ s.dev.on 0 = true) ∧
    (let s := up fun d => (d.modSrst 2 fun x => { x with asserted := true, railMask := 0 });
      Settled s ∧ s.dev.on 0 = true ∧ (s.dev.srst 2).asserted = true ∧ s.dev.srstHeld 2 = false) := by
  refine ⟨?_, ?_, ?_, ?_, ?_, ?_⟩ <;> decide +kernel

theorem witness_Clocks :
    (Settled (up id) ∧ (up id).dev.on 0 = true ∧ ((up id).dev.pll 0).locked = false ∧
      ((up (Dev.modPll 0 fun x => { x with locked := true })).dev.pll 0).locked = true) ∧
    (let v : BitVec 32 := 0x640001#32;
      bits v.toNat 0 1 = 1 ∧ bits (0x640000#32 : BitVec 32).toNat 0 1 ≠ 1 ∧
      (List.range 2).any (fun c => ((up (Dev.modDch 0 fun x => { x with st := .serving })).dev.dch c).st = .serving) = true ∧
      (List.range 2).any (fun c => ((up id).dev.dch c).st = .serving || ((up id).dev.dch c).st = .training) = false) ∧
    (let s := up (fun d => { d with clk := { d.clk with clkout := [(1, 0x1005)] } });
      bits (Tab.get 0 s.dev.clk.clkout 1) 12 1 = 1 ∧ bits (Tab.get 0 s.dev.clk.clkout 1) 0 12 ≠ bits (0x1006#32 : BitVec 32).toNat 0 12 ∧
      bits (Tab.get 0 s.dev.clk.clkout 1) 0 12 = bits (0x0005#32 : BitVec 32).toNat 0 12) := by
  refine ⟨?_, ?_, ?_⟩ <;> decide +kernel

/-- The operational device with channel 0 serving, changed by f. -/
def withDch (f : DdrCh → DdrCh) (d : Dev) : Dev :=
  { d with ddr := { d.ddr with channels := 1, width := 0, density := 0, chs := [(0, f { DdrCh.reset with st := .serving })] } }

theorem witness_SdramEvents :
    (let s := up (withDch id);
      Settled s ∧ s.dev.on 7 = true ∧ (s.dev.dch 0).st = .serving ∧ (s.dev.dch 0).trackQueued = false ∧ (s.dev.dch 1).st ≠ .serving ∧
      (s.dev.dch 0).panicPorts = 0 ∧ s.dev.ddr.scrubs.any (fun x => decide (x.pos ≤ 64) && decide (64 < x.pos + 8)) = false) ∧
    (let s := up (withDch fun x => { x with panicPorts := 1, trackQueued := true });
      s.dev.ddr.regionOf 0 = 0 ∧ (s.dev.dch 0).panicPorts = 1 ∧ (s.dev.dch 0).trackQueued = true) ∧
    (let s := up (withDch id);
      let d := (s.dev.ddrLeads 0 [500, 500]).modDch 0 fun x => [].foldl DdrCh.arrive x;
      (d.dch 0).pick = none) ∧
    (let s := up (withDch id);
      let a : List DdrArrival := [{ port := 0, bank := 3, row := 9, write := false, scrub := false }];
      let d := (s.dev.ddrLeads 0 [500, 500]).modDch 0 fun x => a.foldl DdrCh.arrive x;
      (d.dch 0).pick.isSome = true) ∧
    (let p := pkt 0x0D01 0 [0, 0, 0, 0];
      Ready 0x0D01 p (rdy p (withDch id)) ∧ chkMemRetrain p (rdy p (withDch id)).dev = none) ∧
    (let p := pkt 0x0DFF 0 [];
      Ready 0x0DFF p (rdy p (withDch id)) ∧ chkMemReinit p (rdy p (withDch id)).dev = none) ∧
    (let p := pkt 0x0D02 0 ([1, 0, 24] ++ List.replicate 21 0);
      Ready 0x0D02 p (rdy p (withDch id)) ∧ chkMemScrub p (rdy p (withDch id)).dev = none ∧ p.flag 0 1 = false) ∧
    (let p := pkt 0x0D02 0 ([2, 0] ++ List.replicate 14 0 ++ [64] ++ List.replicate 7 0);
      Ready 0x0D02 p (rdy p (withDch id)) ∧ chkMemScrub p (rdy p (withDch id)).dev = none ∧ p.flag 0 1 = true) ∧
    (∀ n ∈ [1, 20], let p := pkt 0x0D04 n [1, 0, 0, 0];
      Ready 0x0D04 p (rdy p (withDch id)) ∧ chkMemErrRead p (rdy p (withDch id)).dev = none) := by
  refine ⟨?_, ?_, ?_, ?_, ?_, ?_, ?_, ?_, ?_⟩ <;> decide +kernel

theorem witness_Banks :
    (let s := up (Dev.modBank 3 fun b => { b with owner := 1, power := 0 });
      let d := s.dev.modBank 3 fun b => { b with reqOwner := 1, reqPower := 0 };
      Settled s ∧ s.dev.sramOn = true ∧ d.handSame 3 1 0 = true ∧ d.handSame 3 0 0 = false ∧ d.handSame 3 0 2 = false) ∧
    (let s := up (Dev.modBank 3 fun b => { b with owner := 0, power := 0 });
      let d := s.dev.modBank 3 fun b => { b with reqOwner := 0, reqPower := 1 };
      d.handSame 3 0 1 = false ∧ d.handRefused 3 0 1 true = false ∧ d.handRefused 3 3 1 true = true) ∧
    ((up fun d => d.modDom 6 fun _ => .off).dev.sramOn = false) ∧
    (∀ o ∈ [1, 2], let s := up (Dev.modBank 3 fun b => { b with busy := true, owner := o, newOwner := 0 });
      Settled s ∧ s.dev.on 6 = true ∧ (s.dev.bank 3).busy = true ∧ (s.dev.bank 4).busy = false ∧ (s.dev.bank 3).newOwner ≠ 2) ∧
    (∀ c ∈ [false, true], let s := up (Dev.modBank 3 fun b => { b with scree := true, power := 0, screePos := 8191, screeCont := c });
      (s.dev.bank 3).scree = true ∧ (s.dev.bank 3).power = 0 ∧ s.dev.sched.stage = 0 ∧ 8191 ≤ (s.dev.bank 3).screePos ∧ (s.dev.bank 4).scree = false) ∧
    ((up (Dev.modBank 3 fun b => { b with owner := 1 })).dev.bank 3).owner = 1 ∧
    (let p := pkt 0x0D00 3 [0, 0, 0, 0];
      let s := rdy p (Dev.modBank 3 fun b => { b with owner := 1 });
      Ready 0x0D00 p s ∧ chkMemBankHandover p s.dev = none) ∧
    (let p := pkt 0x0D03 3 ([1, 0, 0, 0] ++ leBytes 4 50);
      Ready 0x0D03 p (rdy p id) ∧ chkMemScree p (rdy p id).dev = none ∧ p.flag 0 0 = true) ∧
    (let p := pkt 0x0D03 3 ([0, 0, 0, 0] ++ leBytes 4 0);
      let s := rdy p (Dev.modBank 3 fun b => { b with scree := true });
      Ready 0x0D03 p s ∧ chkMemScree p s.dev = none ∧ p.flag 0 0 = false) := by
  refine ⟨?_, ?_, ?_, ?_, ?_, ?_, ?_, ?_, ?_⟩ <;> decide +kernel

theorem witness_RegisterAccesses :
    (Settled (up id) ∧ (up id).dev.sys.powered = true ∧ (up id).dev.regOn 0 = true ∧ (up (Dev.modDom 9 fun _ => .off)).dev.regOn 0x90000 = false ∧
      (withSys fun x => { x with powered := false }).dev.sys.powered = false) ∧
    (let s := withSys fun x => { x with writeLock := true };
      s.dev.mspiMay 0x20 = false ∧ s.dev.mspiMay 0x4000 = true) := by
  refine ⟨?_, ?_⟩ <;> decide +kernel

theorem witness_RegCommands :
    (∀ n ∈ [1, 2], let p := pkt 0x0100 0 (leBytes 4 0x20 ++ leBytes 4 n);
      Ready 0x0100 p (rdy p id) ∧ chkRegRead p (rdy p id).dev = none ∧ p.fld 4 0 16 = n) ∧
    (let p := pkt 0x0101 0 (leBytes 4 0x20 ++ leBytes 4 1 ++ leBytes 4 5);
      Ready 0x0101 p (rdy p id) ∧ chkRegWrite p (rdy p id).dev = none) ∧
    (let p := pkt 0x0102 0 (leBytes 4 0x20 ++ leBytes 4 255 ++ leBytes 4 5);
      Ready 0x0102 p (rdy p id) ∧ chkRegRmw p (rdy p id).dev = none) ∧
    (let p := pkt 0x0103 0 (leBytes 4 0x20 ++ leBytes 4 255 ++ leBytes 4 0 ++ leBytes 4 100);
      Ready 0x0103 p (rdy p id) ∧ chkRegPoll p (rdy p id).dev = none) ∧
    (∀ v ∈ [0, 5], let p := { pkt 0x0103 0 (leBytes 4 0x20 ++ leBytes 4 255 ++ leBytes 4 v ++ leBytes 4 100) with phase := .polling };
      let s := rdy p id;
      Settled s ∧ s.dev.ringsRun = true ∧ s.dev.packet? (3, 7) = some p ∧ s.dev.packet? (3, 8) = none ∧
      ((s.regValue p.offset &&& p.fld 4 0 32 = p.fld 8 0 32) ↔ v = 0)) ∧
    (let p := pkt 0x0103 0 (leBytes 16 0);
      (rdy p id).dev.packet? (3, 7) = some p ∧ p.phase ≠ .polling) ∧
    (let p := pkt 0x0104 0 (leBytes 4 0x0 ++ leBytes 4 8 ++ List.replicate 8 1);
      let s := rdy p (Dev.modBank 0 fun b => { b with owner := 2, power := 0 });
      Ready 0x0104 p s ∧ chkRegTableWrite p s.dev = none) ∧
    (let p := pkt 0x0105 0 (leBytes 4 0 ++ leBytes 4 8 ++ leBytes 8 0x1000);
      let s := rdy p (Dev.modBank 0 fun b => { b with owner := 2, power := 0 });
      Ready 0x0105 p s ∧ chkRegTableRead p s.dev = none) := by
  refine ⟨?_, ?_, ?_, ?_, ?_, ?_, ?_, ?_⟩ <;> decide +kernel

/-- The operational device with ring 5 enabled on host memory, 16 slots, changed by f. -/
def withRing (f : Ring → Ring) : State := up fun d => d.modRing 5 fun r => f { r with enable := true, active := true, log2Slots := 4 }

theorem witness_Rings :
    (let s := withRing fun r => { r with tail := 3 };
      Settled s ∧ s.dev.ringsRun = true ∧ s.dev.ringReady 5 = true ∧ s.dev.turnOf 5 = true ∧ s.dev.turnOver 5 = false ∧
      (s.dev.ring 5).source ≠ 2 ∧ s.dev.ringReady 6 = false ∧ (s.dev.ring 5).enable = true ∧ (s.dev.ring 6).enable = false) ∧
    (let p := { pkt 0x0101 0 [] with ring := 5, phase := .payload, indirectLen := 4 };
      let s := rdy p id;
      s.dev.ringsRun = true ∧ s.dev.packet? (5, 7) = some p ∧ (s.dev.ring p.ring).source = 0 ∧ s.dev.packet? (5, 8) = none) ∧
    ((withRing fun r => { r with irqPendingCpl := 2 }).dev.ring 5).irqPendingCpl ≠ 0 ∧
    (((up id).dev.ring 5).irqPendingCpl = 0 ∧
      ((Ring.reset.configOk 5 = false ∧ { Ring.reset with log2Slots := 4 }.configOk 5 = true))) := by
  refine ⟨?_, ?_, ?_, ?_⟩ <;> decide +kernel

/-- The operational device with ring 5 on the Ethernet, address 9 valid, changed by f. -/
def withEth (f : Ring → Ring) : State := up fun d => { d with sys := { d.sys with addr := 9, addrValid := true } }.modRing 5 fun r =>
  f { r with enable := true, active := true, log2Slots := 4, source := 1 }

/-- A datagram of this type and SEQ to ring 5 at address 9. -/
def testDgram (type seq : Nat) (body : List Nat) : List Nat :=
  let h := [1 + 16 * type, 5, 9, 0] ++ leBytes 4 seq ++ leBytes 4 0
  h ++ leBytes 4 (crc32 (h ++ [0, 0, 0, 0] ++ body)) ++ body

theorem witness_Ethernet :
    (let s := withEth id;
      Settled s ∧ s.dev.on 9 = true ∧ s.dev.ringsRun = true ∧ s.dev.dgramDropped [] = true ∧
      (∀ k ∈ [1, 2, 3], let u := testDgram k 12 (List.replicate 64 0);
        s.dev.dgramDropped u = false ∧ (transportOf u).type = k ∧ s.dev.serves (transportOf u).ring = true) ∧
      s.dev.rings.infoReplies = [] ∧ (s.dev.ring 5).ackCount = 0) ∧
    (let s := withEth fun r => { r with cum := some 10, ackCount := 3, unacked := [{ EthOut.reset with tseq := 4, sends := 1 }] };
      let u (q : Nat) := testDgram 1 q (List.replicate 64 0);
      s.dev.ethTakes { parsePacket 5 1 ((u 12).drop 16) with seq := 12 } = true ∧ seqLe 9 10 = true ∧ seqLe 12 10 = false ∧
      (s.dev.ring 5).ackCount ≠ 0 ∧ (s.dev.ring 5).unacked.find? (fun o => o.tseq = 4) = some { EthOut.reset with tseq := 4, sends := 1 } ∧
      (s.dev.ring 5).unacked.find? (fun o => o.tseq = 5) = none ∧ (s.dev.ring 5).peerLost = false ∧ (s.dev.ring 5).source = 1 ∧
      s.dev.sched.stage = 0 ∧ s.dev.sys.addrValid = true ∧ 0 < s.dev.windowOf 5) := by
  refine ⟨?_, ?_⟩ <;> decide +kernel

theorem witness_SystemPackets :
    (Ready 0x0000 (pkt 0 0 []) (rdy (pkt 0 0 []) id) ∧ Ready 0x0002 (pkt 2 0 []) (rdy (pkt 2 0 []) id)) ∧
    (let p := { pkt 0x0003 0 (List.replicate 16 0) with dest := 4095 };
      Ready 0x0003 p (rdy p id) ∧ chkSysSetAddr p (rdy p id).dev = none) ∧
    (let q := { pkt 0x0101 0 [] with ring := 4, seq := 9, phase := .parked };
      let p := pkt 0x0004 0 ([4, 0, 0, 0] ++ leBytes 4 9);
      let s := rdy p (fun d => { d with rings := { d.rings with inflight := [q, p] } });
      Ready 0x0004 p s ∧ chkSysTrigCancel p s.dev = none) ∧
    (let p := pkt 0x0001 0 (leBytes 4 77 ++ leBytes 4 1000 ++ leBytes 32 0x18);
      let s := rdy p id;
      Ready 0x0001 p s ∧ chkSysBarrier p s.dev = none ∧ ((before p.ref s.dev.rings.inflight).any fun q => q.ring = p.ring) = false) ∧
    (let p := { pkt 0x0001 0 (leBytes 4 77 ++ leBytes 4 1000 ++ leBytes 32 8) with phase := .barrier };
      let s := rdy p id;
      Settled s ∧ s.dev.ringsRun = true ∧ ((s.dev.packet? (3, 7)).any fun p => p.phase = .barrier) = true ∧
      ((s.dev.packet? (3, 8)).any fun p => p.phase = .barrier) = false) := by
  refine ⟨?_, ?_, ?_, ?_, ?_⟩ <;> decide +kernel

theorem leNat_leBytes (n x : Nat) (l : List Nat) : leNat (leBytes n x ++ l) = x % 256 ^ n + 256 ^ n * leNat l := by
  induction n generalizing x with
  | zero => simp [leBytes, Nat.mod_one]
  | succ n ih =>
    show x % 256 % 256 + 256 * leNat (leBytes n (x / 256) ++ l) = _
    rw [ih, Nat.mod_mod, pow_succ, Nat.mul_comm (256 ^ n) 256, Nat.mod_mul, Nat.mul_add]
    ring

/-- SYS_SET_ADDR's identity is the part's own: a packet that names it exists. -/
theorem witness_SetAddr : (pkt 0x0003 0 (leBytes 8 (Config.sysUid % 2 ^ 64) ++ leBytes 8 0)).fld 0 0 64 = Config.sysUid % 2 ^ 64 := by
  show bits (leNat (leBytes 8 (Config.sysUid % 2 ^ 64) ++ leBytes 8 0)) 0 64 = _
  rw [leNat_leBytes, show leNat (leBytes 8 0) = 0 by decide]
  unfold bits
  simp

theorem witness_FaultPairsFollowTheirSources :
    (Settled (up id) ∧ (up id).dev.on 0 = true ∧ (up id).dev.sourceOn 247 = true ∧
      ((up id).dev.src 247).reaction = .log) ∧
    (Settled (up id) ∧ (up id).dev.sourceOn 0 = true ∧ ((up id).dev.src 0).reaction = .log ∧
      isLevel 0 = true ∧ ((up id).dev.src 0).raised = false ∧ (up id).dev.heldUp 0 = false) ∧
    (let s := up (Dev.modSrc 0 (fun x => { x with raised := true, st := .active }));
      Settled s ∧ (s.dev.src 0).raised = true ∧ s.dev.heldUp 0 = false) ∧
    ((up (Dev.modSrc 247 (fun x => { x with st := .quiet }))).dev.src 247).st = .quiet := by decide

theorem witness_FaultCommandsReadConfigureClearInject :
    (let p := pkt 0x0E00 247 [0x09, 0, 100, 0, 0x10, 0x27, 0, 0];
      Ready 0x0E00 p (rdy p id) ∧ chkFltConfig p (rdy p id).dev = none) ∧
    (let p := pkt 0x0E01 247 [];
      Ready 0x0E01 p (rdy p id)) ∧
    (let p := pkt 0x0E02 85 [1, 0, 0, 0];
      let s := rdy p (Dev.modSrc 85 (fun x => { x with st := .active }));
      Ready 0x0E02 p s ∧ chkFltClear p s.dev = none ∧ p.flag 0 2 = false ∧ s.dev.ackActs 85 = true) ∧
    (let p := pkt 0x0E03 0 [0, 1, 0, 0];
      let s := rdy p (fun d => { d with flt := { d.flt with injectEn := true } });
      Ready 0x0E03 p s ∧ chkFltInject p s.dev = none ∧ p.fld 0 0 2 = 0 ∧ (s.dev.src 0).reaction = .log) ∧
    (let p := { pkt 0x0E03 0 [0, 1, 0, 0] with phase := .executing };
      let s := rdy p (fun d => { d with flt := { d.flt with injects := [{ src := 0, wire := false, ref := p.ref }] } });
      Settled s ∧ s.dev.on 0 = true ∧ s.dev.packet? p.ref = some p ∧
      s.dev.flt.injects.find? (fun j => j.ref = p.ref) = some { src := 0, wire := false, ref := p.ref }) ∧
    (let p := pkt 0x0EFF 0 [];
      Ready 0x0EFF p (rdy p id)) := by decide

/-- A device whose source 247 counts as stated by f. -/
def withSrc (n : Nat) (x : Src) : State := up (Dev.modSrc n (fun _ => x))

theorem witness_WireErrorsTimersAndReplays :
    (Settled (up id) ∧ (up id).dev.on 0 = true ∧ (up id).dev.sourceOn 247 = true ∧ ((up id).dev.src 247).wireErr = false ∧
      ((up id).dev.src 247).reaction = .log ∧ (isLevel 247 && (((up id).dev.src 247).raised || (up id).dev.heldUp 247)) = false) ∧
    (up id).dev.injected true 247 = false ∧
    (Settled (withSrc 247 { Src.reset with softTimer := some 10000 }) ∧
      ((withSrc 247 { Src.reset with softTimer := some 10000 }).dev.src 247).softTimer.isSome = true) ∧
    (up id).dev.on 5 = true ∧ (up id).dev.sys.stage = .operational ∧ (up id).dev.on (regionDomain 6) = true ∧
    (Settled (up fun d => { d with flt := { d.flt with fabRun := [(6 * 4096 + 4095, 2)] } }) ∧
      Tab.get 0 (up fun d => { d with flt := { d.flt with fabRun := [(6 * 4096 + 4095, 2)] } }).dev.flt.fabRun
        (6 * 4096 + 4095) + 1 = 3) := by decide

/-- A BL_CONFIG payload. -/
def blPayload : List Nat :=
  [0, 4, 20, 50] ++ leBytes 2 100 ++ leBytes 2 100 ++ leBytes 2 100 ++ leBytes 2 1000 ++ leBytes 2 1000 ++ leBytes 2 2000 ++
  leBytes 2 3000 ++ leBytes 2 600 ++ leBytes 2 100 ++ leBytes 2 100 ++ leBytes 4 1000 ++ leBytes 4 1000 ++ leBytes 2 500 ++
  leBytes 2 100 ++ leBytes 2 10 ++ [0, 0] ++ leBytes 4 10 ++ leBytes 2 3000 ++ leBytes 2 2800 ++ leBytes 2 4000 ++
  leBytes 2 1000 ++ leBytes 2 1 ++ leBytes 2 1 ++ [0x43, 0] ++ leBytes 2 1000 ++ [0, 0, 0, 0]

/-- Settings for the examples. -/
def blCfg : BlCfg :=
  { BlCfg.reset with
    maxRpm := 3000, handover := 600, iMax := 1000, iTrip := 2000, fPwm := 20, ovLim := 4000, uvLim := 1000, vOn := 3000
    vOff := 2800, restart := 100, tries := 3 }

/-- Channel n configured with them. -/
def blSet (n : Nat) (f : BlCh → BlCh) : Dev → Dev := Dev.modBch n (fun c => f { c with configured := true, cfg := blCfg })

set_option exponentiation.threshold 4096 in
theorem witness_ChannelCommands :
    (let p := pkt 0x0A00 3 blPayload;
      Ready 0x0A00 p (rdy p id) ∧ chkBlConfig p (rdy p id).dev = none) ∧
    (let p := pkt 0x0A01 3 (leBytes 4 3000 ++ [0, 0, 0, 0]);
      let s := rdy p (blSet 3 id);
      Ready 0x0A01 p s ∧ chkBlStart p s.dev = none ∧ (s.dev.bch 3).loopSet = none) ∧
    (let p := pkt 0x0A02 3 (leBytes 4 3000 ++ [0, 0, 0, 0]);
      let s := rdy p (blSet 3 (fun c => { c with st := .running, dir := 1 }));
      Ready 0x0A02 p s ∧ chkBlSetSpeed p s.dev = none) ∧
    (let p := pkt 0x0A03 3 [0, 0, 0, 0];
      let s := rdy p (blSet 3 (fun c => { c with st := .measuring, startResult := 6 }));
      Ready 0x0A03 p s ∧ chkBlStop p s.dev = none ∧ (s.dev.bch 3).st ≠ .running ∧ (s.dev.bch 3).st ≠ .stopping) ∧
    (let p := pkt 0x0A03 3 [0, 0, 0, 0];
      let s := rdy p (blSet 3 (fun c => { c with st := .running, speed := 601 }));
      Ready 0x0A03 p s ∧ chkBlStop p s.dev = none ∧ (s.dev.bch 3).st = .running ∧ p.fld 0 0 2 = 0 ∧
      (s.dev.bch 3).chopFault = false ∧ ((s.dev.bch 3).cfg.handover : Int) < (s.dev.bch 3).speed) ∧
    (let p := pkt 0x0AFF 3 [];
      let s := rdy p (blSet 3 (fun c => { c with startResult := 6 }));
      Ready 0x0AFF p s ∧ chkBlReinit p s.dev = none) := by
  refine ⟨?_, ?_, ?_, ?_, ?_, ?_⟩ <;> decide +kernel

theorem witness_ChannelEvents :
    (let s := up (blSet 3 (fun c => { c with st := .running }));
      Settled s ∧ s.dev.on 11 = true ∧ (s.dev.bch 3).st = .running ∧ (4000 : Nat) ≤ (s.dev.bch 3).cfg.ovLim ∧
      (s.dev.bch 3).cfg.uvLim ≤ 4000 ∧
      max (2000 : Int).natAbs (max (-1000 : Int).natAbs ((2000 : Int) + (-1000)).natAbs) ≤ (s.dev.bch 3).cfg.iTrip ∧
      (s.dev.bch 3).cfg.iTrip < max (2001 : Int).natAbs (max (0 : Int).natAbs ((2001 : Int) + 0).natAbs)) ∧
    ((up id).dev.bch 3).st = .stopped ∧
    (let s := up (blSet 3 (fun c => { c with chopCheck := true }));
      Settled s ∧ (s.dev.bch 3).chopCheck = true) ∧
    (let s := up (blSet 3 (fun c => { c with st := .coasting, coastWhy := 1, vbus := 2799 }));
      Settled s ∧ (s.dev.bch 3).st = .coasting ∧ (s.dev.bch 3).coastWhy = 1 ∧ (s.dev.bch 3).vbus < (s.dev.bch 3).cfg.vOff) ∧
    (let s := up (blSet 3 (fun c => { c with st := .measuring, dir := 1 }));
      Settled s ∧ (s.dev.bch 3).st = .measuring ∧ (s.dev.bch 3).dir = 1 ∧ ((s.dev.bch 3).cfg.restart : Int) ≤ 600 ∧
      ((s.dev.bch 3).cfg.handover : Int) ≤ 600 ∧ (600 : Int) ≤ (s.dev.bch 3).cfg.maxRpm) ∧
    (let s := up (blSet 3 (fun c => { c with st := .starting, aligned := true }));
      Settled s ∧ (s.dev.bch 3).st = .starting ∧ (s.dev.bch 3).aligned = true) ∧
    (let s := up (blSet 3 (fun c => { c with st := .coasting }));
      Settled s ∧ (s.dev.bch 3).st = .coasting ∧ (s.dev.bch 3).coastWhy = 0) := by decide

/-- A LOOP_CONFIG payload. -/
def loopPayload : List Nat :=
  [0, 31, 0, 0] ++ leBytes 4 1000 ++ leBytes 4 0 ++ leBytes 4 65536 ++ leBytes 4 65536 ++ leBytes 4 0 ++ leBytes 4 0 ++
  leBytes 2 256 ++ [0, 0] ++ leBytes 4 0 ++ leBytes 4 0 ++ leBytes 4 65536 ++ leBytes 4 65536 ++ leBytes 2 0 ++ leBytes 2 0 ++
  leBytes 4 0 ++ leBytes 4 0 ++ leBytes 4 0 ++ leBytes 4 1 ++ leBytes 4 1000 ++ leBytes 4 0

/-- Loop n configured with a 1 ms period. -/
def loopSet (n : Nat) (f : Loop → Loop) : Dev → Dev :=
  Dev.modLp n (fun x => f { x with configured := true, cfg := { x.cfg with periodUs := 1000, outMax := 65536 } })

set_option exponentiation.threshold 4096 in
theorem witness_LoopCommands :
    (let p := pkt 0x0B00 31 loopPayload;
      Ready 0x0B00 p (rdy p id) ∧ chkLoopConfig p (rdy p id).dev = none) ∧
    (let p := pkt 0x0B01 31 (leBytes 4 5 ++ [0, 0, 0, 0]);
      Ready 0x0B01 p (rdy p id) ∧ chkLoopSetPoint p (rdy p id).dev = none) ∧
    (let p := pkt 0x0B02 31 [1, 0, 0, 0];
      let s := rdy p (loopSet 31 id);
      Ready 0x0B02 p s ∧ chkLoopEnable p s.dev = none ∧ p.flag 0 0 = true) ∧
    (let p := pkt 0x0B02 31 [0, 0, 0, 0];
      let s := rdy p (loopSet 31 (fun x => { x with enabled := true }));
      Ready 0x0B02 p s ∧ chkLoopEnable p s.dev = none ∧ p.flag 0 0 = false) ∧
    (let p := pkt 0x0B03 31 [];
      Ready 0x0B03 p (rdy p id)) ∧
    (let p := pkt 0x0BFF 31 [];
      Ready 0x0BFF p (rdy p id)) ∧
    (Settled (up id) ∧ (up id).dev.on 11 = true ∧ ((up id).dev.lp 31).enabled = false) ∧
    (let s := up (loopSet 31 (fun x => { x with enabled := true }));
      Settled s ∧ s.dev.on 11 = true ∧ (s.dev.lp 31).enabled = true) := by
  refine ⟨?_, ?_, ?_, ?_, ?_, ?_, ?_, ?_⟩ <;> decide +kernel

theorem witness_LoopOutput : Loop.reset.cfg.outMin ≤ Loop.reset.cfg.outMax ∧ 0 ≤ Loop.reset.cfg.ramp := by decide

/-- Axis n configured, changed by f. -/
def axSet (n : Nat) (f : Axis → Axis) : Dev → Dev :=
  Dev.modAxis n (fun a => f { a with
    configured := true, lim := { vMax := 1000, aMax := 1000, dMax := 1000, jMax := 1000 }, softMin := -100000, softMax := 100000,
    en := true, st := .idle })

/-- Stream 0 configured with a rate. -/
def streamSet : Dev → Dev := Dev.modNst 0 (fun n => { n with configured := true, maxRate := 1 })

set_option exponentiation.threshold 4096 in
theorem witness_AxisCommands :
    (let p := pkt 0x0900 7 [0, 10, 2, 0, 0, 0, 0, 0, 0, 0, 0, 0, 0, 0, 0, 0];
      Ready 0x0900 p (rdy p id) ∧ chkMotConfig p (rdy p id).dev = none) ∧
    (let p := pkt 0x0901 7 ([0, 0, 0, 0, 0, 0, 0, 0] ++ leBytes 5 100000 ++ [0, 0, 0]);
      let s := rdy p (axSet 7 id);
      Ready 0x0901 p s ∧ chkMotMove p s.dev = none ∧ moveTarget p (s.dev.axis 7) = some 100000 ∧ (s.dev.axis 7).pos = 0) ∧
    (let p := pkt 0x0901 7 ([1, 0, 0, 0, 0, 0, 0, 0] ++ leBytes 5 (2 ^ 40 - 5) ++ [0, 0, 0]);
      let s := rdy p (axSet 7 (fun a => { a with st := .moving, mode := .toTarget, target := 12, pos := 7 }));
      Ready 0x0901 p s ∧ chkMotMove p s.dev = none ∧ moveTarget p (s.dev.axis 7) = some 7 ∧ (s.dev.axis 7).pos = 7 ∧
      (s.dev.axis 7).vel = 0 ∧ (s.dev.axis 7).stops = []) ∧
    (let p := pkt 0x0901 7 ([3, 0, 0, 0, 0, 0, 0, 0] ++ leBytes 5 1000 ++ [0, 0, 0]);
      let s := rdy p (axSet 7 id);
      Ready 0x0901 p s ∧ chkMotMove p s.dev = none ∧ p.fld 0 0 2 = 3) ∧
    (let p := pkt 0x0902 7 [1, 0, 0, 0];
      let s := rdy p (axSet 7 (fun a => { a with st := .moving, vel := 5 }));
      Ready 0x0902 p s ∧ chkMotStop p s.dev = none ∧ (s.dev.axis 7).atRest = false ∧ p.fld 0 0 2 = 1) ∧
    (let p := pkt 0x0902 7 [2, 0, 0, 0];
      let s := rdy p (axSet 7 id);
      Ready 0x0902 p s ∧ chkMotStop p s.dev = none ∧ (s.dev.axis 7).atRest = true ∧ (s.dev.axis 7).stops = []) ∧
    (let p := pkt 0x0903 7 ([1, 0, 0, 0] ++ leBytes 4 1000 ++ leBytes 4 1 ++ leBytes 4 5 ++ leBytes 8 0 ++ leBytes 8 1000);
      let s := rdy p (axSet 7 id);
      Ready 0x0903 p s ∧ chkMotHome p s.dev = none) ∧
    (let p := pkt 0x0904 7 ([1, 0] ++ leBytes 2 256 ++ leBytes 4 10);
      let s := rdy p (axSet 7 id);
      Ready 0x0904 p s ∧ chkMotFollow p s.dev = none ∧ p.flag 0 0 = true) := by
  refine ⟨?_, ?_, ?_, ?_, ?_, ?_, ?_, ?_⟩ <;> decide +kernel

set_option exponentiation.threshold 4096 in
theorem witness_AxisCommands_gear :
    (let p := pkt 0x0905 7 ([0, 0, 0, 0, 0, 0, 0, 0] ++ leBytes 8 (2 ^ 32) ++ leBytes 24 0);
      let s := rdy p (fun d => (streamSet (axSet 7 id d)).modEnc d.fire.src (fun e => { e with still := false }));
      Ready 0x0905 p s ∧ chkMotGear p s.dev = none ∧ p.fld 0 0 2 = 0 ∧ (s.dev.enc s.dev.fire.src).still = false) ∧
    (let p := pkt 0x0905 7 ([1, 0, 0, 0, 0, 0, 0, 0] ++ leBytes 8 (2 ^ 32 + 1) ++ leBytes 8 10 ++ leBytes 4 64 ++ leBytes 12 0);
      let s := rdy p (fun d => streamSet (axSet 7 (fun a => { a with st := .geared, ratio := 2 ^ 32 }) d));
      Ready 0x0905 p s ∧ chkMotGear p s.dev = none ∧ p.fld 0 0 2 = 1 ∧ s.dev.fire.s < s.dev.blendAt p) ∧
    (let p := pkt 0x0906 7 ([2, 0, 0, 0] ++ leBytes 4 1 ++ leBytes 4 1 ++ leBytes 4 1 ++ leBytes 4 1 ++ leBytes 4 0 ++
        leBytes 8 0 ++ leBytes 8 5);
      let s := rdy p (axSet 7 id);
      Ready 0x0906 p s ∧ chkMotSetLimits p s.dev = none) ∧
    (let p := pkt 0x09FF 7 [];
      let s := rdy p (axSet 7 id);
      Ready 0x09FF p s ∧ chkMotReinit p s.dev = none) := by
  refine ⟨?_, ?_, ?_, ?_⟩ <;> decide +kernel

theorem witness_AxisEvents :
    (let s := up (axSet 7 (fun a => { a with st := .moving, mode := .toTarget, target := -1, plan := a.lim }));
      let a := s.dev.axis 7;
      Settled s ∧ s.dev.on 11 = true ∧ a.en = true ∧ a.enWait = false ∧ a.st = .moving ∧ a.mode = .toTarget ∧ a.chg = none ∧
      mag (-1000) ≤ a.plan.vMax ∧ a.towardsLimit (decide (0 < (-1000 : Int))) = false ∧ a.stops = [] ∧
      a.pos + (-1) * (2 ^ a.stepDiv : Nat) = a.target) ∧
    (let s := up (axSet 7 (fun a => { a with st := .moving, vel := 1, limEn := true }));
      Settled s ∧ (s.dev.axis 7).limEn = true ∧ (s.dev.axis 7).atRest = false ∧ 0 < (s.dev.axis 7).vel) ∧
    ((up (axSet 7 id)).dev.axis 7).atRest = true ∧
    (let s := up (axSet 7 (fun a => { a with st := .homing, homeStep := 4 }));
      Settled s ∧ (s.dev.axis 7).st = .homing ∧ (s.dev.axis 7).homeBack = none ∧ (s.dev.axis 7).homeStep = 4) ∧
    (let s := up (fun d => { d with time := { d.time with tb2 := 500 * 2 ^ 16 } }.modFol 3 (fun f => { f with last := some 300 }));
      Settled s ∧ (s.dev.fol 3).last = some 300 ∧ 200 ≤ s.dev.ns - 300 ∧
      (List.range 8).all (fun k => !((s.dev.axis k).st = .following && (s.dev.axis k).folIn = 3)) = true) ∧
    (let s := up (axSet 7 (fun a => { a with st := .engaging, vel := 1 }));
      Settled s ∧ (s.dev.axis 7).st = .engaging ∧
      mag ((s.dev.axis 7).vel * 2 ^ 56 - (s.dev.axis 7).ratio * s.dev.webV * 1000000000) ≤ 2 ^ 56) ∧
    (let s := up (axSet 7 (fun a => { a with st := .geared, chg := some (0, 1, 64) }));
      Settled s ∧ (s.dev.axis 7).chg = some (0, 1, 64) ∧ (s.dev.axis 7).st = .geared ∧ (0 : Int) ≤ s.dev.fire.s) := by
  refine ⟨?_, ?_, ?_, ?_, ?_, ?_, ?_⟩ <;> decide +kernel

/-- A well-formed PTP message of domain 0 from sender 5. -/
def msg (type : Nat) (twoStep : Bool) : PtpMsg :=
  { type := type, version := 2, wellFormed := true, domain := 0, seq := 9, twoStep := twoStep, source := 5, stamp := 0, corr := 0
    ago := 0 }

/-- Instance 0 enabled, changed by f, with sender 5 as its master. -/
def ptpUp (f : Tb → Tb) : State :=
  up (Dev.modTb 0 (fun b => f { b with enable := true, domain := 0, master := some [1, 2, 3, 4, 5, 6, 7, 5] }))

theorem witness_PtpMessages :
    (Settled (ptpUp id) ∧ (ptpUp id).dev.on 9 = true ∧ (ptpUp id).dev.ptpTakes 0 (msg 0 true) = true ∧
      (ptpUp id).dev.fromMaster 0 5 = true ∧ (msg 0 true).wellFormed = true ∧ (msg 0 true).version = 2 ∧
      (msg 0 false).twoStep = false) ∧
    ((ptpUp (fun b => { b with syncWait := some (9, 7, 8, 1) })).dev.tb 0).syncWait = some (9, 7, 8, 1) ∧
    (((ptpUp (fun b => { b with delayReq := some (9, 7) })).dev.tb 0).delayReq = some (9, 7) ∧
      ((ptpUp id).dev.tb 0).p2p = false) ∧
    ((ptpUp (fun b => { b with st := .grandmaster })).dev.tb 0).st = .grandmaster ∧
    ((ptpUp (fun b => { b with p2p := true })).dev.p2pMode = true ∧ (ptpUp id).dev.p2pMode = false) ∧
    (((ptpUp id).dev.tb 0).enable = true ∧ ((ptpUp id).dev.tb 0).st ≠ .grandmaster ∧
      ((up id).dev.tb 0).enable = false ∧ ((ptpUp (fun b => { b with master := none })).dev.tb 0).master = none) ∧
    ((up id).dev.eth 1).link = false := by
  refine ⟨?_, ?_, ?_, ?_, ?_, ?_, ?_⟩ <;> decide

theorem witness_TimeCommands :
    (let p := pkt 0x0800 1 ([1, 5, 128, 128, 248, 0, 1, 0, 3, 0] ++ leBytes 2 1 ++ leBytes 2 1 ++ leBytes 2 1 ++ leBytes 4 1000 ++
        [100, 0, 0, 0]);
      Ready 0x0800 p (rdy p id) ∧ chkTimeConfigPtp p (rdy p id).dev = none ∧ ((rdy p id).dev.tb 1).st ≠ .holdover) ∧
    (let p := pkt 0x0801 1 (leBytes 2 0 ++ leBytes 4 999999999 ++ leBytes 6 1 ++ leBytes 4 0);
      Ready 0x0801 p (rdy p id) ∧ chkTimeSet p (rdy p id).dev = none) ∧
    (let p := pkt 0x0802 1 ([1, 0, 0, 0] ++ leBytes 4 549755813 ++ leBytes 8 0);
      Ready 0x0802 p (rdy p id) ∧ chkTimeAdjust p (rdy p id).dev = none ∧ p.flag 0 0 = true ∧ p.flag 0 1 = false) ∧
    (let p := pkt 0x0803 15 ([2, 0, 0, 0] ++ leBytes 4 8 ++ leBytes 16 0 ++ leBytes 6 (32 * 2 ^ 16) ++ [0, 0]);
      Ready 0x0803 p (rdy p id) ∧ chkTimeToutConfig p (rdy p id).dev = none) ∧
    (let p := pkt 0x0804 7 [3, 255, 0, 0];
      Ready 0x0804 p (rdy p id) ∧ chkTimeTinConfig p (rdy p id).dev = none) ∧
    (let p := pkt 0x0805 2 [];
      Ready 0x0805 p (rdy p id)) ∧
    (let p := pkt 0x08FF 1 [];
      let s := rdy p (Dev.modTb 1 (fun b => { b with enable := true, st := .locked }));
      Ready 0x08FF p s ∧ chkTimeReinit p s.dev = none) := by
  refine ⟨?_, ?_, ?_, ?_, ?_, ?_, ?_⟩ <;> decide +kernel

theorem witness_TimedEdges :
    (let s := up (Dev.modTb 1 (fun b => { b with conv := true, st := .locked }));
      Settled s ∧ s.dev.on 9 = true ∧ (s.dev.tb 1).conv = true ∧ (s.dev.tb 1).st ≠ .holdover) ∧
    (let s := up (Dev.modTout 15 (fun o => { o with active := true, cfg := { o.cfg with mode := 1, base := 2 } }));
      Settled s ∧ (s.dev.tout 15).old = none ∧ (s.dev.tout 15).cfg.due (s.dev.tbAt (s.dev.tout 15).cfg.base 0) = true ∧
      (s.dev.tout 15).active = true) ∧
    ((up id).dev.tout 15).cfg.due ((up id).dev.tbAt ((up id).dev.tout 15).cfg.base 0) = false ∧
    (let s := up (Dev.modTin 7 (fun x => { x with edge := 3, queue := List.replicate 16 { tb0 := 0, tb1 := 0, tb2 := 0, edge := 1 } }));
      Settled s ∧ (s.dev.tin 7).edge / 2 = 1 ∧ (s.dev.tin 7).edge % 2 = 1 ∧ (s.dev.tin 7).last = none ∧ 16 ≤ (s.dev.tin 7).queue.length) ∧
    (let s := up (Dev.modTin 7 (fun x => { x with edge := 1, queue := List.replicate 15 { tb0 := 0, tb1 := 0, tb2 := 0, edge := 1 } }));
      (s.dev.tin 7).edge % 2 = 1 ∧ (s.dev.tin 7).last = none ∧ (s.dev.tin 7).queue.length < 16) ∧
    (1#32).toNat.testBit 0 = true ∧
    (let p := { pkt 0x0200 0 [] with phase := .parked, trigKind := 1, trigSrc := 2 };
      let s := rdy p id;
      Settled s ∧ s.dev.on 5 = true ∧ s.dev.packet? p.ref = some p ∧ s.dev.trigPassed p = true) ∧
    (let p := { pkt 0x0200 0 [] with phase := .parked, trigKind := 1, trigSrc := 2, trigValue := 1 };
      let s := rdy p id;
      s.dev.packet? p.ref = some p ∧ s.dev.trigPassed p = false) := by
  refine ⟨?_, ?_, ?_, ?_, ?_, ?_, ?_, ?_⟩ <;> decide +kernel

/-- The device with object 65535 open, capacity 64, holding these bytes. -/
def withObj (l : List Nat) : Dev → Dev := Dev.modObj 65535 (fun _ => { Obj.reset with isOpen := true, used := true, cap := 64, data := l })

theorem witness_ObjectCommands :
    (let p := pkt 0x0300 0 (leBytes 8 1 ++ leBytes 8 1);
      let s := rdy p (fun d => { d with ddr := { d.ddr with channels := 2, ranks := 1, longSize := 4 } });
      Ready 0x0300 p s ∧ chkStageObjOpen p s.dev = none ∧ s.dev.nextIndex = some 1) ∧
    (let p := pkt 0x0301 0 (leBytes 4 65535 ++ leBytes 4 0 ++ leBytes 8 1 ++ List.replicate 63 7);
      let s := rdy p (withObj [9]);
      s.dev.objIndex (p.fld 0 0 32) = some 65535 ∧ Ready 0x0301 p s ∧ chkStageObjAppend p s.dev = none) ∧
    (let p := pkt 0x0302 0 (leBytes 4 65535 ++ leBytes 4 0 ++ leBytes 8 1);
      let s := rdy p (withObj [9]);
      s.dev.objIndex (p.fld 0 0 32) = some 65535 ∧ Ready 0x0302 p s ∧ chkStageObjClose p s.dev = none) ∧
    (let p := pkt 0x0303 0 (leBytes 8 65535);
      let s := rdy p (withObj [9]);
      s.dev.objIndex (p.fld 0 0 32) = some 65535 ∧ Ready 0x0303 p s ∧ chkStageObjFree p s.dev = none) := by
  refine ⟨?_, ?_, ?_, ?_⟩ <;> decide +kernel

/-- Entry 0 with a decode state. -/
def withEntry (st : ImpSt) (x : DecodeSt) (l : List Source) : Dev → Dev :=
  Dev.modEntry 0 (fun e => { e with st := st, decode := x, desc := { e.desc with sources := l } })

/-- A record of stream 3 with this many bytes. -/
def recOf (n : Nat) : CapRec :=
  { stream := 3, port := 0, block := CapBlock.reset, isPartial := false, flushed := false, bytes := n, raw := false }

theorem witness_CodecEvents :
    (let s := up (withEntry .accepted .waiting []);
      Settled s ∧ s.dev.on 4 = true ∧ (s.dev.entry 0).st = .accepted ∧ (s.dev.entry 0).decode = .waiting ∧
        s.dev.sourcesReady (s.dev.entry 0).desc = true) ∧
    (let s := up (withEntry .accepted .running []);
      (s.dev.entry 0).decode = .running ∧ (s.dev.entry 0).live = true ∧ s.dev.decodeAll (s.dev.entry 0).desc = .ok []) ∧
    (let s := up (withEntry .accepted .running [Source.reset]);
      (s.dev.entry 0).decode = .running ∧ (s.dev.entry 0).live = true ∧ s.dev.codec.errValid = false ∧
      (match s.dev.decodeAll (s.dev.entry 0).desc with | .error _ => true | .ok _ => false) = true) ∧
    (let s := up (withEntry .accepted .ok []); (s.dev.entry 0).live = true ∧ (s.dev.entry 0).decode = .ok) ∧
    (up id).dev.codec.store.find? (fun (r : CapRec) => r.stream = 3) = none ∧
    (let s := up (fun d => ({ d with codec := { d.codec with store := [recOf 65537] } }).modCapq 3 (fun q => { q with enable := true, log2 := 16 }));
      s.dev.codec.store.find? (fun (r : CapRec) => r.stream = 3) = some (recOf 65537) ∧ (s.dev.capq 3).fits (recOf 65537).bytes = false) ∧
    (let s := up (fun d => ({ d with codec := { d.codec with store := [recOf 65536] } }).modCapq 3 (fun q => { q with enable := true, log2 := 16 }));
      s.dev.codec.store.find? (fun (r : CapRec) => r.stream = 3) = some (recOf 65536) ∧ (s.dev.capq 3).fits (recOf 65536).bytes = true ∧
      (recOf 65536).raw = false ∧ (s.dev.capq 3).flush = none) ∧
    (let p := pkt 0x0306 3 (leBytes 8 0);
      let s := rdy p id;
      Ready 0x0306 p s ∧ chkStageCapture p s.dev = none ∧ p.flag 2 1 = false) ∧
    (let p := pkt 0x0306 3 (leBytes 8 (2 ^ 17));
      let s := rdy p id;
      Ready 0x0306 p s ∧ chkStageCapture p s.dev = none ∧ p.flag 2 1 = true ∧ s.dev.captureAny p.target = false) ∧
    (let p := pkt 0x0306 3 (leBytes 8 (3 * 2 ^ 16 + 32768));
      let s := rdy p (fun d => (({ d with codec := { d.codec with capOpen := 32768 } }).modCapq 3 (fun q => { q with enable := true })).modNst 3
        (fun x => { x with ports := [{ port := 15, nozzles := 1, col := 0 }] }));
      Ready 0x0306 p s ∧ chkStageCapture p s.dev = none ∧ p.flag 2 1 = true ∧ s.dev.captureAny p.target = true) := by
  refine ⟨?_, ?_, ?_, ?_, ?_, ?_, ?_, ?_, ?_, ?_⟩ <;> decide +kernel

/-- Channel c of the DMA engine in a state, with one descriptor in both sets. -/
def withChan (c : Nat) (st : DmaSt) (owner : Bool) (t : Tab Nat) : Dev → Dev :=
  Dev.modChan c (fun x => { x with st := st, owner := owner, shadow := t, act := t })

/-- A FILL of 8 bytes at a host address. -/
def fillDesc : Tab Nat := [(4, 8), (6, 16), (10, 5)]

theorem witness_DmaChannels :
    (let s := up (withChan 27 .idle false fillDesc);
      Settled s ∧ s.dev.on 4 = true ∧ (s.dev.chan 27).owner = false ∧ (0#32).toNat.testBit 3 = false ∧ (s.dev.chan 27).st = .idle ∧
      (s.dev.chan 27).armed = false ∧ descLen (s.dev.chan 27).shadow ≠ 0 ∧ descReserved (s.dev.chan 27).shadow = false ∧
      s.dev.descCheck (s.dev.chan 27).shadow = none) ∧
    (let s := up (withChan 27 .halted false fillDesc); (s.dev.chan 27).st = .halted ∧ (s.dev.chan 27).armed = false) ∧
    (let s := up (withChan 0 .running false fillDesc); (s.dev.chan 0).st = .running ∧
      (s.dmaSource (s.dev.chan 0).act [] 8).length = descLen (s.dev.chan 0).act ∧ descMode (s.dev.chan 0).act ≠ 2 ∧
      descDst (s.dev.chan 0).act ≠ 2) ∧
    (let s := up (withChan 0 .running false [(4, 2), (6, 32)]); (s.dev.chan 0).st = .running ∧
      s.dmaSource (s.dev.chan 0).act [1, 2] 2 = [1, 2] ∧ descMode (s.dev.chan 0).act = 2 ∧ descDst (s.dev.chan 0).act = 0 ∧
      firstDiff [1, 2] ([1, 3].take 2) 0 = some 1) ∧
    (let p := { pkt 0x0304 27 (leBytes 48 (8 * 2 ^ 128 + 16 * 2 ^ 192)) with phase := .started };
      let s := rdy p (withChan 27 .idle true []);
      Ready 0x0304 p s ∧ chkStageDmaStart p s.dev = none) ∧
    (let p := pkt 0x0305 27 [];
      let s := rdy p (withChan 27 .halted true []);
      Ready 0x0305 p s ∧ chkStageDmaAbort p s.dev = none ∧ (s.dev.chan 27).st ≠ .running ∧ (s.dev.chan 27).armed = false) ∧
    (let p := pkt 0x0305 27 [];
      let s := rdy p (withChan 27 .running true []);
      Ready 0x0305 p s ∧ chkStageDmaAbort p s.dev = none ∧ (s.dev.chan 27).st = .running) ∧
    (let p := pkt 0x03FF 0 [];
      let s := rdy p id;
      Ready 0x03FF p s ∧ ∀ k, k < 32 → (s.dev.chan k).st ≠ .running ∧ (s.dev.chan k).armed = false) := by
  refine ⟨?_, ?_, ?_, ?_, ?_, ?_, ?_, ?_⟩ <;> decide +kernel

theorem witness_TableWindowWrites :
    (let s := up (fun d => { d with banks := [(11, { Bank.reset with owner := 2 })] });
      Settled s ∧ MemWf s ∧ s.dev.on 6 = true ∧ s.dev.on 0 = true ∧ s.dev.sys.stage = .operational ∧
      s.dev.hostBank ((12 * 0x200000 - 8) / 0x200000) = true ∧ s.dev.hostBank 0 = false) := by decide +kernel

/-- Stream 3 prints with port 15, its next line boundary at line n. -/
def withStream (n : Int) (d : Dev) : Dev :=
  (d.modNst 3 (fun x => { x with configured := true, ports := [{ port := 15, nozzles := 8, col := 0 }], statusPend := some [(0, 1)] })).modFst 3
    (fun x => { x with nextLine := n })

theorem witness_ScheduledChanges :
    (let p := pkt 0x0502 3 (leBytes 16 1);
      let s := rdy p (withStream 5);
      Ready 0x0502 p s ∧ chkNozSwapStatus p s.dev = none ∧ (∀ x ∈ (s.dev.nst 3).changes, x.boundary.isSome = true) ∧
        s.dev.boundaryOf 3 (p.fld 0 0 2) (p.fld 8 0 48) = some 5) ∧
    (let p := pkt 0x0504 3 (leBytes 16 (5 + 255 * 2 ^ 16));
      let s := rdy p (withStream 5);
      Ready 0x0504 p s ∧ chkNozSetStitch p s.dev = none ∧ s.dev.boundaryOf 3 (p.fld 0 0 2) (p.fld 8 0 48) = some 5) ∧
    (let p := pkt 0x0505 15 (leBytes 16 1);
      let s := rdy p (withStream 5);
      Ready 0x0505 p s ∧ chkNozSetDelay p s.dev = none ∧ s.dev.streamAt 15 = 3 ∧
        s.dev.boundaryOf 3 (p.fld 0 0 2) (p.fld 8 0 48) = some 5) ∧
    (let p := pkt 0x0506 15 (leBytes 24 (2 + 2 ^ 80) ++ leBytes 2 0);
      let s := rdy p (withStream 5);
      Ready 0x0506 p s ∧ chkNozLoadOffsets p s.dev = none ∧ s.dev.streamAt 15 = 3 ∧ (s.dev.hp 15).st ≠ .up ∧
        s.dev.boundaryOf 3 (p.fld 0 1 2) (p.fld 16 0 48) = some 5) ∧
    (let p := pkt 0x0603 3 (leBytes 24 (5 + 64 * 2 ^ 64));
      let s := rdy p (withStream 5);
      Ready 0x0603 p s ∧ chkFireSetDatum p s.dev = none ∧ s.dev.boundaryOf 3 (p.fld 0 0 2) (p.fld 16 0 48) = some 5) ∧
    (let p := pkt 0x0604 3 (leBytes 24 13);
      let s := rdy p (withStream 5);
      Ready 0x0604 p s ∧ chkFireRegister p s.dev = none ∧ s.dev.boundaryOf 3 (p.fld 0 0 2) (p.fld 16 0 48) = some 5) ∧
    (let p := pkt 0x0703 15 (leBytes 16 (1 + 7 * 4));
      let s := rdy p (fun d => (withStream 5 d).modHp 15 (fun h => { h with slots := [(7, { Wave.reset with loaded := true })] }));
      Ready 0x0703 p s ∧ chkHeadSelectWave p s.dev = none ∧ s.dev.streamOf 15 = some 3 ∧
        s.dev.boundaryOf 3 (p.fld 0 0 2) (p.fld 8 0 48) = some 5) ∧
    (let p := pkt 0x0703 15 (leBytes 16 (1 + 7 * 4));
      let s := rdy p (Dev.modHp 15 (fun h => { h with slots := [(7, { Wave.reset with loaded := true })] }));
      Ready 0x0703 p s ∧ chkHeadSelectWave p s.dev = none ∧ s.dev.streamOf 15 = none) := by
  refine ⟨?_, ?_, ?_, ?_, ?_, ?_, ?_, ?_⟩ <;> decide +kernel

theorem witness_NozzleCommands :
    (let p := pkt 0x0500 3 ([1, 0, 0, 0] ++ leBytes 4 200000 ++ leBytes 8 0 ++ [15, 0] ++ leBytes 2 2048 ++ leBytes 4 0);
      let s := rdy p id;
      Ready 0x0500 p s ∧ chkNozConfigStream p s.dev = none) ∧
    (let p := pkt 0x0501 3 (leBytes 8 0 ++ leBytes 4 7 ++ leBytes 4 1 ++ [3]);
      let s := rdy p (withStream 0);
      Ready 0x0501 p s ∧ chkNozLoadStatus p s.dev = none) ∧
    (let p := pkt 0x0503 3 ([0, 0, 0, 1] ++ leBytes 4 256);
      let s := rdy p (withStream 0);
      Ready 0x0503 p s ∧ chkNozLoadTakeover p s.dev = none) ∧
    (let p := pkt 0x05FF 3 [];
      Ready 0x05FF p (rdy p id)) := by
  refine ⟨?_, ?_, ?_, ?_⟩ <;> decide +kernel

/-- Encoder 1 in a role, at levels 0 0, with a signal. -/
def withEnc (role : Nat) (ok : Bool) (f : Enc → Enc) : State :=
  up (fun d => { (d.modEnc 1 (fun x => f { x with role := role, signalOk := ok })) with time := { d.time with tb2 := 2 ^ 40 } })

theorem witness_EncoderEvents :
    (let s := withEnc 2 true id;
      Settled s ∧ s.dev.on 11 = true ∧ (s.dev.enc 1).role ≠ 0 ∧ (s.dev.enc 1).signalOk = true ∧ (s.dev.enc 1).a = false ∧
      (s.dev.enc 1).b = false ∧ (s.dev.enc 1).lastTrans = none ∧ (s.dev.enc 1).rebase = false ∧ s.dev.fire.src ≠ 1 ∧
      (s.dev.enc 1).lastIndex = none) ∧
    (let s := withEnc 0 false id; (s.dev.enc 1).role = 0) ∧
    (let s := withEnc 1 true (fun x => { x with lastTrans := some (2 ^ 40), lastIndex := some (-5) });
      (s.dev.enc 1).lastTrans = some s.dev.time.tb2 ∧ (s.dev.enc 1).lastIndex = some (-5) ∧ (s.dev.enc 1).perIndex = 0) ∧
    (let s := withEnc 1 true (fun x => { x with lastIndex := some 0, count := 6, perIndex := 4, indexTol := 1 });
      (s.dev.enc 1).perIndex ≠ 0 ∧ ((s.dev.enc 1).indexTol : Int) < mag ((s.dev.enc 1).count - 0 - (s.dev.enc 1).perIndex)) ∧
    (let s := up (fun d => ({ d with fire := { d.fire with src := 1, lostNoPrimary := false } }).modEnc 1 (fun x => { x with role := 1, signalOk := true }));
      s.dev.fire.src = 1 ∧ s.dev.fire.lost = false ∧ s.dev.fire.reinits = [] ∧ (s.dev.enc 1).deficit = 0) ∧
    (let s := up (Dev.modFst 3 (fun f => { f with armed := [{ line := -1, times := [(15, 7 * 2 ^ 16)] }] }));
      (List.range 4).find? (fun n => (s.dev.fst n).armed.any (fun a => a.times.any (fun t => t.1 = 15))) = some 3 ∧
      (s.dev.fst 3).armed.find? (fun a => a.times.any (fun t => t.1 = 15)) = some { line := -1, times := [(15, 7 * 2 ^ 16)] } ∧
      s.dev.hl.blankDue = false ∧ (s.dev.hp 15).dropsPend + 0 < 256 * 2 ^ 20) ∧
    (∀ n, n < 4 → ∀ a ∈ ((up id).dev.fst n).armed, ∀ t ∈ a.times, t.1 ≠ 15) := by
  refine ⟨?_, ?_, ?_, ?_, ?_, ?_, ?_⟩ <;> decide +kernel

theorem witness_FireCommands :
    (let p := pkt 0x0600 1 ([1, 255, 1, 0] ++ leBytes 12 4);
      let s := rdy p (fun d => ({ d with fire := { d.fire with src := 1, lostNoPrimary := false } }).modEnc 1 (fun x => { x with role := 1, signalOk := true }));
      Ready 0x0600 p s ∧ chkFireConfigEncoder p s.dev = none ∧ (s.dev.enc 1).role = p.fld 0 0 2 ∧ (s.dev.enc 1).role ≠ 0 ∧
      s.dev.sourceUnder 1 1 = some s.dev.fire.src ∧ s.dev.fire.lostSource = false) ∧
    (let p := pkt 0x0600 1 (leBytes 16 1);
      let s := rdy p (Dev.modEnc 1 (fun x => { x with signalOk := true }));
      Ready 0x0600 p s ∧ chkFireConfigEncoder p s.dev = none ∧ (s.dev.enc 1).role = 0 ∧ p.fld 0 0 2 = 1 ∧ s.dev.fire.lostNoPrimary = true ∧
      s.dev.fire.lostSource = false ∧ s.dev.fire.lostSat = false) ∧
    (let p := pkt 0x0601 1 (leBytes 8 1);
      let s := rdy p id;
      Ready 0x0601 p s ∧ chkFireSetRatio p s.dev = none) ∧
    (let p := pkt 0x0602 0 (leBytes 2 5000 ++ leBytes 2 512 ++ leBytes 2 300 ++ [1, 0] ++ leBytes 4 1000000 ++ leBytes 4 592 ++ leBytes 8 592);
      let s := rdy p id;
      Ready 0x0602 p s ∧ chkFireSetTracking p s.dev = none) ∧
    (let p := pkt 0x06FF 0 [];
      let s := rdy p id;
      Ready 0x06FF p s ∧ (∀ k, k < 4 → s.dev.onWeb k = []) ∧ s.dev.primary = none ∧ s.dev.fire.reversed = false ∧ s.dev.fire.lostSat = false) ∧
    (let s := up (fun d => ({ d with fire := { d.fire with mismatchRun := 9, minRate := 0 } }.modEnc 0 (fun x => { x with role := 1, signalOk := true, v := 1000 })).modEnc 1
        (fun x => { x with role := 2, signalOk := true, v := 0 }));
      Settled s ∧ s.dev.on 11 = true ∧ s.dev.primary = some 0 ∧ (s.dev.enc (1 - 0)).role ≠ 0 ∧ (s.dev.enc 0).signalOk = true ∧
      (s.dev.enc (1 - 0)).signalOk = true ∧ rateGe (s.dev.enc 0).v s.dev.fire.minRate = true ∧
      ((s.dev.enc 0).v : Int) < 64 * mag (((s.dev.enc 0).v : Int) - (s.dev.enc (1 - 0)).v) ∧ s.dev.fire.mismatchRun = 9) ∧
    ((up id).dev.primary = none) := by
  refine ⟨?_, ?_, ?_, ?_, ?_, ?_, ?_⟩ <;> decide +kernel

theorem witness_HeadCommands :
    (let p := pkt 0x0700 15 [7, 4, 232, 3, 0, 0, 0, 0]; let s := rdy p id;
      Ready 0x0700 p s ∧ chkHeadTrain p s.dev = none) ∧
    (let p := pkt 0x0701 0 ([13, 0, 0, 0, 0, 0, 0, 0] ++ List.replicate 16 255); let s := rdy p id;
      Ready 0x0701 p s ∧ chkHeadAuth p s.dev = none ∧ p.fld 0 0 2 = 1) ∧
    (let p := pkt 0x0701 15 (List.replicate 24 0); let s := rdy p id;
      Ready 0x0701 p s ∧ chkHeadAuth p s.dev = none ∧ p.fld 0 0 2 ≠ 1) ∧
    (let p := pkt 0x0702 15 (leBytes 8 0 ++ [7, 0, 1, 0, 0, 0, 0, 0] ++ [1, 2]); let s := rdy p id;
      Ready 0x0702 p s ∧ chkHeadLoadWave p s.dev = none ∧ (s.dev.hp 15).st ≠ .up) ∧
    (let p := pkt 0x0702 15 (leBytes 8 0 ++ [7, 0, 1, 0, 0, 0, 0, 0] ++ [1, 2]);
      let s := rdy p (Dev.modHp 15 (fun h => { h with st := .up, waves := 8, waveSamples := 1024 }));
      Ready 0x0702 p s ∧ chkHeadLoadWave p s.dev = none ∧ (s.dev.hp 15).st = .up) ∧
    (let p := pkt 0x0704 15 (leBytes 4 1000); let s := rdy p id; Ready 0x0704 p s ∧ chkHeadReset p s.dev = none) ∧
    (let p := { pkt 0x0705 15 [] with phase := .executing }; let d := (rdy p id).dev;
      (d.hp 15).i2c = .idle ∧ (d.hp 15).st ≠ .auth ∧ d.authWaiting 15 = some p.ref) ∧
    (let p := pkt 0x0705 15 []; Ready 0x0705 p (rdy p id)) ∧
    (let p := pkt 0x07FF 15 []; let s := rdy p id; Ready 0x07FF p s ∧ chkHeadReinit p s.dev = none) := by
  refine ⟨?_, ?_, ?_, ?_, ?_, ?_, ?_, ?_, ?_⟩ <;> decide +kernel

theorem witness_HeadLinkEvents :
    (let s := up (fun d => (withStream 0 d).modHp 15 (fun h => { h with st := .up, bufLines := 8, nozzles := 8 }));
      Settled s ∧ s.dev.on 10 = true ∧ s.dev.streamOf 15 = some 3 ∧ s.dev.maySend 3 15 (s.dev.nextLineOf 3 15) = true ∧
      s.dev.lineReady 3 ((s.dev.nst 3).indexOf 15) (s.dev.nextLineOf 3 15) = true ∧ (s.dev.hp 15).receives = true ∧
      (s.dev.hp 15).confirm = []) ∧
    (let s := up (withStream 0); s.dev.streamOf 15 = some 3 ∧ s.dev.maySend 3 15 (s.dev.nextLineOf 3 15) = false ∧
      (s.dev.hp 15).receives = false ∧ (s.dev.hp 15).st ≠ .up ∧ (s.dev.hp 15).unacked.find? (fun f => f.tseq = 65535) = none) ∧
    (let s := up (fun d => (withStream 0 d).modHp 15 (fun h => { h with st := .up, bufLines := 8, nozzles := 8 })
        |>.modEntry 0 (fun e => { e with st := .committed, firstLine := some 0, desc := { e.desc with length := 1 } })
        |>.modIst 3 (fun x => { x with queue := [0] }));
      (s.dev.hp 15).st = .up ∧ s.dev.streamOf 15 = some 3 ∧
      s.dev.lineReady 3 ((s.dev.nst 3).indexOf 15) (s.dev.nextLineOf 3 15) = false) ∧
    (let s := up (Dev.modHp 15 (fun h => { h with st := .up, autoRetrain := false }));
      (s.dev.hp 15).st = .up ∧ (s.dev.hp 15).autoRetrain = false ∧ (s.dev.hp 15).waveRef = none ∧
      s.dev.sched.acts.all (fun a => !(a.kind = 5 && a.running && a.res = 2 ^ 15)) = true) ∧
    (let f : TxFrame := { tseq := 65535, type := 1, line := 0, key := 0, sent := 1, fields := [] };
      (up (Dev.modHp 15 (fun h => { h with unacked := [f] }))).dev.hp 15 |>.unacked.find? (fun f => f.tseq = 65535) |>.isSome) = true ∧
    ((up (Dev.modHp 15 (fun h => { h with confirm := [0] }))).dev.hp 15).confirm ≠ [] ∧
    (let s := up (Dev.modHp 15 (fun h => { h with dropsPend := 2 ^ 20 }));
      (s.dev.hp 15).i2c = .idle ∧ (s.dev.hp 15).authRef = none ∧ (s.dev.hp 15).st ≠ .auth ∧ 2 ^ 20 ≤ (s.dev.hp 15).dropsPend) := by
  refine ⟨?_, ?_, ?_, ?_, ?_, ?_, ?_⟩ <;> decide +kernel

/-- Head port 15 as stated by f. -/
def withPort (f : HlPort → HlPort) : State := up (Dev.modHp 15 f)

/-- The smallest and the largest declaration the spec allows in each field. -/
def declared : Declare :=
  { proto := 1, levels := 2, nozzles := 4096, hblat := 0, bufLines := 255, waves := 8, waveSamples := 1024, hvRef := 0,
    maxRate := 200000, uid := 1, model := 0 }

theorem witness_HeadTraining :
    (let s := withPort id; Settled s ∧ s.dev.on 10 = true ∧ (s.dev.hp 15).hrst = false ∧ (s.dev.hp 15).st ≠ .training ∧
      (s.dev.hp 15).i2c = .idle) ∧
    (let p := pkt 0x0704 15 (leBytes 4 1); let s := rdy p (Dev.modHp 15 (fun h => { h with hrst := true, st := .reset, resetRef := some p.ref }));
      Settled s ∧ (s.dev.hp 15).hrst = true ∧ (s.dev.hp 15).resetRef = some p.ref ∧ s.dev.packet? p.ref = some p) ∧
    (let s := withPort (fun h => { h with hrst := true, st := .reset });
      (s.dev.hp 15).hrst = true ∧ (s.dev.hp 15).resetRef = none ∧ (s.dev.hp 15).st = .reset) ∧
    (let s := withPort (fun h => { h with st := .training }); (s.dev.hp 15).st = .training ∧ (s.dev.hp 15).phase = 0 ∧
      (s.dev.hp 15).ts2 < 16 ∧ 16 ≤ (s.dev.hp 15).ts1 + 16) ∧
    (let s := withPort (fun h => { h with st := .training, phase := 1 }); (s.dev.hp 15).phase = 1 ∧ 16 ≤ (s.dev.hp 15).ts2 + 16) ∧
    (let s := withPort (fun h => { h with st := .training, phase := 2 });
      (s.dev.hp 15).phase = 2 ∧ s.dev.declareBad 15 declared = false ∧ s.dev.declareBad 15 { declared with levels := 9 } = true ∧
      (s.dev.streamOf 15).any (fun k => decide (declared.maxRate < (s.dev.nst k).maxRate)) = false) ∧
    (let s := up (fun d => ((withStream 0 d).modNst 3 (fun x => { x with maxRate := 200000 })).modHp 15 (fun h => { h with st := .training, phase := 2 }));
      s.dev.declareBad 15 { declared with maxRate := 199999 } = false ∧
      (s.dev.streamOf 15).any (fun k => decide (199999 < (s.dev.nst k).maxRate)) = true) ∧
    (((withPort (fun h => { h with st := .loading })).dev.hp 15).st = .loading) ∧
    (((withPort (fun h => { h with i2c := .readInfo })).dev.hp 15).i2c = .readInfo) ∧
    (((withPort (fun h => { h with i2c := .writeChallenge })).dev.hp 15).i2c = .writeChallenge) ∧
    (((withPort (fun h => { h with i2c := .readResponse })).dev.hp 15).i2c = .readResponse) ∧
    (((withPort (fun h => { h with i2c := .readCounter })).dev.hp 15).i2c = .readCounter) := by
  refine ⟨?_, ?_, ?_, ?_, ?_, ?_, ?_, ?_, ?_, ?_, ?_, ?_⟩ <;> decide +kernel

theorem witness_ImprintStreamCommands :
    (let p := pkt 0x0204 3 ([1, 0, 0, 0, 0, 0, 0, 0] ++ leBytes 4 9 ++ leBytes 4 20000);
      let s := rdy p (Dev.modNst 3 (fun x => { x with configured := true, ports := [{ port := 15, nozzles := 1, col := 0 }] }));
      Ready 0x0204 p s ∧ chkImpConfigStream p s.dev = none) ∧
    (let p := pkt 0x0205 3 [];
      let s := rdy p id;
      Ready 0x0205 p s ∧ s.dev.imp.scanDone = false) ∧
    (let p := pkt 0x0205 3 [];
      let r := { CkptRec.reset with id := 5, stream := 3, event := 2, attempt := 4 };
      let s := rdy p (fun d => { d with imp := { d.imp with scanDone := true, ring := [r] } });
      Ready 0x0205 p s ∧ s.dev.imp.scanDone = true ∧
      s.dev.imp.ring.find? (fun r => r.stream = p.target && !(r.event = 3)) = some r) ∧
    (let p := pkt 0x0205 3 [];
      let s := rdy p (fun d => { d with imp := { d.imp with scanDone := true } });
      Ready 0x0205 p s ∧ s.dev.imp.scanDone = true ∧
      s.dev.imp.ring.find? (fun r => r.stream = p.target && !(r.event = 3)) = none) ∧
    (let p := pkt 0x02FF 3 [];
      let s := rdy p (fun d => (d.modIst 3 (fun x => { x with queue := [0] })).modEntry 0 (fun e => { e with st := .staged }));
      Ready 0x02FF p s ∧ s.dev.onWeb p.target = [] ∧ 0 ∈ (s.dev.ist p.target).queue ∧ (s.dev.entry 0).onWeb = false) := by
  refine ⟨?_, ?_, ?_, ?_, ?_⟩ <;> decide +kernel

/-- Imprint 9 in entry 0 of stream 3, in this state. -/
def withImprint (st : ImpSt) (n : Nat) : Dev → Dev := fun d =>
  (d.modIst 3 (fun x => { x with queue := [0] })).modEntry 0 (fun e =>
    { e with st := st, attempt := n, desc := { e.desc with id := 9, stream := 3, maxAttempts := 15 } })

theorem witness_SpoiledImprints :
    ([(0, 9), (1, 5)].map (fun e : Nat × Nat => e.1)).Nodup ∧
    (let p := pkt 0x0202 3 (leBytes 8 9);
      let s := rdy p (withImprint .firing 3);
      Ready 0x0202 p s ∧ chkImpSpoil p s.dev = none ∧ (s.dev.entryOf p.imprint).map (·.1) = some 0) := by
  refine ⟨?_, ?_⟩ <;> decide +kernel

/-- The payload of an IMP_SUBMIT of identity 9 on stream 3: one line of dot-plane source 0, next in line, three attempts. -/
def submitBytes : List Nat :=
  leBytes 8 9 ++ leBytes 4 1 ++ [3, 1, 3, 0] ++ leBytes 8 0 ++ leBytes 4 0 ++ [0, 0, 0, 0] ++ leBytes 8 1 ++
    leBytes 4 0 ++ leBytes 2 32768 ++ [0, 0]

/-- Stream 3 configured with port 15, and the ring scanned. -/
def submitDev : Dev → Dev := fun d =>
  ({ d with imp := { d.imp with scanDone := true } }.modIst 3 (fun x => { x with configured := true })).modNst 3
    (fun x => { x with configured := true, ports := [{ port := 15, nozzles := 1, col := 0 }] })

theorem witness_ImprintsAreSubmitted :
    (let p := pkt 0x0200 3 submitBytes;
      let s := rdy p id;
      Ready 0x0200 p s ∧ chkImpSubmit p s.dev = none ∧ s.dev.imp.scanDone = false) ∧
    (let p := pkt 0x0200 3 submitBytes;
      let s := rdy p (fun d => (submitDev d).modEntry 4 (fun e => { e with desc := p.desc, st := .firing }));
      Ready 0x0200 p s ∧ chkImpSubmit p s.dev = none ∧ s.dev.imp.scanDone = true ∧ (s.dev.sameEntry p.desc).map (·.1) = some 4) ∧
    (let p := pkt 0x0200 3 submitBytes;
      let s := rdy p (fun d => { submitDev d with imp := { (submitDev d).imp with seen := [9] } });
      Ready 0x0200 p s ∧ chkImpSubmit p s.dev = none ∧ s.dev.imp.scanDone = true ∧ s.dev.sameEntry p.desc = none ∧
        s.dev.imp.printedRecord p.desc.id = none ∧ s.dev.imp.seen.contains p.desc.id = true) ∧
    (let p := pkt 0x0200 3 submitBytes;
      let r := { CkptRec.reset with id := 9, stream := 3, event := 1, attempt := 4 };
      let s := rdy p (fun d => { submitDev d with imp := { (submitDev d).imp with ring := [r] } });
      Ready 0x0200 p s ∧ chkImpSubmit p s.dev = none ∧ s.dev.imp.scanDone = true ∧ s.dev.sameEntry p.desc = none ∧
        s.dev.imp.printedRecord p.desc.id = some r) ∧
    (let p := pkt 0x0201 3 (leBytes 8 9);
      let s := rdy p (withImprint .staged 0);
      Ready 0x0201 p s ∧ chkImpCancel p s.dev = none ∧ (s.dev.entryOf p.imprint).map (·.1) = some 0) ∧
    (let p := pkt 0x0203 3 (leBytes 8 9);
      let s := rdy p (withImprint .printed 0);
      Ready 0x0203 p s ∧ chkImpRelease p s.dev = none ∧ (s.dev.entryOf p.imprint).map (·.1) = some 0) := by
  refine ⟨?_, ?_, ?_, ?_, ?_, ?_⟩ <;> decide +kernel

/-- The device with one SPOILED record waiting, the ring scanned and its first sector erased. -/
def withJob (d : Dev) : Dev :=
  { d with imp := { d.imp with scanDone := true, jobs := [{ record := { CkptRec.reset with id := 9, event := 2 }, reports := [], index := none }] } }

theorem witness_CheckpointRecords :
    (Settled (up id) ∧ (up id).dev.on 0 = true ∧ (up id).recordReady = false ∧ (up id).dev.imp.scanning = false ∧
      ((up id).dev.imp.scanDone && (up id).dev.imp.eraseDue (up id).mem.ckptSectors && !(up id).dev.sectorHeld (up id).mem.ckptSectors) = false) ∧
    ((up withJob).recordReady = true ∧ (up withJob).dev.imp.jobs ≠ []) ∧
    (let s := up (fun d => { d with imp := { d.imp with scanDone := true, written := 256 * 1023 } });
      (s.dev.imp.scanDone && s.dev.imp.eraseDue s.mem.ckptSectors && !s.dev.sectorHeld s.mem.ckptSectors) = true) ∧
    (up fun d => { d with imp := { d.imp with scanning := true } }).dev.imp.scanning = true := by
  refine ⟨?_, ?_, ?_, ?_⟩ <;> decide +kernel

theorem witness_ScreeningEvents :
    (Settled (up id) ∧ (up id).dev.on 5 = true ∧ (up id).dev.on 1 = true ∧ ((up id).dev.sst 3).cur = none ∧
      (up id).dev.nextAttempt 3 = none) ∧
    (let s := up (fun d => { (d.modSst 3 (fun x => { x with cur := some 0 })).modEntry 0 (fun e =>
        { e with desc := { e.desc with mode := 2, stream := 3, length := 1 } }) with scr := { (d.modSst 3 (fun x => { x with cur := some 0 })).scr with laneMap := 3 * 2 ^ 21 } });
      (s.dev.sst 3).cur = some 0 ∧ (s.dev.entry 0).desc.mode ≠ 0 ∧ s.dev.lanes 3 = 8) ∧
    (let s := up (fun d => { (d.modSst 3 (fun x => { x with cur := some 0 })).modEntry 0 (fun e =>
        { e with desc := { e.desc with mode := 2, stream := 3, length := 1 } }) with scr := { (d.modSst 3 (fun x => { x with cur := some 0 })).scr with laneMap := 0 } });
      (s.dev.sst 3).cur = some 0 ∧ (s.dev.entry 0).desc.mode ≠ 0 ∧ s.dev.lanes 3 = 0) ∧
    (let s := up (fun d => (d.modIst 3 (fun x => { x with queue := [0] })).modEntry 0 (fun e =>
        { e with st := .accepted, decode := .ok, desc := { e.desc with stream := 3, length := 1 } }));
      (s.dev.sst 3).cur = none ∧ s.dev.nextAttempt 3 = some 0) := by
  refine ⟨?_, ?_, ?_, ?_⟩ <;> decide +kernel

theorem witness_ScreeningTables :
    (let p := pkt 0x0401 3 (leBytes 8 0 ++ leBytes 4 65535 ++ leBytes 4 1 ++ leBytes 4 1024);
      let s := rdy p (Dev.modNst 3 (fun x => { x with configured := true }));
      Ready 0x0401 p s ∧ chkScrLoadDensity p s.dev = none) ∧
    (let p := pkt 0x0402 15 (leBytes 8 0 ++ [1, 0, 1, 0, 0, 0, 0, 0] ++ leBytes 8 7);
      let s := rdy p id;
      Ready 0x0402 p s ∧ chkScrLoadThresh p s.dev = none) ∧
    (let p := pkt 0x0403 15 ([16, 0, 0, 0, 0, 16, 0, 0, 0, 0, 1, 0, 0, 0, 1] ++ List.replicate 13 0);
      let s := rdy p (Dev.modThresh 0 (fun x => { x with width := 1, height := 1, cells := [[]] }));
      Ready 0x0403 p s ∧ chkScrSetDiffusion p s.dev = none) ∧
    (let p := pkt 0x0404 15 (leBytes 8 0);
      let s := rdy p id;
      Ready 0x0404 p s ∧ chkScrLoadDropmap p s.dev = none ∧ (s.dev.streamOf p.target).isSome = false) ∧
    (let p := pkt 0x04FF 3 [];
      let s := rdy p (withImprint .staged 0);
      Ready 0x04FF p s ∧ s.dev.onWeb p.target = [] ∧ 0 ∈ (s.dev.ist p.target).queue ∧ (s.dev.entry 0).onWeb = false) := by
  refine ⟨?_, ?_, ?_, ?_, ?_⟩ <;> decide +kernel

/-- A tone load of 512 bytes of zero passes its checks. -/
theorem witness_LoadTone :
    (let p := pkt 0x0400 3 (List.replicate 528 0);
      let s := rdy p (Dev.modNst 3 (fun x => { x with configured := true }));
      Ready 0x0400 p s ∧ chkScrLoadTone p s.dev = none) := by
  decide +kernel

/-- The carry before the first line of an attempt is 0 everywhere, so also at a disabled position. -/
theorem witness_DiffusionLosesNoTone : ∀ p, p < 5 → [0, 0, 3, 0, 0].getD p 0 = 3 → (List.replicate 5 (0 : Int)).getD p 0 = 0 := by
  decide +kernel

/-- The operational device with this arbiter unit. -/
def withSched (f : Sched → Sched) : Dev → Dev := fun d => { d with sched := f d.sched }

theorem witness_CoreVoltageLoop :
    (Settled (up id) ∧ (up id).dev.on 5 = true ∧ (up id).dev.on 0 = true ∧ (up id).dev.coreRuns = true ∧
      (up id).dev.sched.avsBusy = []) ∧
    (let s := up (fun d => { d with sys := { d.sys with stage := .saddle } });
      s.dev.on 5 = true ∧ s.dev.on 0 = true ∧ s.dev.coreRuns = false) ∧
    (let c := (up (withSched fun c => { c with slackLow := 8, target := 700, vMax := 60 })).dev.sched;
      7 < c.slackLow ∧ c.target < c.vMaxMv ∧ c.slackLow ≤ 8) ∧
    (let c := (up (withSched fun c => { c with slackLow := 8, target := 900, vMax := 60 })).dev.sched;
      7 < c.slackLow ∧ c.vMaxMv ≤ c.target) ∧
    (let c := (up (withSched fun c => { c with slackHigh := 8, target := 605, vFloor := 600 })).dev.sched;
      c.slackFault = false ∧ c.slackHigh < 9 ∧ c.vFloor + 5 ≤ c.target ∧ 8 ≤ c.slackHigh) ∧
    (up (withSched fun c => { c with avsBusy := [1, 2] })).dev.sched.avsBusy = [1, 2] := by
  refine ⟨?_, ?_, ?_, ?_, ?_, ?_⟩ <;> decide +kernel

theorem witness_Throttle :
    (let c : Sched := { State.reset.dev.sched with throttleC := 90, limitC := 105, therm := [1439] };
      c.die < 16 * c.throttleC ∧ c.throttle = 255) ∧
    (let c : Sched := { State.reset.dev.sched with throttleC := 90, limitC := 105, therm := [1680] };
      16 * (c.limitC : Int) ≤ c.die ∧ c.throttleC ≤ c.limitC) := by
  refine ⟨?_, ?_⟩ <;> decide +kernel

/-- Open activities: a purge of port 15 that runs, and a check of the same port behind it. -/
def acts2 : List Activity :=
  [{ Activity.reset with id := 65535, kind := 1, res := 32768, running := true }, { Activity.reset with id := 1, kind := 4, res := 32768 }]

theorem witness_ConflictingActivities :
    let d := (up (withSched fun c => { c with acts := acts2, nextId := 2 })).dev
    (d.sched.acts.map (fun a : Activity => a.id)).Nodup ∧ (∀ a ∈ d.sched.acts, a.running = true → blocker d.sched.acts a = none) ∧
      ∀ a ∈ d.sched.acts, a.id ≠ d.sched.nextId := by
  decide +kernel

theorem witness_BudgetAndMaintenance :
    (let p := pkt 0x0C03 0 (leBytes 4 15000);
      let s := rdy p id; Ready 0x0C03 p s ∧ chkPwrSetCap p s.dev = none) ∧
    (let p := pkt 0x0C04 0 (List.replicate 16 0);
      let s := rdy p id; Ready 0x0C04 p s ∧ chkPwrSetExtBudget p s.dev = none ∧ p.fld 0 0 2 = 0) ∧
    (let p := pkt 0x0C04 15 ([1, 0, 0, 0, 0, 0, 31, 255] ++ List.replicate 24 0 ++ [1, 0, 1, 0, 2, 0, 0, 0]);
      let s := rdy p id;
      Ready 0x0C04 p s ∧ chkPwrSetExtBudget p s.dev = none ∧ p.fld 0 0 2 = 1 ∧ (s.dev.pmodel p.target).warn = false) ∧
    (let p := pkt 0x0C04 7 ([2, 0, 0, 0, 0, 31] ++ List.replicate 26 0);
      let s := rdy p id; Ready 0x0C04 p s ∧ chkPwrSetExtBudget p s.dev = none ∧ p.fld 0 0 2 = 2) ∧
    (let p := pkt 0x0F00 0 ([4, 0, 0, 128] ++ leBytes 4 600000);
      let s := rdy p (withSched fun c => { c with acts := acts2, nextId := 2 });
      let a := { Activity.reset with id := s.dev.sched.nextId, kind := p.fld 0 0 4, res := p.fld 2 0 16, maxMs := p.fld 4 0 32 };
      Ready 0x0F00 p s ∧ chkMaintStart p s.dev = none ∧ (blocker (s.dev.sched.acts ++ [a]) a).map (·.id) = some 65535) ∧
    (let p := pkt 0x0F00 0 ([4, 0, 0, 64] ++ leBytes 4 1);
      let s := rdy p (withSched fun c => { c with acts := acts2, nextId := 2 });
      let a := { Activity.reset with id := s.dev.sched.nextId, kind := p.fld 0 0 4, res := p.fld 2 0 16, maxMs := p.fld 4 0 32 };
      Ready 0x0F00 p s ∧ chkMaintStart p s.dev = none ∧ blocker (s.dev.sched.acts ++ [a]) a = none) ∧
    (let p := pkt 0x0F01 0 (leBytes 8 65535);
      let s := rdy p (withSched fun c => { c with acts := acts2 });
      Ready 0x0F01 p s ∧ chkMaintEnd p s.dev = none) ∧
    (let p := pkt 0x0F02 0 (leBytes 8 65535);
      let s := rdy p (withSched fun c => { c with acts := acts2 });
      Ready 0x0F02 p s ∧ chkMaintQuery p s.dev = none ∧ (s.dev.act? (p.fld 0 0 16)).map (·.running) = some true) ∧
    (let p := pkt 0x0F02 0 (leBytes 8 1);
      let s := rdy p (withSched fun c => { c with acts := acts2 });
      Ready 0x0F02 p s ∧ chkMaintQuery p s.dev = none ∧ (s.dev.act? (p.fld 0 0 16)).map (·.running) = some false ∧ p.fld 4 0 32 = 0) ∧
    (let p := pkt 0x0F02 0 (leBytes 4 1 ++ leBytes 4 16000000);
      let s := rdy p (withSched fun c => { c with acts := acts2 });
      Ready 0x0F02 p s ∧ chkMaintQuery p s.dev = none ∧ (s.dev.act? (p.fld 0 0 16)).map (·.running) = some false ∧ p.fld 4 0 32 ≠ 0) ∧
    (let p := pkt 0x0F02 0 (leBytes 8 7);
      let s := rdy p (withSched fun c => { c with ended := [(7, .timeout)] });
      Ready 0x0F02 p s ∧ chkMaintQuery p s.dev = none ∧ s.dev.act? (p.fld 0 0 16) = none ∧ s.dev.endedAct (p.fld 0 0 16) = some .timeout) ∧
    (let p := { pkt 0x0F02 0 (leBytes 4 1 ++ leBytes 4 16000000) with phase := .executing };
      let s := rdy p id;
      Settled s ∧ s.dev.on 5 = true ∧ s.dev.packet? (3, 7) = some p ∧ p.op = 0x0F02 ∧ p.phase = .executing ∧ s.dev.packet? (3, 8) = none) ∧
    (let p := pkt 0x0FFF 0 [];
      let s := rdy p (withSched fun c => { c with acts := acts2 });
      Ready 0x0FFF p s) := by
  refine ⟨?_, ?_, ?_, ?_, ?_, ?_, ?_, ?_, ?_, ?_, ?_, ?_, ?_⟩ <;> decide +kernel

theorem witness_SchedulerTimers :
    (Settled (up id) ∧ (up id).dev.on 0 = true ∧ (up id).dev.on 5 = true ∧ (up id).dev.candidate 3 = none ∧
      ((up id).dev.sched.stopping && !(up id).dev.anyArmed && ((up id).dev.imp.jobs.isEmpty || !(up id).dev.ckptWrites)) = false) ∧
    (let s := up (fun d => { (withSched (fun c => { c with stopping := true }) d) with pwr := { d.pwr with hkInt := [(0, 4095)] } });
      (s.dev.sched.stopping && !s.dev.anyArmed && (s.dev.imp.jobs.isEmpty || !s.dev.ckptWrites)) = true ∧
      (s.dev.pwr.cycling || s.dev.pwr.timedDue) = false ∧ s.dev.stageCalled 7 = false) ∧
    (let s := up (fun d => { (withSched (fun c => { c with stopping := true }) d) with pwr := { d.pwr with cycling := true } });
      (s.dev.sched.stopping && !s.dev.anyArmed && (s.dev.imp.jobs.isEmpty || !s.dev.ckptWrites)) = true ∧
      (s.dev.pwr.cycling || s.dev.pwr.timedDue) = true) ∧
    (let s := up (withSched fun c => { c with stopping := true });
      (s.dev.sched.stopping && !s.dev.anyArmed && (s.dev.imp.jobs.isEmpty || !s.dev.ckptWrites)) = true ∧
      (s.dev.pwr.cycling || s.dev.pwr.timedDue) = false ∧ s.dev.stageCalled 7 = true) ∧
    ((up (Dev.modHp 15 fun h => { h with st := .up, temp := 640 })).dev.hp 15).st = .up ∧
    (let s := up (fun d => (d.modIst 3 (fun x => { x with queue := [0] })).modEntry 0 (fun e => { e with st := .staged }));
      s.dev.candidate 3 = some 0 ∧ (s.dev.entry 0).held = false) := by
  refine ⟨?_, ?_, ?_, ?_, ?_, ?_⟩ <;> decide +kernel

/-- The operational device with these samples of indicator 0x40. -/
def withSamples (limit : Nat) (l : List Nat) : Dev → Dev := Dev.modWearInd 0x40 (fun x => { x with samples := l, window := 7, limit := limit, warnH := 1 })

theorem witness_Wear :
    (Settled (up id) ∧ (up id).dev.on 5 = true ∧ (up id).dev.sched.stage = 0 ∧ (up id).dev.sys.stage = .operational ∧
      (up (fun d => { d with sched := { d.sched with stage := 1 } })).dev.sched.stage = 1) ∧
    (let p := pkt 0x1000 0x40 [];
      Ready 0x1000 p (rdy p id)) ∧
    (let p := pkt 0x1001 0x40 (List.replicate 16 0);
      let s := rdy p id;
      Ready 0x1001 p s ∧ chkWearPredict p s.dev = none ∧ p.flag 0 0 = false ∧ (s.dev.wearInd p.target).predict = none) ∧
    (let p := pkt 0x1001 0x40 (List.replicate 16 0);
      let s := rdy p (withSamples 100 [70, 60, 50, 40, 30, 20, 10]);
      Ready 0x1001 p s ∧ (s.dev.wearInd p.target).predict = some 72) ∧
    (let p := pkt 0x1001 0x40 (List.replicate 16 0);
      let s := rdy p (withSamples (2 ^ 63) [70, 60, 50, 40, 30, 20, 10]);
      Ready 0x1001 p s ∧ (s.dev.wearInd p.target).predict.any (fun h => decide (0xFFFFFFFF ≤ h)) = true) ∧
    (let p := pkt 0x1001 0x40 ([1, 7, 1] ++ List.replicate 13 0);
      let s := rdy p id;
      Ready 0x1001 p s ∧ chkWearPredict p s.dev = none ∧ p.flag 0 0 = true) ∧
    (let p := pkt 0x10FF 0x40 [];
      Ready 0x10FF p (rdy p id)) := by
  refine ⟨?_, ?_, ?_, ?_, ?_, ?_, ?_⟩ <;> decide +kernel

theorem witness_Diagnostics :
    (let p := pkt 0x1100 0 (List.replicate 224 7); Ready 0x1100 p (rdy p id)) ∧
    (let p := pkt 0x1101 15 (leBytes 4 60000);
      let s := rdy p id; Ready 0x1101 p s ∧ chkDiagLoopback p s.dev = none) ∧
    (let p := pkt 0x1102 0 (leBytes 4 255);
      let s := rdy p id; Ready 0x1102 p s ∧ chkDiagTrace p s.dev = none ∧ s.dev.flt.log[p.fld 0 0 8]? = none) ∧
    (let p := pkt 0x1102 0 (leBytes 4 0);
      let s := rdy p (fun d => { d with flt := { d.flt with log := [{ timeUs := 1, source := 2, kind := 3 }] } });
      Ready 0x1102 p s ∧ chkDiagTrace p s.dev = none ∧ (s.dev.flt.log[p.fld 0 0 8]?).isSome) ∧
    (let p := pkt 0x1103 11 [];
      let s := rdy p (Dev.modBank 11 (fun b => { b with owner := 0 })); Ready 0x1103 p s ∧ chkDiagMemtest p s.dev = none) ∧
    (let p := pkt 0x11FF 0 []; let s := rdy p id; Ready 0x11FF p s ∧ s.dev.testRuns = false) ∧
    (let s := up (fun d => { d with diag := { d.diag with loops := [{ target := 0, ref := (3, 7) }] } });
      Settled s ∧ s.dev.on 0 = true ∧ (∃ l ∈ s.dev.diag.loops, l.ref = (3, 7)) ∧ ∀ l ∈ s.dev.diag.loops, l.ref ≠ (3, 8)) ∧
    (let s := up (Dev.modBank 11 (fun b => { b with memtest := some (3, 7) }));
      s.dev.on 6 = true ∧ (List.range 12).find? (fun n => (s.dev.bank n).memtest = some (3, 7)) = some 11 ∧
      ∀ n, n < 12 → (s.dev.bank n).memtest ≠ some (3, 8)) := by
  refine ⟨?_, ?_, ?_, ?_, ?_, ?_, ?_, ?_⟩ <;> decide +kernel

theorem witness_TrackingTick : (up id).dev.on 11 = true ∧ (up fun d => { d with fire := { d.fire with lostSource := true } }).dev.fire.lost = true ∧
    ((up id).dev.evaluate 3).1 = false := by
  refine ⟨?_, ?_, ?_⟩ <;> decide +kernel

end Sys2Proof.Tests
end

section
/-! The device without its supply (spec chapter 1, R30; chapter 15, R795, R806, R870). -/

namespace Sys2Proof.Proofs

open Sys2Proof.Machine Sys2Proof.Laws

/-- The rings run on a powered device only. -/
theorem ringsRun_of_off {d : Dev} (h : d.sys.powered = false) : d.ringsRun = false := by
  simp [Dev.ringsRun, Dev.commandsRun, h]

/-- The SRAM controller answers on a powered device only, whether PD_6 is ON or in RET. -/
theorem sramOn_of_off {d : Dev} (h : d.sys.powered = false) : d.sramOn = false := by simp [Dev.sramOn, h]

/-- REG_POLL_READ is no ring event, as a read may clear bits of a register, but it waits for the rings as one. -/
theorem off_regPollRead {s : State} (h : s.dev.sys.powered = false) (r seq : Nat) : execRegPollRead r seq s = .next s :=
  if_neg (by simp [ringsRun_of_off h])

/-- SRAMC_BANK_CTRL_WRITE is under a guard of its own, wider than that of a running domain (R870). -/
theorem off_sramcBankCtrlWrite {s : State} (h : s.dev.sys.powered = false) (n : Nat) (v : BitVec 32) :
    execSramcBankCtrlWrite n v s = .next s :=
  if_neg (by simp [sramOn_of_off h])

/-- Settles O5: each command but the three acts under a guard (of the bus, the rings, the SRAM controller, a power domain or
the packets), and every guard asks for power; the cases stand by guard. -/
theorem nothingHappensWithoutPower : Obligations.NothingHappensWithoutPower := by
  unfold Obligations.NothingHappensWithoutPower
  intro c s off notOn notRemoved notPerst
  cases c with
  | powerOn => exact absurd rfl notOn
  | powerRemoved => exact absurd rfl notRemoved
  | perstRelease => exact absurd rfl notPerst
  | registerWrite | readToClear | counterLowRead | mspiWriteFrame | mspiReadFrame | mspiStatusFrame =>
    exact off_busAccess off _
  | ringTailWrite | ringSlotFetch | indirectPayloadFetch | cqHeadWrite | ringEnable | ringDisable | clearWindow |
    ringIrqHoldoffEnd | rptqHeadWrite | rptqEnable | barrierTimeout | regPollTimeout =>
    exact off_ringEvent off _
  | regPollRead => exact off_regPollRead off _ _
  | sramcBankCtrlWrite => exact off_sramcBankCtrlWrite off _ _
  | bar2Write | tableApertureAccess | cycleOffExpire | ckptRecordProgrammed | ckptSectorErased | dmaGo |
    dmaCtrlAbort | dmaCtrlClear | dmaTransferEnd | dmaBusError | shedStageClear | ddrTrainingEnd | ddrReadReturn |
    bankClearEnd | pfwRelease | pllLock | fwImageLoadEnd | bootOperational | bootWatchdogExpire | fabricParityRefuse |
    diagMemtestEnd | fwWriteProgrammed =>
    rw [exec]
    exact off_inDomainS off _ _
  | capqHeadWrite | captureRecordDeliver | ethCmdReceive | ethBulkReceive | ethAckReceive | ethAckTimer |
    ethRtoExpire | sysInfoBroadcastReply | timeTriggerDue | ckptScanEnd | lookaheadDecodeStart | lookaheadDecodeEnd |
    stagingDecodeEnd | attemptBoundary | screenLineDone | scrCapacityUpdate | scrLaneMapWrite | encoderTransition |
    encoderIndexEdge | encoderLos | encoderCompare | trackingLoopTick | standstill | fsyncEmit | hlLineSend |
    hlFeederDeadline | hlLstatReceive | hlLstatTimeout | hlRxLockLoss | hlReplayTimeout | hlFireConfirmTimeout |
    hlVoidCheckTimeout | hlHrstRelease | hlTrainingSetReceive | hlDeclareReceive | hlRespReceive | hlTrainingTimeout |
    hlI2cTransactionEnd | hlHalertLow | hlUsageIncrementTimer | heldAttemptTimer | heatBiasUpdate | coreVfloorUpdate |
    coreSlackRaiseTick | coreSlackLowerTimer | avsPoll | avsAlert | avsTransactionEnd | thermSample | orderlyStopEnd |
    maintQueryTimeout | maintActivityTimeout | ptpSyncReceive | ptpFollowUpReceive | ptpDelayRespReceive |
    ptpPdelayReceive | ptpAnnounceReceive | ptpSyncTimeout | ptpAnnounceTimeout | ptpMessageSend | ptpEventRelay |
    ethFrameRelay | ethLinkChange | timeSlewEnd | toutEdge | toutPulseEnd | tinEdge | tinPop | timeSnap |
    axisStepPulse | axisEnableSetupEnd | axisLimitActive | axisHomeEdge | followCoarseStep | gearLock |
    gearBlendStart | blPwmPeriod | blSpeedUpdate | blChopperCheckEnd | blBusSettled | blMeasureEnd | blAlignEnd |
    blHandover | blRetryEnd | loopUpdate | ddrTrackTimer | ddrRefreshDue | ddrCommandSlot | ddrActTableClear |
    ddrScrubRead | bankWakeEnd | screeRegionStart | sramReadError | railGoodChange | railQualEnd | railRiseTimeout |
    railBelowOff | railFallTimeout | railRunFault | railWarnEnd | bootRailRetry | domainSettled | pfwAssert |
    pfwBudgetEnd | srstStretchEnd | srstPulse | hkRound | pllUpdate | pllLossOfLock | pllRefLoss | pllRefReturn |
    clkoutCfgWrite | colBridgeTimeout | bootImgGo | bootImgLoadEnd | faultRaise | faultLower | faultWireError |
    wireSoundEnd | softTimerExpire | quietExpire | lockstepMismatch | fwWatchdogExpire | fltInjectEnd |
    wearDailySample | diagLoopbackEnd | encoderSignalRestore | hlHalertRelease | hlRxFrameDiscard | ptpDelayReqReceive
    =>
    exact off_inDomain off _ _
  | sysNop | sysBarrier | sysInfo | sysSetAddr | sysTrigCancel | sysWarmReset | sysPowerCycle | sysFwWrite |
    sysFwActivate | regRead | regWrite | regRmw | regPoll | regTableWrite | regTableRead | impSubmit | impCancel |
    impSpoil | impRelease | impConfigStream | impRecover | impReinit | stageObjOpen | stageObjAppend | stageObjClose |
    stageObjFree | stageDmaStart | stageDmaAbort | stageCapture | stageReinit | scrLoadTone | scrLoadDensity |
    scrLoadThresh | scrSetDiffusion | scrLoadDropmap | scrReinit | nozConfigStream | nozLoadStatus | nozSwapStatus |
    nozLoadTakeover | nozSetStitch | nozSetDelay | nozLoadOffsets | nozReinit | fireConfigEncoder | fireSetRatio |
    fireSetTracking | fireSetDatum | fireRegister | fireReinit | headTrain | headAuth | headLoadWave |
    headSelectWave | headReset | headReadCounter | headReinit | pwrSetCap | pwrSetExtBudget | maintStart | maintEnd |
    maintQuery | maintReinit | timeConfigPtp | timeSet | timeAdjust | timeToutConfig | timeTinConfig | timeRead |
    timeReinit | motConfig | motMove | motStop | motHome | motFollow | motGear | motSetLimits | motReinit | blConfig |
    blStart | blSetSpeed | blStop | blReinit | loopConfig | loopSetPoint | loopEnable | loopRead | loopReinit |
    memBankHandover | memRetrain | memScrub | memScree | memErrRead | memReinit | pwrRailConfig | pwrRailOn |
    pwrRailOff | pwrDomain | pwrReinit | fltConfig | fltRead | fltClear | fltInject | fltReinit | wearRead |
    wearPredict | wearReinit | diagEcho | diagLoopback | diagTrace | diagMemtest | diagReinit =>
    exact off_opRow off _ _ _ _ _

end Sys2Proof.Proofs
end

section
/-! Spoils, and what an evaluation of a candidate can do (spec chapters 2, 8 and 10). -/

namespace Sys2Proof.Proofs

open Sys2Proof.Machine Sys2Proof.Laws

/-- VOID sets on any ports keep the imprint unit. -/
theorem voidPorts_imp (ports : List Nat) (k : Nat) (m : Int) (idx : List Nat) (d : Dev) :
    (forL ports (fun q d => d.voidPort k q m idx) d).imp = d.imp :=
  forL_keep Dev.imp (fun _ _ => voidPort_imp _ _ _ _ _) ports d

/-- The end of the capture blocks that hold one of these imprints keeps the imprint unit. -/
theorem closeCaptures_imp (ports : List PortEntry) (k : Nat) (idx : List Nat) (d : Dev) :
    (forL ports (fun e d => if idx.contains (d.capBlock e.port).index && !(d.capBlock e.port).mark then
      d.closeCapture k e.port false else d) d).imp = d.imp := by
  refine forL_keep Dev.imp (fun e d => ?_) ports d
  split
  · exact closeCapture_imp _ _ _ _
  · rfl

/-- The entries and the waiting records of a spoil are those of its imprints spoiled one after the other: VOID sets, capture
closures and the spoil mark add nothing. -/
theorem spoilSet_as_entries (d : Dev) (k : Nat) (l : List (Nat × Nat)) : ∃ d0 : Dev, d0.imp = d.imp ∧
    (d.spoilSet k l).imp.entries = (forL l (fun p d => d.spoilEntry p.1 p.2 none) d0).imp.entries ∧
    (d.spoilSet k l).imp.jobs.map (·.record) = (forL l (fun p d => d.spoilEntry p.1 p.2 none) d0).imp.jobs.map (·.record) := by
  unfold Dev.spoilSet
  split
  · rename_i h
    rw [List.isEmpty_iff.mp h]
    exact ⟨d, rfl, rfl, rfl⟩
  · extract_lets m idx marked d1 d2 attempt d3
    refine ⟨d2, (closeCaptures_imp _ k idx d1).trans (voidPorts_imp _ k m idx d), ?_⟩
    clear_value marked
    cases marked with
    | nil => exact ⟨rfl, rfl⟩
    | cons f t => exact ⟨placeMark_entries _ _, placeMark_records _ _⟩

/-- What an attempt that is spoiled leaves its entry at (R45, R55). -/
theorem next_spec (e : Entry) (r : Nat) : (e.next r).attempt = e.attempt + 1 ∧ (e.next r).cause = r ∧
    (e.next r).staged = false ∧ (e.next r).lines = [] ∧
    ((e.next r).st = .cancelled ↔ e.desc.maxAttempts ≤ e.attempt + 1) ∧
    ((e.next r).st = .accepted ↔ e.attempt + 1 < e.desc.maxAttempts) := by
  refine ⟨rfl, rfl, rfl, rfl, ?_⟩
  have hst : (e.next r).st = if e.desc.maxAttempts ≤ e.attempt + 1 then .cancelled else .accepted := rfl
  rw [hst]
  split
  · rename_i h
    exact ⟨by simp [h], by simp [h]⟩
  · rename_i h
    exact ⟨by simp [h], by simpa using h⟩

/-- IMP_SPOIL of an imprint in Cairn: the spoil with reason 0x09, then DONE (R52). -/
theorem runImpSpoil_of_entry {p : Packet} {d : Dev} {i : Nat} {e : Entry} (h : d.entryOf p.imprint = some (i, e)) :
    runImpSpoil p d = (d.spoil i 0x09).complete p.ref .done 0 0 := by
  unfold runImpSpoil
  rw [h]

/-- Settles O47: around the spoils of the single imprints, nothing in a spoil touches Cairn or the waiting records. -/
theorem spoiledImprintsAreCheckpointedAndTakeTheirNextAttempt :
    Obligations.SpoiledImprintsAreCheckpointedAndTakeTheirNextAttempt := by
  unfold Obligations.SpoiledImprintsAreCheckpointedAndTakeTheirNextAttempt
  refine ⟨fun d k l hl => ?_, next_spec, fun s p i e hready hchk he => opRow_post hready hchk (runImpSpoil_of_entry he)⟩
  obtain ⟨d0, himp, hentries, hrecords⟩ := spoilSet_as_entries d k l
  have hentry0 : ∀ j, d0.entry j = d.entry j := fun j => by unfold Dev.entry; rw [himp]
  have hentry : ∀ j, (d.spoilSet k l).entry j = (forL l (fun p d => d.spoilEntry p.1 p.2 none) d0).entry j := fun j => by
    unfold Dev.entry; rw [hentries]
  obtain ⟨hnamed, hother, hjobs⟩ := forL_spoilEntry l d0 hl
  refine ⟨fun e he => ?_, fun j hj => ?_, ?_⟩
  · rw [hentry, hnamed e he, hentry0]
  · rw [hentry, hother j hj, hentry0]
  · simp only [hrecords, hjobs, himp, hentry0]

end Sys2Proof.Proofs
end

section
/-! The tick of the tracking loop and the evaluation of a candidate (spec chapters 2, 8 and 10). -/

namespace Sys2Proof.Proofs

open Sys2Proof.Machine Sys2Proof.Laws

/-- S stands still while LOST is set (R399). -/
theorem advanceS_of_lost {d : Dev} (h : d.fire.lost = true) : d.advanceS = d := by
  unfold Dev.advanceS
  rw [if_pos h]

/-- S while LOST is clear (R414): along the loop, but not past the source's next count (R411). -/
theorem advanceS_of_found {d : Dev} (h : ¬ d.fire.lost = true) : d.advanceS = { d with fire := { d.fire with
    s := max d.fire.s (min ((d.enc d.fire.src).xE + roundOpen 37 ((d.enc d.fire.src).v * ((d.time.tb2 : Int) - (d.enc d.fire.src).tE)) (2 ^ 24))
      ((d.enc d.fire.src).xE + 64 * (d.enc d.fire.src).ratio / 2 ^ 16 - 1)) } } := by
  unfold Dev.advanceS
  rw [if_neg h]

/-- S never goes back, and never past the source's next count or where it already was. -/
theorem advanceS_spec (d : Dev) : (d.fire.lost = true → d.advanceS = d) ∧ d.fire.s ≤ d.advanceS.fire.s ∧
    d.advanceS.fire.s ≤ max d.fire.s ((d.enc d.fire.src).xE + 64 * (d.enc d.fire.src).ratio / 2 ^ 16 - 1) ∧
    d.advanceS = { d with fire := { d.fire with s := d.advanceS.fire.s } } := by
  refine ⟨advanceS_of_lost, ?_⟩
  by_cases h : d.fire.lost = true
  · rw [advanceS_of_lost h]
    exact ⟨le_rfl, le_max_left _ _, rfl⟩
  · rw [advanceS_of_found h]
    exact ⟨le_max_left _ _, max_le_max_left _ (min_le_right _ _), rfl⟩

/-- Holding a candidate, or asking for a higher voltage, keeps the state and the first line of every entry. -/
def SameCommits (d d' : Dev) : Prop := ∀ j, (d'.entry j).st = (d.entry j).st ∧ (d'.entry j).firstLine = (d.entry j).firstLine

theorem SameCommits.of_imp {d d' : Dev} (h : d'.imp = d.imp) : SameCommits d d' := fun j => by
  unfold Dev.entry
  rw [h]
  exact ⟨rfl, rfl⟩

theorem SameCommits.trans {a b c : Dev} (h : SameCommits a b) (k : SameCommits b c) : SameCommits a c := fun j =>
  ⟨(k j).1.trans (h j).1, (k j).2.trans (h j).2⟩

theorem sameCommits_modIst (d : Dev) (k : Nat) (f : ImpStream → ImpStream) : SameCommits d (d.modIst k f) := fun _ => ⟨rfl, rfl⟩

theorem sameCommits_modEntry (d : Dev) (i : Nat) (f : Entry → Entry) (hst : ∀ e, (f e).st = e.st)
    (hfirst : ∀ e, (f e).firstLine = e.firstLine) : SameCommits d (d.modEntry i f) := fun j => by
  by_cases h : j = i
  · subst h
    rw [Dev.entry_modEntry]
    exact ⟨hst _, hfirst _⟩
  · rw [Dev.entry_modEntry_ne _ _ _ _ h]
    exact ⟨rfl, rfl⟩

/-- What an evaluation can do: it commits a staged candidate in the horizon, with no cause to hold it and a line at which it
fits, or it commits nothing (R46, R516, R518, R519, R523). -/
theorem evaluate_cases (d : Dev) (k : Nat) :
    (∃ i f, d.candidate k = some i ∧ (d.entry i).st = .staged ∧ (d.entry i).unresolved = false ∧
      d.inHorizon (d.entry i) = true ∧ d.holdCauses k (d.entry i) = [] ∧
      d.fitLine (d.entry i) (d.entry i).degrade = .ok f ∧ d.evaluate k = (true, d.commitAt i f)) ∨
    (d.evaluate k).1 = false ∧ SameCommits d (d.evaluate k).2 := by
  unfold Dev.evaluate
  extract_lets hold now
  have hheld : ∀ l d', SameCommits d d' → SameCommits d (hold l d') := fun l d' h => h.trans (sameCommits_modIst d' k _)
  split
  case h_1 => exact .inr ⟨rfl, hheld _ _ (.of_imp rfl)⟩
  case h_2 i hi =>
    extract_lets e causes d1
    split
    case isTrue => exact .inr ⟨rfl, hheld _ _ (.of_imp rfl)⟩
    case isFalse hready =>
      simp only [Bool.or_eq_true, Bool.not_eq_true', decide_eq_false_iff_not, not_or, not_not, Bool.not_eq_true,
        Bool.not_eq_false] at hready
      obtain ⟨⟨hstaged, hresolved⟩, hhorizon⟩ := hready
      split
      case h_1 f hfit =>
        split
        case isTrue hcauses =>
          exact .inl ⟨i, f, hi, hstaged, hresolved, hhorizon, List.isEmpty_iff.mp hcauses, hfit, rfl⟩
        case isFalse => exact .inr ⟨rfl, hheld _ _ (sameCommits_modEntry _ _ _ (fun _ => rfl) fun _ => rfl)⟩
      case h_2 l _ =>
        have hd1 : SameCommits d d1 := sameCommits_modEntry _ _ _ (fun _ => rfl) fun _ => rfl
        exact .inr ⟨rfl, hheld _ _ (hd1.trans (.of_imp (askVoltage_imp e l d1)))⟩

/-- Settles O60: the tick is its row's, S by the loop or LOST, and an evaluation by its cases. -/
theorem trackingTickAdvancesSAndCommitsOnlyWhatFits : Obligations.TrackingTickAdvancesSAndCommitsOnlyWhatFits := by
  unfold Obligations.TrackingTickAdvancesSAndCommitsOnlyWhatFits
  refine ⟨fun s hon => inDomain_post hon rfl, advanceS_spec, fun d k => ?_⟩
  obtain ⟨i, f, hcand, hstaged, hres, hhor, hcauses, hfit, heval⟩ | ⟨hno, hsame⟩ := evaluate_cases d k
  · obtain ⟨hst, hfirst, hother⟩ := commitAt_entry d i f
    rw [heval]
    exact ⟨fun _ => ⟨i, f, hcand, hstaged, hres, hhor, hcauses, hfit, hst, hfirst, hother⟩, fun h => absurd h (by simp)⟩
  · exact ⟨fun h => absurd (hno.symm.trans h) (by simp), fun _ => hsame⟩

end Sys2Proof.Proofs
end

section
/-! The commands of an imprint stream: IMP_CONFIG_STREAM, IMP_RECOVER and IMP_REINIT (spec chapter 2). -/

namespace Sys2Proof.Proofs

open Sys2Proof.Machine Sys2Proof.Laws

/-- A completion after a change of the imprint unit and the rings. -/
theorem frame_imp_ringed {d e z : Dev} (h : e = { Dev.ringed d e with imp := e.imp }) (k : z = Dev.ringed e z) :
    z = { Dev.ringed d z with imp := z.imp } := by
  have himp : z.imp = e.imp := by rw [k]; rfl
  rw [himp]
  rw [h] at k
  exact k

/-- A stream with the settings that IMP_CONFIG_STREAM carries, for this staging lead (R38, R42). -/
def configured (p : Packet) (lead : Nat) (x : ImpStream) : ImpStream :=
  { x with
    configured := true, policy := p.flag 0 0, markLevel := p.fld 1 0 3, markCount := p.fld 2 0 16
    markFirst := p.fld 4 0 16, markLines := p.fld 6 0 16, stopDistance := p.fld 8 0 24, horizon := p.fld 12 0 24
    shortHorizon := decide (p.fld 12 0 24 < p.fld 8 0 24 + lead) }

/-- The device with the settings of IMP_CONFIG_STREAM and the ring of the stream's reports, before the completion (R157). -/
def streamConfigured (p : Packet) (d : Dev) : Dev :=
  (d.modIst p.target (configured p (d.stageLead p.target))).modRptq p.target (fun q => { q with ring := p.ring })

theorem runImpConfigStream_eq (p : Packet) (d : Dev) :
    runImpConfigStream p d = (streamConfigured p d).complete p.ref .done 0 0 := rfl

theorem streamConfigured_ist (p : Packet) (d : Dev) :
    (streamConfigured p d).ist p.target = configured p (d.stageLead p.target) (d.ist p.target) := by
  show (d.modIst p.target _).ist p.target = _
  exact Dev.ist_modIst ..

theorem streamConfigured_ist_ne (p : Packet) (d : Dev) {k : Nat} (h : k ≠ p.target) :
    (streamConfigured p d).ist k = d.ist k := by
  show (d.modIst p.target _).ist k = _
  exact Dev.ist_modIst_ne _ _ _ _ h

/-- IMP_CONFIG_STREAM stores the stream's settings and completes (R38, R42). -/
theorem impConfigStream_does {s : State} {p : Packet} (h : Ready 0x0204 p s) (hc : chkImpConfigStream p s.dev = none) :
    Does (.impConfigStream p.ring p.seq) p .done 0 0 s fun t =>
      t.dev.ist p.target = configured p (s.dev.stageLead p.target) (s.dev.ist p.target) ∧
      (∀ k, k ≠ p.target → t.dev.ist k = s.dev.ist k) ∧ t.dev.imp.entries = s.dev.imp.entries ∧
      Only { Dev.ringed s.dev t.dev with imp := t.dev.imp } s t := by
  obtain ⟨hnext, hcompleted⟩ := does_rep h hc (streamConfigured p s.dev) .done 0 0 (runImpConfigStream_eq p s.dev) rfl rfl
    ⟨[], rfl⟩ h.1
  refine ⟨_, hnext, hcompleted, ?_, fun k hk => ?_, ?_, ?_⟩
  · rw [complete_ist_at, streamConfigured_ist]
  · rw [complete_ist_at, streamConfigured_ist_ne p _ hk]
  · rw [complete_imp]; rfl
  · exact congrArg (fun d => ({ s with dev := d } : State)) (frame_imp_ringed (by rfl) (complete_frame ..))

/-- IMP_RECOVER before the scan executes on (R80). -/
theorem impRecover_waits {s : State} {p : Packet} (h : Ready 0x0205 p s) (hs : s.dev.imp.scanDone = false) :
    Goes (.impRecover p.ring p.seq) s fun t => t.dev.packet? p.ref = some { p with phase := .executing } ∧
      t.dev.out = s.dev.out ∧ Only { s.dev with rings := t.dev.rings } s t := by
  have hrun : runImpRecover p s.dev = s.dev.executing p := by unfold runImpRecover; rw [hs]; rfl
  exact ⟨_, opRow_done (g := Dev.executing p) h rfl hrun h.1, packet_executing (ready_packet h), rfl, rfl⟩

/-- IMP_RECOVER after the scan answers and changes nothing else. -/
theorem impRecover_answers {s : State} {p : Packet} (h : Ready 0x0205 p s) {result aux : Nat}
    (hrun : runImpRecover p s.dev = s.dev.complete p.ref .done result aux) :
    Does (.impRecover p.ring p.seq) p .done result aux s fun t => Only (Dev.ringed s.dev t.dev) s t := by
  obtain ⟨hnext, hcompleted⟩ := does_of h (chk := chkImpRecover) (f := runImpRecover) rfl s.dev .done result aux hrun rfl
    (pre := []) rfl h.1
  exact ⟨_, hnext, hcompleted, only_of ..⟩

/-- What IMP_RECOVER answers from the stream's last record (R130). -/
theorem runImpRecover_record {p : Packet} {d : Dev} (hs : d.imp.scanDone = true) {r : CkptRec}
    (hr : d.imp.ring.find? (fun r => r.stream = p.target && !(r.event = 3)) = some r) :
    runImpRecover p d = d.complete p.ref .done r.id (r.attempt + 16 * r.event + 256 * b2n d.imp.orderly) := by
  simp only [runImpRecover, hs, hr, Bool.not_true, Bool.false_eq_true, if_false]

/-- What IMP_RECOVER answers where the stream has no record (R130). -/
theorem runImpRecover_none {p : Packet} {d : Dev} (hs : d.imp.scanDone = true)
    (hr : d.imp.ring.find? (fun r => r.stream = p.target && !(r.event = 3)) = none) :
    runImpRecover p d = d.complete p.ref .done 0 (256 * b2n d.imp.orderly) := by
  simp only [runImpRecover, hs, hr, Bool.not_true, Bool.false_eq_true, if_false]

/-- An entry without the screened lines of an uncommitted attempt (R115, R259). -/
def unscreened (e : Entry) : Entry := if e.onWeb then e else { e with lines := [], carry := [], staged := false }

/-- A STAGED entry is ACCEPTED again (R115). -/
def unstaged (e : Entry) : Entry := if e.st = .staged then { e with st := .accepted } else e

theorem unscreened_idem (e : Entry) : unscreened (unscreened e) = unscreened e := by
  by_cases h : e.onWeb = true
  · simp [unscreened, h]
  · have hout : unscreened e = { e with lines := [], carry := [], staged := false } := if_neg h
    rw [hout]
    exact if_neg h

theorem unstaged_idem (e : Entry) : unstaged (unstaged e) = unstaged e := by
  by_cases h : e.st = .staged <;> simp [unstaged, h]

/-- What IMP_REINIT does to a stream with nothing on the web, before its completion. -/
def streamReset (k : Nat) (d : Dev) : Dev :=
  forL (d.ist k).queue (fun i d => d.modEntry i unstaged)
    ((forL (d.ist k).queue (fun i d => d.modEntry i unscreened) d).modSst k (fun x => { x with cur := none }))

/-- Changing entries keeps the streams. -/
theorem forL_modEntry_ist (f : Entry → Entry) (l : List Nat) (d : Dev) (k : Nat) :
    (forL l (fun i d => d.modEntry i f) d).ist k = d.ist k := forL_keep (·.ist k) (f := fun i d => d.modEntry i f) (fun _ _ => rfl) l d

theorem runImpReinit_eq {p : Packet} {d : Dev} (h : d.onWeb p.target = []) :
    runImpReinit p d = (streamReset p.target d).complete p.ref .done 0 0 := by
  have hspoil : d.spoilAll p.target 0x0B = d := by unfold Dev.spoilAll; rw [h]; rfl
  have hist : ((d.discardScreened p.target).ist p.target).queue = (d.ist p.target).queue :=
    congrArg ImpStream.queue (forL_modEntry_ist unscreened _ d p.target)
  unfold runImpReinit
  dsimp only
  rw [hspoil, hist]
  rfl

theorem streamReset_entry (k : Nat) (d : Dev) (i : Nat) : (streamReset k d).entry i =
    if i ∈ (d.ist k).queue then unstaged (unscreened (d.entry i)) else d.entry i := by
  unfold streamReset
  rw [forL_modEntry unstaged unstaged_idem, modSst_entry, forL_modEntry unscreened unscreened_idem]
  split <;> rfl

theorem streamReset_sst (k : Nat) (d : Dev) : ((streamReset k d).sst k).cur = none := by
  have hcur : ∀ e : Dev, ((forL (d.ist k).queue (fun i d => d.modEntry i unstaged) e).sst k).cur = (e.sst k).cur :=
    forL_keep (fun d => (d.sst k).cur) (f := fun i d => d.modEntry i unstaged) (fun _ _ => rfl) _
  exact (hcur _).trans (congrArg ScrStream.cur (Dev.sst_modSst ..))

theorem streamReset_ist (k : Nat) (d : Dev) (j : Nat) : (streamReset k d).ist j = d.ist j :=
  (forL_modEntry_ist unstaged _ _ j).trans (forL_modEntry_ist unscreened _ d j)

theorem streamReset_frame (k : Nat) (d : Dev) :
    streamReset k d = { d with imp := (streamReset k d).imp, scr := (streamReset k d).scr } := by
  unfold streamReset
  rw [forL_modEntry_imp unstaged, forL_modEntry_imp unscreened]
  rfl

/-- IMP_REINIT of a stream with nothing on the web (R115). -/
theorem impReinit_does {s : State} {p : Packet} (h : Ready 0x02FF p s) (hweb : s.dev.onWeb p.target = []) :
    Does (.impReinit p.ring p.seq) p .done 0 0 s fun t =>
      (∀ i, i ∈ (s.dev.ist p.target).queue → (s.dev.entry i).onWeb = false →
        t.dev.entry i = { s.dev.entry i with
          lines := [], carry := [], staged := false
          st := if (s.dev.entry i).st = .staged then .accepted else (s.dev.entry i).st }) ∧
      (∀ i, i ∉ (s.dev.ist p.target).queue → t.dev.entry i = s.dev.entry i) ∧ (t.dev.sst p.target).cur = none ∧
      (∀ k, t.dev.ist k = s.dev.ist k) ∧
      Only { Dev.ringed s.dev t.dev with imp := t.dev.imp, scr := t.dev.scr } s t := by
  have hframe := streamReset_frame p.target s.dev
  obtain ⟨hnext, hcompleted⟩ := does_of h (chk := chkImpReinit) (f := runImpReinit) rfl (streamReset p.target s.dev) .done 0 0
    (runImpReinit_eq hweb) (by rw [hframe]) (pre := []) (by rw [hframe]; rfl) (by rw [hframe]; exact h.1)
  refine ⟨_, hnext, hcompleted, fun i hi hoff => ?_, fun i hi => ?_, ?_, fun k => ?_, ?_⟩
  · rw [complete_entry_at, streamReset_entry, if_pos hi]
    by_cases hst : (s.dev.entry i).st = .staged <;> simp [unscreened, unstaged, hoff, hst]
  · rw [complete_entry_at, streamReset_entry, if_neg hi]
  · rw [complete_sst_at, streamReset_sst]
  · rw [complete_ist_at, streamReset_ist]
  · refine congrArg (fun d => ({ s with dev := d } : State)) (frame_trans (e := streamReset p.target s.dev) ?_ ?_)
    · rw [hframe]; rfl
    · rw [complete_imp, complete_scr]; exact complete_frame ..

/-- Settles O46, row by row. -/
theorem imprintStreamCommandsConfigureAndRecover : Obligations.ImprintStreamCommandsConfigureAndRecover := by
  unfold Obligations.ImprintStreamCommandsConfigureAndRecover
  exact fun s p => ⟨impConfigStream_does, fun h => ⟨impRecover_waits h, fun hs =>
    ⟨fun _ hr => impRecover_answers h (runImpRecover_record hs hr), fun hr => impRecover_answers h (runImpRecover_none hs hr)⟩⟩,
    impReinit_does⟩

end Sys2Proof.Proofs
end

section
/-! The events of the screening engine (spec chapter 6). -/

namespace Sys2Proof.Proofs

open Sys2Proof.Machine Sys2Proof.Laws

/-- Changes of the imprint unit and the screening unit add up. -/
theorem frame_imp_scr_trans {d e z : Dev} (h : e = { d with imp := e.imp, scr := e.scr })
    (k : z = { e with imp := z.imp, scr := z.scr }) : z = { d with imp := z.imp, scr := z.scr } := by
  rw [h] at k
  exact k

/-- A fallback at shedding stage 4 changes the imprint unit and the screening unit. -/
theorem shedFallback_frame (d : Dev) (i : Nat) :
    d.shedFallback i = { d with imp := (d.shedFallback i).imp, scr := (d.shedFallback i).scr } := by
  obtain ⟨-, hframe, -⟩ := shedFallback_spec d i
  generalize d.shedFallback i = e at hframe ⊢
  rw [hframe]

/-! ### SCREEN_LINE_DONE -/

theorem screenLine_idle {d : Dev} {k : Nat} (h : (d.sst k).cur = none) : d.screenLine k = d := by
  unfold Dev.screenLine
  rw [h]

/-- A stream that needs lanes and has none screens no line (R337). -/
theorem screenLine_no_lanes {d : Dev} {k i : Nat} (h : (d.sst k).cur = some i)
    (hl : (d.entry i).desc.mode ≠ 0 ∧ d.lanes k = 0) : d.screenLine k = d := by
  unfold Dev.screenLine
  simp only [h]
  rw [if_pos (by simpa using hl)]

/-- The line that a stream screens next joins its attempt (R288, R313, R45). -/
theorem screenLine_spec {d : Dev} {k i : Nat} (hcur : (d.sst k).cur = some i)
    (hlanes : ¬ ((d.entry i).desc.mode ≠ 0 ∧ d.lanes k = 0)) :
    let z := d.screenLine k
    let d' := d.shedFallback i
    let e := d'.entry i
    let l := e.lines.length
    let r := d'.screened e l
    let lined := { e with lines := e.lines ++ [d'.dropLine e l r.1], carry := r.2.1 }
    z.entry i = (if e.desc.segLines 0 ≤ l + 1 ∧ (e.st = .accepted ∨ e.st = .staged)
      then { lined with st := .staged, staged := true } else lined) ∧
    (∀ j, j ≠ i → z.entry j = d.entry j) ∧
    (z.sst k).saturations = min (2 ^ 32 - 1) ((d'.sst k).saturations + r.2.2) ∧
    (z.sst k).cur = (if e.desc.length ≤ l + 1 then none else some i) ∧
    z = { d with imp := z.imp, scr := z.scr } := by
  extract_lets z d' e l r lined
  obtain ⟨hother, -, hsame⟩ := shedFallback_spec d i
  obtain ⟨zentry, zother, zsats, zcur, zframe⟩ := lined_spec d' k i r.2.2 (d'.dropLine e l r.1) r.2.1
    (decide (e.desc.segLines 0 ≤ l + 1) && (e.st = .accepted || e.st = .staged)) (decide (e.desc.length ≤ l + 1))
  have hz : z = Dev.screenLine k d := rfl
  unfold Dev.screenLine at hz
  simp only [hcur] at hz
  rw [if_neg (by simpa using hlanes)] at hz
  clear_value z
  subst hz
  refine ⟨zentry.trans ?_, fun j hj => (zother j hj).trans (hother j hj), zsats, zcur.trans ?_,
    frame_imp_scr_trans (shedFallback_frame d i) zframe⟩
  · simp only [Bool.and_eq_true, Bool.or_eq_true, decide_eq_true_eq]
    rfl
  · simp only [decide_eq_true_eq, d', hsame, hcur]

/-! ### ATTEMPT_BOUNDARY -/

theorem attemptBoundary_stays {d : Dev} {k : Nat} (h : (d.sst k).cur ≠ none ∨ d.nextAttempt k = none) :
    d.attemptBoundary k = d := by
  unfold Dev.attemptBoundary
  by_cases hcur : (d.sst k).cur = none
  · have hnext := h.resolve_left fun hne => hne hcur
    rw [hcur, hnext]
    rfl
  · rw [if_pos (Option.isSome_iff_ne_none.mpr hcur)]

/-- The boundary of the next attempt: pending tables are adopted, the degradations are chosen, its lines are empty (R288,
R320, R298). -/
theorem attemptBoundary_spec {d : Dev} {k i : Nat} (hcur : (d.sst k).cur = none) (hnext : d.nextAttempt k = some i) :
    let z := d.attemptBoundary k
    let x := d.sst k
    let g := (d.adopt k).chooseSet (d.entry i)
    z.entry i = { d.entry i with
      degThresh := g.thresh, degReduce := g.reduce, shedFallback := false, lines := []
      carry := List.replicate (d.nst k).width 0 } ∧
    (∀ j, j ≠ i → z.entry j = d.entry j) ∧
    z.sst k = { x with
      tone := (match x.tonePend with | some y => some y | none => x.tone)
      tonePend := none, density := x.densityPend.getD x.density, densityPend := none
      curCross := x.phaseCross, curWeb := x.phaseWeb, curStatus := (d.nst k).statusNext
      curShift := (d.nst k).shiftScreen, cur := some i
      degraded := if g.thresh || g.reduce then satInc 32 x.degraded else x.degraded } ∧
    z = { d with imp := z.imp, scr := z.scr } := by
  extract_lets z x g
  obtain ⟨hsst, hframe⟩ := adopt_spec d k
  have hentry : ∀ j, (d.adopt k).entry j = d.entry j := fun j => by rw [hframe]; rfl
  have hnst : (d.adopt k).nst k = d.nst k := by rw [hframe]; rfl
  have hz : z = Dev.attemptBoundary k d := rfl
  unfold Dev.attemptBoundary at hz
  simp only [hcur, hnext, Option.isSome_none, Bool.false_eq_true, if_false, hentry, hnst] at hz
  clear_value z
  subst hz
  refine ⟨?_, fun j hj => ?_, ?_, ?_⟩
  · rw [modSst_entry, Dev.entry_modEntry, hentry]
  · rw [modSst_entry, Dev.entry_modEntry_ne _ _ _ _ hj, hentry]
  · have hsst' : ∀ f : Entry → Entry, ((d.adopt k).modEntry i f).sst k = (d.adopt k).sst k := fun _ => rfl
    rw [Dev.sst_modSst, hsst']
    exact congrArg (fun y : ScrStream => { y with
      cur := some i, degraded := if g.thresh || g.reduce then satInc 32 y.degraded else y.degraded }) hsst
  · rw [hframe]
    rfl

/-! ### SCR_CAPACITY_UPDATE -/

/-- The measured rates of a stream, 0 without lanes (R887); the regulator's hold may end. -/
theorem capacityUpdate_spec (d : Dev) (k a b : Nat) :
    let z := d.capacityUpdate k a b
    z.sst k = { d.sst k with
      capDiff := if d.lanes k = 0 then 0 else a % 2 ^ 16, capThresh := if d.lanes k = 0 then 0 else b % 2 ^ 16 } ∧
    (∀ j, j ≠ k → z.sst j = d.sst j) ∧ z = { d with sched := z.sched, scr := z.scr } := by
  extract_lets z
  have hz : z = Dev.capacityUpdate k a b d := rfl
  unfold Dev.capacityUpdate at hz
  extract_lets on c d' at hz
  have hd' : d' = { d with sched := d'.sched } := by
    simp only [d']
    split <;> rfl
  have hon : on = !decide (d.lanes k = 0) := rfl
  clear_value z d' on
  subst hz
  refine ⟨?_, fun j hj => ?_, ?_⟩
  · rw [Dev.sst_modSst, hd', hon]
    by_cases hl : d.lanes k = 0 <;> simp only [hl, decide_true, decide_false, Bool.not_true, Bool.not_false] <;> rfl
  · rw [Dev.sst_modSst_ne _ _ _ _ hj, hd']
    rfl
  · rw [hd']
    rfl

/-- Settles O50, event by event. -/
theorem screeningEventsScreenLinesAndAdoptTables : Obligations.ScreeningEventsScreenLinesAndAdoptTables := by
  unfold Obligations.ScreeningEventsScreenLinesAndAdoptTables
  intro s k hs
  refine ⟨fun hon => ⟨fun h => inDomain_stay hon hs (screenLine_idle h), fun i hcur =>
    ⟨fun hl => inDomain_stay hon hs (screenLine_no_lanes hcur hl), fun hl => ?_⟩,
    fun h => inDomain_stay hon hs (attemptBoundary_stays h), fun i hcur hnext => ?_, fun a b => ?_⟩,
    fun hon v => inDomain_next hon hs⟩
  · obtain ⟨hentry, hother, hsats, hcur', hframe⟩ := screenLine_spec hcur hl
    exact ⟨_, inDomain_next hon (by rw [hframe]; exact hs), hentry, hother, hsats, hcur',
      congrArg (fun d => ({ s with dev := d } : State)) hframe⟩
  · obtain ⟨hentry, hother, hsst, hframe⟩ := attemptBoundary_spec hcur hnext
    exact ⟨_, inDomain_next hon (by rw [hframe]; exact hs), hentry, hother, hsst,
      congrArg (fun d => ({ s with dev := d } : State)) hframe⟩
  · obtain ⟨hsst, hother, hframe⟩ := capacityUpdate_spec s.dev k a b
    exact ⟨_, inDomain_next hon (by rw [hframe]; exact hs), hsst, hother,
      congrArg (fun d => ({ s with dev := d } : State)) hframe⟩

end Sys2Proof.Proofs
end

section
/-! The checkpoint ring: records programmed, sectors erased, and the scan (spec chapter 2). -/

namespace Sys2Proof.Proofs

open Sys2Proof.Machine Sys2Proof.Laws

/-! ### The end of programming a record -/

theorem recordEnds_not_ready {s : State} (ok : Bool) (h : s.recordReady = false) : s.recordEnds ok = s := by
  unfold State.recordEnds
  rw [h]
  rfl

theorem recordEnds_ready {s : State} (ok : Bool) (h : s.recordReady = true) :
    s.recordEnds ok = if ok then s.recordDone else s.onDev Dev.recordFails := by
  unfold State.recordEnds
  rw [if_pos h]

/-- d' differs from d in the rings, the trace, the imprint unit and the screening unit, and keeps the waiting records, the
ring and the write point. -/
structure KeepsRecords (d d' : Dev) : Prop where
  frame : d' = { Dev.ringed d d' with imp := d'.imp, scr := d'.scr }
  jobs : d'.imp.jobs = d.imp.jobs
  ring : d'.imp.ring = d.imp.ring
  written : d'.imp.written = d.imp.written

theorem KeepsRecords.refl (d : Dev) : KeepsRecords d d := ⟨rfl, rfl, rfl, rfl⟩

theorem KeepsRecords.trans {a b c : Dev} (h : KeepsRecords a b) (k : KeepsRecords b c) : KeepsRecords a c :=
  ⟨frame_trans h.frame k.frame, k.jobs.trans h.jobs, k.ring.trans h.ring, k.written.trans h.written⟩

theorem keepsRecords_of_repStep {d d' : Dev} (h : RepStep d d') : KeepsRecords d d' := by
  have hdev := h.dev
  exact ⟨hdev.trans (by rw [hdev]; rfl), by rw [hdev], by rw [hdev], by rw [hdev]⟩

/-- A cancelled imprint whose record no longer waits leaves the waiting records as they are. -/
theorem keepsRecords_cancel {d : Dev} {i : Nat} (h : (d.entry i).unresolved = false) (r : Nat) :
    KeepsRecords d (d.cancel i r) := by
  obtain ⟨-, -, -, hframe, -, -, -, -, hjobs, hring, hwritten⟩ := cancel_spec d i r
  exact ⟨hframe, hjobs h, hring, hwritten⟩

/-- Where the record of R82 is programmed its imprint is resolved first, so that a cancellation adds no report to a record
that waits (R83). -/
theorem keepsRecords_resolved (j : CkptJob) (d : Dev) : KeepsRecords d (d.resolved j) := by
  unfold Dev.resolved
  split
  case h_1 => exact .refl d
  case h_2 i _ =>
    extract_lets e d1
    have h1 : KeepsRecords d d1 := ⟨rfl, rfl, rfl, rfl⟩
    have hres : (d1.entry i).unresolved = false := congrArg Entry.unresolved (Dev.entry_modEntry ..)
    split
    · split
      · exact h1.trans (keepsRecords_cancel hres 0x21)
      · exact h1
    · exact .refl d

theorem keepsRecords_updCkptFull (n : Nat) (d : Dev) : KeepsRecords d (d.updCkptFull n) := ⟨rfl, rfl, rfl, rfl⟩

/-- The device with record r in the ring, at the write point, and taken off the records that wait. -/
def recorded (r : CkptRec) (rest : List CkptJob) (d : Dev) : Dev :=
  { d with imp := { d.imp with jobs := rest, ring := r :: d.imp.ring, written := d.imp.written + 1 } }

/-- The oldest waiting record, with its lap (R70). -/
def lapped (s : State) (j : CkptJob) : CkptRec :=
  { j.record with lap := s.dev.imp.written / (256 * s.mem.ckptSectors) % 256 }

/-- The record is programmed at the write point; what follows keeps the ring and the records that wait (R65, R67). -/
theorem recordDone_spec {s : State} {j : CkptJob} {rest : List CkptJob} (h : s.dev.imp.jobs = j :: rest) :
    s.recordDone.mem = s.mem.program (s.mem.ckptRegion.1 + 16 * (s.dev.imp.written % (256 * s.mem.ckptSectors)))
      (lapped s j).bytes ∧
    s.recordDone.pending = s.pending ∧
    KeepsRecords (recorded (lapped s j) rest s.dev) s.recordDone.dev := by
  unfold State.recordDone
  dsimp only
  rw [h]
  refine ⟨rfl, rfl, ?_⟩
  refine .trans ?_ (keepsRecords_updCkptFull _ _)
  refine .trans ?_ (keepsRecords_resolved j _)
  exact keepsRecords_of_repStep ((repStep_send _ _).trans (repStep_forL _ _ repStep_dueReport _))

/-- A record programmed in order (R67, R70). -/
theorem ckptRecordProgrammed_goes {s : State} (hs : Settled s) (hon : s.dev.on 0 = true) (hready : s.recordReady = true)
    {j : CkptJob} {rest : List CkptJob} (hj : s.dev.imp.jobs = j :: rest) : Goes (.ckptRecordProgrammed true) s fun t =>
      t.mem = s.mem.program (s.mem.ckptRegion.1 + 16 * (s.dev.imp.written % (256 * s.mem.ckptSectors)))
        (lapped s j).bytes ∧
      t.dev.imp.ring = lapped s j :: s.dev.imp.ring ∧ t.dev.imp.written = s.dev.imp.written + 1 ∧
      t.dev.imp.jobs = rest ∧ t.pending = s.pending ∧
      t.dev = { Dev.ringed s.dev t.dev with imp := t.dev.imp, scr := t.dev.scr } := by
  obtain ⟨hmem, hpending, hkeeps⟩ := recordDone_spec hj
  have hframe : s.recordDone.dev = _ := frame_trans (d := s.dev) (by rfl) hkeeps.frame
  have hsettled : Settled s.recordDone := by
    show s.recordDone.dev.flt.todo = []
    rw [hframe]
    exact hs
  exact ⟨_, inDomainS_run hon (recordEnds_ready true hready) hsettled, hmem, hkeeps.ring, hkeeps.written, hkeeps.jobs,
    hpending, hframe⟩

/-- A record that fails stops checkpointing and raises source 15 (R807, R87). -/
theorem ckptRecordProgrammed_fails {s : State} (hon : s.dev.on 0 = true) (hready : s.recordReady = true) :
    exec (.ckptRecordProgrammed false) s =
      .next (State.settle (s.onDev fun d => { d with imp := { d.imp with ckptFail := true } }.raise 15 0)) := by
  show inDomainS 0 (State.recordEnds false) s = _
  rw [inDomainS_next hon, recordEnds_ready false hready]
  rfl

/-! ### The end of an erase -/

theorem ckptSectorErased_stays {s : State} (hs : Settled s) (hon : s.dev.on 0 = true)
    (h : (s.dev.imp.scanDone && s.dev.imp.eraseDue s.mem.ckptSectors && !s.dev.sectorHeld s.mem.ckptSectors) = false) :
    exec .ckptSectorErased s = .next s := by
  refine inDomainS_run hon ?_ hs
  unfold State.sectorErased
  dsimp only
  rw [h]
  rfl

/-- The erase of a sector that is due and holds no live imprint's record (R72). -/
theorem ckptSectorErased_goes {s : State} (hs : Settled s) (hon : s.dev.on 0 = true)
    (h : (s.dev.imp.scanDone && s.dev.imp.eraseDue s.mem.ckptSectors && !s.dev.sectorHeld s.mem.ckptSectors) = true) :
    Goes .ckptSectorErased s fun t =>
      let x := s.dev.imp
      let n := s.mem.ckptSectors
      let k := x.nextSector n
      let a := s.mem.ckptRegion.1 + 4096 * (k % n)
      t.mem.sram = s.mem.sram ∧
      (∀ b, Memory.read flashDefault t.mem.flash b =
        if a ≤ b ∧ b < a + 4096 then flashDefault else Memory.read flashDefault s.mem.flash b) ∧
      t.dev.imp.ring = x.ring.take (x.written - 256 * (k + 1 - n)) ∧ t.dev.imp.erased = k + 1 ∧ t.dev.imp.ckptFull = false ∧
      Tab.get 0 t.dev.imp.erases (k % n) = Tab.get 0 x.erases (k % n) + 1 ∧
      t.pending = s.pending ∧ t.dev = { s.dev with imp := t.dev.imp, out := t.dev.out } := by
  have hnext : State.sectorErased s = _ := if_pos h
  exact ⟨_, inDomainS_run hon hnext hs, rfl, fun b => Memory.read_clear _ _ _ b, rfl, rfl, rfl, Tab.get_set_same .., rfl, rfl⟩

/-! ### The end of the scan -/

/-- A change of each of the first n streams. -/
theorem forN_modIst_at (n : Nat) (f : Nat → ImpStream → ImpStream) (d : Dev) (k : Nat) :
    (forN n (fun i d => d.modIst i (f i)) d).ist k = if k < n then f k (d.ist k) else d.ist k := by
  induction n with
  | zero => rfl
  | succ n ih =>
    rw [forN_succ]
    by_cases hk : k = n
    · subst hk
      rw [Dev.ist_modIst, ih, if_neg (Nat.lt_irrefl k), if_pos (Nat.lt_succ_self k)]
    · rw [Dev.ist_modIst_ne _ _ _ _ hk, ih]
      exact if_congr (by omega) rfl rfl

/-- The device at the end of its scan, before the commands that waited for it execute (R64, R80). -/
def scanOver (d : Dev) : Dev :=
  forN 4 (fun k e => e.modIst k (fun t => { t with nextAccept := nextAcceptOf d.imp.ring k }))
    { d with imp := { d.imp with
        scanning := false, scanDone := true, scanned := d.imp.ring, orderly := d.imp.ring.head?.any (fun r => r.event = 3) } }

theorem scanOver_ist (d : Dev) {k : Nat} (h : k < 4) :
    (scanOver d).ist k = { d.ist k with nextAccept := nextAcceptOf d.imp.ring k } :=
  (forN_modIst_at 4 _ _ k).trans (if_pos h)

theorem scanEnd_idle {d : Dev} (h : d.imp.scanning = false) : d.scanEnd = d := by
  unfold Dev.scanEnd
  rw [h]
  rfl

theorem scanEnd_runs {d : Dev} (h : d.imp.scanning = true) : d.scanEnd =
    forL (d.rings.inflight.filter (fun p => p.phase = .executing && (p.op = 0x0200 || p.op = 0x0205))) Dev.afterScan
      (scanOver d) := by
  unfold Dev.scanEnd
  rw [h]
  rfl

/-- Settles O49: programming, erase and scan. -/
theorem checkpointRecordsAreProgrammedErasedAndScanned : Obligations.CheckpointRecordsAreProgrammedErasedAndScanned := by
  unfold Obligations.CheckpointRecordsAreProgrammedErasedAndScanned
  intro s hs hon x n
  exact ⟨fun ok hno => inDomainS_run hon (recordEnds_not_ready ok hno) hs,
    fun hready => ⟨ckptRecordProgrammed_fails hon hready, fun _ _ hj => ckptRecordProgrammed_goes hs hon hready hj⟩,
    ckptSectorErased_stays hs hon, ckptSectorErased_goes hs hon,
    fun hidle => inDomain_stay hon hs (scanEnd_idle hidle),
    fun hscan => ⟨scanOver s.dev, rfl, rfl, rfl, rfl, fun _ hk => scanOver_ist s.dev hk, rfl,
      inDomain_post hon (scanEnd_runs hscan)⟩⟩

end Sys2Proof.Proofs
end

section
/-! IRQ_n and its mask (spec chapter 3, R168). -/

namespace Sys2Proof.Proofs

open Sys2Proof.Machine Sys2Proof.Laws

theorem irqAsserted_iff (d : Dev) :
    d.irqAsserted = true ↔ ∃ v, d.sys.irqPending.testBit v = true ∧ d.sys.irqMask.testBit v = true := by
  unfold Dev.irqAsserted
  rw [Bool.not_eq_true', decide_eq_false_iff_not]
  constructor
  · intro h
    obtain ⟨v, hv⟩ := Nat.exists_testBit_of_ne_zero h
    rw [Nat.testBit_and, Bool.and_eq_true] at hv
    exact ⟨v, hv⟩
  · rintro ⟨v, hp, hm⟩ h
    have hv : (d.sys.irqPending &&& d.sys.irqMask).testBit v = true := by rw [Nat.testBit_and, hp, hm]; rfl
    rw [h, Nat.zero_testBit] at hv
    exact Bool.false_ne_true hv

/-- Two words packed into one number of 64 bits. -/
theorem word_zero_pack {a : Nat} (h : a < 2 ^ 32) (b : Nat) : word 0 (a + 2 ^ 32 * b) = a := by
  unfold word bits
  omega

theorem word_one_pack {a b : Nat} (ha : a < 2 ^ 32) (hb : b < 2 ^ 32) : word 1 (a + 2 ^ 32 * b) = b := by
  unfold word bits
  omega

theorem word_zero (x : Nat) : word 0 x = x % 2 ^ 32 := by
  unfold word bits
  omega

theorem word_one (x : Nat) : word 1 x = x / 2 ^ 32 % 2 ^ 32 := rfl

/-- A write of an aligned register of the SYS block by BAR0 or a command; the table aperture lies above 0x6000. -/
theorem writeBy_sys {s : State} {path : Path} {a : Nat} (hon : s.dev.sys.powered = true) (hpath : path ≠ .mspi)
    (halign : a % 4 = 0) (ha : a < 0x6000) (v : Nat) : s.writeBy path a v = s.onDev (Dev.writeSys a v) := by
  have hblock : a / 65536 = 0 := by omega
  have hoff : a % 65536 = a := by omega
  have hregOn : s.dev.regOn a = true := by unfold Dev.regOn; simp [hblock, hon]
  unfold State.writeBy State.regStore
  simp [halign, hpath, hregOn, hblock, hoff, show ¬ 0x6000 ≤ a by omega]

/-- A read of a register of the SYS block that is no latched high word. -/
theorem regValue_sys {s : State} {a : Nat} (hon : s.dev.sys.powered = true) (ha : a < 0x6000)
    (hlatch : latchesHigh (a - 4) = false) : s.regValue a = s.dev.readSys a := by
  have hblock : a / 65536 = 0 := by omega
  have hoff : a % 65536 = a := by omega
  have hregOn : s.dev.regOn a = true := by unfold Dev.regOn; simp [hblock, hon]
  unfold State.regValue State.regLive
  simp [hregOn, hlatch, hblock, hoff, show ¬ 0x6000 ≤ a by omega]

/-- A write of a register of the SYS block, with the value that the register then reads. -/
theorem registerWrite_sys {s : State} {path : Path} {a : Nat} {v : BitVec 32} {x : Sys} {y : Nat} (hs : Settled s)
    (hon : s.dev.sys.powered = true) (hpath : path ≠ .mspi) (halign : a % 4 = 0) (ha : a < 0x6000)
    (hlatch : latchesHigh (a - 4) = false) (hx : Dev.writeSys a v.toNat s.dev = { s.dev with sys := x })
    (hpower : x.powered = true) (hread : Dev.readSys { s.dev with sys := x } a = y) :
    Goes (.registerWrite path a v) s fun t => t.regValue a = y ∧ Only { s.dev with sys := x } s t := by
  refine ⟨{ s with dev := { s.dev with sys := x } }, bus_to hon ?_ hs, (regValue_sys hpower ha hlatch).trans hread, rfl⟩
  rw [writeBy_sys hon hpath halign ha, State.onDev, hx]

/-- A warm reset that takes place clears the mask (R168). -/
theorem warmReset_irqMask {c : Nat} {d : Dev} (hstop : d.sched.stopping = false) (hdown : d.goingDown = false)
    (hstage : d.sys.stage = .operational ∨ d.sys.stage = .fwInit ∨ d.sys.stage = .saddle ∨ d.sys.stage = .noImage) :
    (d.warmReset c).sys.irqMask = 0 := by
  unfold Dev.warmReset
  dsimp only
  rw [if_neg]
  · exact when_mask _ _ (warmSys_mask c _)
  · rcases hstage with h | h | h | h <;> simp [hstop, hdown, h]

/-- Settles O8: a bit of a bitwise and, the two halves of the mask as registers, and the resets. -/
theorem irqPinFollowsPendingAndMask : Obligations.IrqPinFollowsPendingAndMask := by
  unfold Obligations.IrqPinFollowsPendingAndMask
  refine ⟨irqAsserted_iff, fun s path v hon hpath hs => ?_, rfl, fun s => ⟨_, rfl, ?_⟩,
    fun _ _ hstop hdown hstage => warmReset_irqMask hstop hdown hstage⟩
  · extract_lets lo hi
    exact ⟨registerWrite_sys hs hon hpath rfl (by decide) rfl rfl hon (word_zero_pack v.isLt _),
      registerWrite_sys hs hon hpath rfl (by decide) rfl
        (by rw [← show word 0 s.dev.sys.irqMask = lo from word_zero _]; rfl) hon
        (word_one_pack (Nat.mod_lt _ (by decide)) v.isLt)⟩
  · obtain ⟨-, -, -, -, -, -, -, -, -, -, -, -, hmask⟩ := coldBoot_units 1 s
    exact hmask

end Sys2Proof.Proofs
end

section
/-! The values of the units at power-on (spec chapters 3, 8 to 12 and 14). -/

namespace Sys2Proof.Proofs

open Sys2Proof.Machine Sys2Proof.Laws

/-! Every element of a unit at reset is the table's default, as a table at reset lists none. -/

theorem tb_of_reset {d : Dev} (h : d.time = Time.reset) (k : Nat) : d.tb k = Tb.resetOf k := by
  unfold Dev.tb; rw [h]; rfl

theorem hp_of_reset {d : Dev} (h : d.hl.ports = []) (p : Nat) : d.hp p = HlPort.reset := by
  unfold Dev.hp; rw [h]; rfl

theorem pmodel_of_reset {d : Dev} {n : Nat} (h : d.sched = { Sched.reset with stage := n }) (p : Nat) :
    d.pmodel p = PortModel.reset := by
  unfold Dev.pmodel; rw [h]; rfl

theorem zone_of_reset {d : Dev} {n : Nat} (h : d.sched = { Sched.reset with stage := n }) (z : Nat) :
    d.zone z = ZoneModel.reset := by
  unfold Dev.zone; rw [h]; rfl

theorem axis_of_reset {d : Dev} (h : d.mot = Mot.reset) (a : Nat) : d.axis a = Axis.reset := by
  unfold Dev.axis; rw [h]; rfl

/-- Settles O6: in either state the units hold their reset values, whatever the shedding stage. -/
theorem powerOnLeavesTheStatedValues : Obligations.PowerOnLeavesTheStatedValues := by
  unfold Obligations.PowerOnLeavesTheStatedValues
  intro P
  have hP : ∀ (d : Dev) (n : Nat), d.time = Time.reset → d.fire = Fire.reset → d.hl.ports = [] →
      d.sched = { Sched.reset with stage := n } → d.mot = Mot.reset → d.ddr = Ddr.reset → P d := by
    intro d n htime hfire hports hsched hmot hddr
    simp only [P, tb_of_reset htime, hp_of_reset hports, pmodel_of_reset hsched, zone_of_reset hsched, axis_of_reset hmot,
      htime, hfire, hsched, hddr]
    refine ⟨⟨rfl, fun _ => ?_⟩, ?_, fun _ => ?_, ?_, fun _ => ?_, fun _ => rfl, fun _ => ?_, ?_⟩ <;>
      (repeat' apply And.intro) <;> rfl
  refine ⟨hP _ 0 rfl rfl rfl rfl rfl rfl, fun s => ⟨_, rfl, ?_⟩, rfl, rfl, rfl, rfl⟩
  obtain ⟨-, -, -, -, hfire, htime, hmot, -, hddr, -, hhl, hsched, -⟩ := coldBoot_units 1 s
  exact hP _ _ htime hfire (by rw [hhl]; rfl) hsched hmot hddr

end Sys2Proof.Proofs
end

section
/-! SYS_NOP, SYS_INFO, SYS_SET_ADDR, SYS_TRIG_CANCEL and barriers (spec chapter 3). -/

namespace Sys2Proof.Proofs

open Sys2Proof.Machine Sys2Proof.Laws

/-- A completion posts nothing. -/
theorem complete_todo {d : Dev} (h : d.flt.todo = []) (ref : PktRef) (st : Status) (result aux : Nat) :
    (d.complete ref st result aux).flt.todo = [] := (congrArg Flt.todo (complete_flt ..)).trans h

/-- A row that only answers: its packet completes, and nothing else changes. -/
theorem row_answers {op : Nat} {p : Packet} {s : State} (h : Ready op p s) {chk : Packet → Dev → Option Status}
    (hc : chk p s.dev = none) {f : Packet → Dev → Dev} {st : Status} {result aux : Nat}
    (hf : f p s.dev = s.dev.complete p.ref st result aux) :
    ∃ t, opRow op chk (onPkt f) p.ring p.seq s = .next t ∧ Completed p st result aux s t ∧
      Only (Dev.ringed s.dev t.dev) s t := by
  obtain ⟨hnext, hcompleted⟩ := does_of h hc s.dev st result aux hf rfl (pre := []) rfl h.1
  exact ⟨_, hnext, hcompleted, only_of ..⟩

/-! ### SYS_SET_ADDR and SYS_TRIG_CANCEL -/

theorem runSysSetAddr_own {p : Packet} (h : p.fld 0 0 64 = Config.sysUid % 2 ^ 64) (d : Dev) :
    runSysSetAddr p d =
      ({ d with sys := { d.sys with addr := p.fld 8 0 12, addrValid := true } }).complete p.ref .done 0 0 := if_pos h

theorem runSysSetAddr_other {p : Packet} (h : p.fld 0 0 64 ≠ Config.sysUid % 2 ^ 64) (d : Dev) :
    runSysSetAddr p d = d.complete p.ref .doneEmpty 0 0 := if_neg h

/-- SYS_SET_ADDR with this device's identity stores the address (R119, R143). -/
theorem sysSetAddr_own {s : State} {p : Packet} (h : Ready 0x0003 p s) (hc : chkSysSetAddr p s.dev = none)
    (hid : p.fld 0 0 64 = Config.sysUid % 2 ^ 64) : Does (.sysSetAddr p.ring p.seq) p .done 0 0 s fun t =>
      Only (Dev.ringed { s.dev with sys := { s.dev.sys with addr := p.fld 8 0 12, addrValid := true } } t.dev) s t := by
  obtain ⟨hnext, hcompleted⟩ := does_of h hc _ .done 0 0 (runSysSetAddr_own hid s.dev) rfl (pre := []) rfl h.1
  exact ⟨_, hnext, hcompleted, only_of ..⟩

/-- SYS_TRIG_CANCEL completes the parked packet it names, then itself (R120). -/
theorem sysTrigCancel_next {s : State} {p : Packet} (h : Ready 0x0004 p s) (hc : chkSysTrigCancel p s.dev = none) :
    exec (.sysTrigCancel p.ring p.seq) s = .next (s.onDev fun d =>
      (d.complete (p.fld 0 0 8, p.fld 4 0 32) .aborted 0 0).complete p.ref .done 0 0) :=
  opRow_done h hc rfl (complete_todo (complete_todo h.1 ..) ..)

/-! ### Barriers -/

theorem runSysBarrier_late {p : Packet} {d : Dev}
    (h : ((before p.ref d.rings.inflight).any fun q => q.ring = p.ring) = true) : runSysBarrier p d = d := if_pos h

/-- Every ring of the packet's mask has a packet among these that wait with its identity. -/
def allThere (p : Packet) (l : List Packet) : Bool :=
  (List.range 256).all fun n => !p.ringMask.testBit n || l.any fun q => q.ring = n

/-- The device with the barrier packet p waiting. -/
def atBarrier (p : Packet) (d : Dev) : Dev := d.modPacket p.ref fun q => { q with phase := .barrier }

theorem runSysBarrier_first {p : Packet} {d : Dev}
    (h : ((before p.ref d.rings.inflight).any fun q => q.ring = p.ring) = false) :
    runSysBarrier p d = if allThere p ((atBarrier p d).waitingAt p.barrierId) = true then
      (atBarrier p d).completeAll (((atBarrier p d).waitingAt p.barrierId).map Packet.ref) .done else atBarrier p d :=
  if_neg (by simp [h])

/-- BARRIER_TIMEOUT of a packet that waits at a barrier (R123). -/
theorem barrierTimeout_waits {d : Dev} {ref : PktRef} (h : (d.packet? ref).any (fun p => p.phase = .barrier) = true) :
    d.barrierTimeout ref = d.complete ref .timeout 0 0 := if_pos h

theorem barrierTimeout_idle {d : Dev} {ref : PktRef} (h : (d.packet? ref).any (fun p => p.phase = .barrier) = false) :
    d.barrierTimeout ref = d := if_neg (by simp [h])

/-- Settles O22, row by row. -/
theorem systemPacketsAndBarriersCompleteAsTheSpecSays : Obligations.SystemPacketsAndBarriersCompleteAsTheSpecSays := by
  unfold Obligations.SystemPacketsAndBarriersCompleteAsTheSpecSays
  refine fun s p => ⟨fun h => row_answers h rfl rfl, fun h => row_answers h rfl rfl,
    fun h hc => ⟨sysSetAddr_own h hc, fun hid => row_answers h hc (runSysSetAddr_other hid s.dev)⟩, sysTrigCancel_next,
    fun h hc => ?_, fun hs hrun r q => ?_⟩
  · extract_lets late d l all
    refine ⟨fun hlate => opRow_done (g := id) h hc (runSysBarrier_late hlate) h.1,
      fun hlate hall => opRow_done (g := atBarrier p) h hc ((runSysBarrier_first hlate).trans (if_neg ?_)) h.1,
      fun hlate hall => opRow_done (g := fun _ => d.completeAll (l.map Packet.ref) .done) h hc
        ((runSysBarrier_first hlate).trans (if_pos hall)) ?_⟩
    · exact Bool.not_eq_true _ ▸ hall
    · rw [completeAll_flt]
      exact h.1
  · extract_lets waits
    exact ⟨fun hno => ringEv_stay hrun hs (barrierTimeout_idle hno),
      fun hwaits => ringEv hrun (barrierTimeout_waits hwaits) (complete_todo hs ..)⟩

end Sys2Proof.Proofs
end

section
/-! The REG opcodes and the events of a poll (spec chapter 3). -/

namespace Sys2Proof.Proofs

open Sys2Proof.Machine Sys2Proof.Laws

/-- No row of checks fails. -/
theorem firstFail_none_iff (l : List (Bool × Status)) : firstFail l = none ↔ ∀ e ∈ l, e.1 = false := by
  induction l with
  | nil => simp [firstFail]
  | cons e l ih =>
    obtain ⟨c, st⟩ := e
    cases c <;> simp [firstFail, ih]

/-! ### REG_READ -/

/-- A COUNT that passes the checks is 1 or 2 (R125). -/
theorem regRead_count {p : Packet} {d : Dev} (h : chkRegRead p d = none) : p.fld 4 0 16 = 1 ∨ p.fld 4 0 16 = 2 := by
  have hrows := (firstFail_none_iff _).mp h
  have hne := hrows (decide (p.fld 4 0 16 = 0), .doneEmpty) (by simp)
  have hle := hrows (decide (2 < p.fld 4 0 16), .badField) (by simp)
  simp only [decide_eq_false_iff_not] at hne hle
  omega

theorem runRegRead_one {p : Packet} (h : p.fld 4 0 16 = 1) (s : State) :
    runRegRead p s = (s.regRead p.offset).onDev (Dev.complete p.ref .done (s.regValue p.offset) 0) := by
  unfold runRegRead
  rw [h]
  rfl

theorem runRegRead_two {p : Packet} (h : p.fld 4 0 16 = 2) (s : State) :
    runRegRead p s = ((s.regRead p.offset).regRead (p.offset + 4)).onDev
      (Dev.complete p.ref .done (s.regValue p.offset + 2 ^ 32 * (s.regRead p.offset).regValue (p.offset + 4)) 0) := by
  unfold runRegRead
  rw [h]
  rfl

/-! ### Polls -/

/-- REG_POLL sets its packet polling (R127). -/
theorem regPoll_next {s : State} {p : Packet} (h : Ready 0x0103 p s) (hc : chkRegPoll p s.dev = none) :
    exec (.regPoll p.ring p.seq) s = .next (s.onDev (runRegPoll p)) :=
  opRow_done (chk := chkRegPoll) (f := runRegPoll) h hc rfl h.1

theorem regPollRead_next {s : State} (hrun : s.dev.ringsRun = true) (r q : Nat) :
    exec (.regPollRead r q) s = .next (s.pollRead (r, q)).settle := if_pos hrun

/-- A read or a time-out of a packet that does not poll does nothing (R127). -/
theorem pollRead_idle {s : State} {ref : PktRef} (h : ∀ x, s.dev.packet? ref = some x → x.phase ≠ .polling) :
    s.pollRead ref = s := by
  unfold State.pollRead
  split
  case h_1 => rfl
  case h_2 x hx => exact if_pos (by simp [h x hx])

theorem pollTimeout_idle {d : Dev} {ref : PktRef} (h : ∀ x, d.packet? ref = some x → x.phase ≠ .polling) :
    d.pollTimeout ref = d := by
  unfold Dev.pollTimeout
  split
  case h_1 => rfl
  case h_2 x hx => exact if_neg (h x hx)

theorem pollEvents_idle {s : State} (hs : Settled s) (hrun : s.dev.ringsRun = true) {r q : Nat}
    (h : ∀ x, s.dev.packet? (r, q) = some x → x.phase ≠ .polling) :
    exec (.regPollRead r q) s = .next s ∧ exec (.regPollTimeout r q) s = .next s := by
  refine ⟨?_, ringEv_stay hrun hs (pollTimeout_idle h)⟩
  rw [regPollRead_next hrun, pollRead_idle h, settle_of_settled hs]

/-- A read of a poll either completes it or keeps the value (R127). -/
theorem pollRead_polling {s : State} {ref : PktRef} {x : Packet} (hx : s.dev.packet? ref = some x)
    (hp : x.phase = .polling) : s.pollRead ref = if s.regValue x.offset &&& x.fld 4 0 32 = x.fld 8 0 32
      then (s.regRead x.offset).onDev (Dev.complete ref .done (s.regValue x.offset) 0)
      else (s.regRead x.offset).onDev (Dev.modPacket ref fun y => { y with pollLast := s.regValue x.offset }) := by
  unfold State.pollRead
  rw [hx]
  exact if_neg (by simp [hp])

theorem pollTimeout_polling {d : Dev} {ref : PktRef} {x : Packet} (hx : d.packet? ref = some x) (hp : x.phase = .polling) :
    d.pollTimeout ref = d.complete ref .timeout x.pollLast 0 := by
  unfold Dev.pollTimeout
  rw [hx]
  exact if_pos hp

/-- Settles O19, row by row; a poll reads first at its own event (log entry 78). -/
theorem regCommandsAccessRegistersAndTables : Obligations.RegCommandsAccessRegistersAndTables := by
  unfold Obligations.RegCommandsAccessRegistersAndTables
  refine fun s p => ⟨fun h hc => ⟨fun hone => ?_, fun htwo => ?_, regRead_count hc⟩, fun h hc => opRow_run h hc,
    fun h hc => opRow_run h hc, regPoll_next, fun hs hrun r q => ⟨fun hnone => ?_, fun x hx => ?_⟩,
    fun h hc => opRow_run h hc, fun h hc => opRow_to (run := runRegTableRead) h hc rfl (complete_todo (by exact h.1) ..)⟩
  · rw [← runRegRead_one hone]
    exact opRow_run h hc
  · extract_lets u
    rw [← runRegRead_two htwo]
    exact opRow_run h hc
  · exact pollEvents_idle hs hrun (by simp [hnone])
  · extract_lets v
    have hread : x.phase = .polling → _ := fun hp => (regPollRead_next hrun r q).trans
      (congrArg (fun t => Host.Outcome.next t.settle) (pollRead_polling hx hp))
    refine ⟨fun hp => pollEvents_idle hs hrun (by simp [hx, hp]), fun hp hmatch => ?_, fun hp hmatch => ?_, fun hp => ?_⟩
    · rw [hread hp, if_pos hmatch]
    · rw [hread hp, if_neg hmatch]
    · exact ringEv hrun (pollTimeout_polling hx hp) (complete_todo hs ..)

end Sys2Proof.Proofs
end

section
/-! Slot fetches, the registers of the rings and those of the report queues (spec chapter 3). -/

namespace Sys2Proof.Proofs

open Sys2Proof.Machine Sys2Proof.Laws

/-- A command of the ring logic whose effect is one that completing packets may have. -/
theorem ringEv_step {f g : Dev → Dev} {s : State} (hs : Settled s) (hrun : s.dev.ringsRun = true) (hf : f s.dev = g s.dev)
    (hstep : RingStep s.dev (g s.dev)) : ringEvent f s = .next (s.onDev g) :=
  ringEv hrun hf ((todo_of_ringStep hstep).trans hs)

/-! ### Slots and indirect payloads -/

/-- May a slot of ring n be fetched now: the ring is ready, it is its turn and the turn is not over (R134)? -/
def Fetches (d : Dev) (n : Nat) : Prop := d.ringReady n = true ∧ d.turnOf n = true ∧ d.turnOver n = false

/-- The slot a fetch gets: the mailbox holds those of its own ring (R871). -/
def fetched (d : Dev) (n : Nat) (slot : Option (List Nat)) : Option (List Nat) :=
  if (d.ring n).source = 2 then some (d.sys.mbox.slot ((d.ring n).head % 16)) else slot

theorem fetchSlot_idle {d : Dev} {n : Nat} (h : ¬ Fetches d n) (slot : Option (List Nat)) : d.fetchSlot n slot = d :=
  if_pos (by_contra fun hno => h (by simpa [Fetches, and_assoc] using hno))

theorem fetchSlot_eq {d : Dev} {n : Nat} (h : Fetches d n) (slot : Option (List Nat)) :
    d.fetchSlot n slot = match fetched d n slot with
      | none => d.modRing n fun r => { r with fetchErr := true, stopped := true }
      | some b => Dev.drain n 2 ((d.modRing n fun r => { r with
          head := (r.head + 1) % 2 ^ 32, stalled := some (parsePacket n (d.ring n).source b) }).takeTurn n) := by
  obtain ⟨hready, hturn, hover⟩ := h
  unfold Dev.fetchSlot
  exact if_neg (by simp [hready, hturn, hover])

theorem fetchSlot_fails {d : Dev} {n : Nat} (h : Fetches d n) {slot : Option (List Nat)} (hno : fetched d n slot = none) :
    d.fetchSlot n slot = d.modRing n fun r => { r with fetchErr := true, stopped := true } := by
  rw [fetchSlot_eq h, hno]

theorem fetchSlot_starts {d : Dev} {n : Nat} (h : Fetches d n) {slot : Option (List Nat)} {b : List Nat}
    (hb : fetched d n slot = some b) : d.fetchSlot n slot = Dev.drain n 2 ((d.modRing n fun r => { r with
      head := (r.head + 1) % 2 ^ 32, stalled := some (parsePacket n (d.ring n).source b) }).takeTurn n) := by
  rw [fetchSlot_eq h, hb]

/-- The end of a fetch that no packet waits for. -/
theorem payloadFetched_idle {d : Dev} {ref : PktRef}
    (h : ∀ p, d.packet? ref = some p → p.phase ≠ .payload ∨ (d.ring p.ring).source ≠ 0) (data : Option (List Nat)) :
    d.payloadFetched ref data = d := by
  unfold Dev.payloadFetched
  split
  case h_1 => rfl
  case h_2 p hp => exact if_pos (by simpa using h p hp)

theorem payloadFetched_eq {d : Dev} {ref : PktRef} {p : Packet} (hp : d.packet? ref = some p) (hphase : p.phase = .payload)
    (hsource : (d.ring p.ring).source = 0) (data : Option (List Nat)) :
    d.payloadFetched ref data = match data with
      | none => d.complete ref .fetchError 0 0
      | some b => d.modPacket ref fun p => { p with
          phase := .started, payload := (List.range p.indirectLen).map (fun i => b.getD i 0 % 256) } := by
  unfold Dev.payloadFetched
  rw [hp]
  exact if_neg (by simp [hphase, hsource])

/-! ### RING_CTRL -/

/-- The device with the fields of a value written to RING_CTRL, ENABLE left out (R99, R112). -/
def ctrlFields (n w : Nat) (d : Dev) : Dev :=
  (if bits w 25 1 = 1 ∧ (d.ring n).enable = false then
    d.modRing n fun r => { r with seqValid := false, window := [], windowOf := [] } else d).modRing n fun r => { r with
      log2Slots := bits w 0 5, source := bits w 6 2, priority := bits w 8 2, weight := bits w 16 8 }

theorem ringStep_ctrlFields (n w : Nat) (d : Dev) : RingStep d (ctrlFields n w d) := by
  unfold ctrlFields
  split
  · exact (ringStep_modRing ..).trans (ringStep_modRing ..)
  · exact ringStep_modRing ..

theorem ctrlFields_clears {n w : Nat} {d : Dev} (hclear : bits w 25 1 = 1) (hoff : (d.ring n).enable = false) :
    ctrlFields n w d = (d.modRing n fun r => { r with seqValid := false, window := [], windowOf := [] }).modRing n fun r =>
      { r with log2Slots := bits w 0 5, source := bits w 6 2, priority := bits w 8 2, weight := bits w 16 8 } := by
  unfold ctrlFields
  rw [if_pos ⟨hclear, hoff⟩]

theorem ringCtrlWrite_enables {n w : Nat} (h : bits w 24 1 = 1) (d : Dev) : d.ringCtrlWrite n w =
    if (d.ring n).enable = true then ctrlFields n w d
    else if ((ctrlFields n w d).ring n).configOk n = true then (ctrlFields n w d).ringOn n
    else (ctrlFields n w d).modRing n fun r => { r with configErr := true } := (ctrlWrite_eq n w d).trans (if_pos h)

theorem ringCtrlWrite_disables {n w : Nat} (h : bits w 24 1 = 0) (d : Dev) : d.ringCtrlWrite n w =
    if (d.ring n).enable = true then (ctrlFields n w d).ringOff n else ctrlFields n w d :=
  (ctrlWrite_eq n w d).trans (if_neg (by simp [h]))

/-! ### CQ_HEAD and HOLDOFF -/

theorem cqHeadWrite_eq (n v : Nat) (d : Dev) : d.cqHeadWrite n v =
    if (d.ring n).enable = true then
      Dev.drain n (2 * (d.ring n).toStart.length + 2) (d.modRing n fun r => { r with cqHead := v })
    else d.modRing n fun r => { r with cqHead := v } := by
  unfold Dev.cqHeadWrite
  simp only [Dev.ring_modRing]

theorem holdoffEnd_idle {d : Dev} {n : Nat} (h : (d.ring n).irqPendingCpl = 0) : d.holdoffEnd n = d := if_pos h

theorem holdoffEnd_sends {d : Dev} {n : Nat} (h : (d.ring n).irqPendingCpl ≠ 0) :
    d.holdoffEnd n = (d.modRing n fun r => { r with irqPendingCpl := 0 }).msix (d.ring n).irqVector := if_neg h

/-! ### Report queues -/

/-- A change of a report queue that leaves what it holds writes its records as far as it takes them (R164). -/
theorem pumpReports_modRptq {n : Nat} {f : RptQ → RptQ} {d : Dev} (hf : (f (d.rptq n)).held = (d.rptq n).held) :
    (d.modRptq n f).pumpReports n = (d.modRptq n f).flushReports n (d.rptq n).held.length := by
  unfold Dev.pumpReports
  rw [Dev.rptq_modRptq, hf]

/-- A command that changes a report queue and writes its records. -/
theorem ringEv_reports {f : Dev → Dev} {s : State} {n m : Nat} {g : RptQ → RptQ} (hs : Settled s)
    (hrun : s.dev.ringsRun = true) (hf : f s.dev = (s.dev.modRptq n g).flushReports n m) :
    ringEvent f s = .next (s.onDev fun d => (d.modRptq n g).flushReports n m) :=
  ringEv hrun hf ((((repStep_modRptq ..).trans (repStep_flushReports ..)).todo).trans hs)

/-- Settles O20, command by command; a fetch out of turn changes nothing and a ring that is disabled drops its stalled packet
(log entry 56). -/
theorem ringRegistersAndFetchesServeTheRings : Obligations.RingRegistersAndFetchesServeTheRings := by
  unfold Obligations.RingRegistersAndFetchesServeTheRings
  intro s hs hrun n r
  refine ⟨fun slot => ?_, fun q data => ?_, fun v => ?_, fun v => ?_, fun v => ?_, fun h => ?_, fun h => ?_, fun v => ?_⟩
  · exact ⟨fun h => ringEv_stay hrun hs (fetchSlot_idle h slot),
      fun h hno => ringEv_step hs hrun (fetchSlot_fails h hno) (ringStep_modRing ..),
      fun b h hb => ringEv_step hs hrun (fetchSlot_starts h hb)
        (((ringStep_modRing ..).trans (ringStep_rings ..)).trans (ringStep_drain ..))⟩
  · refine ⟨fun h => ringEv_stay hrun hs (payloadFetched_idle h data), fun p hp hphase hsource =>
      ⟨fun hno => ?_, fun b hb => ?_⟩⟩
    · exact ringEv_step hs hrun (by rw [payloadFetched_eq hp hphase hsource, hno]) (ringStep_complete ..)
    · exact ringEv_step hs hrun (by rw [payloadFetched_eq hp hphase hsource, hb]) (ringStep_rings ..)
  · exact ⟨_, ringEv_step (g := Dev.tailWrite n v.toNat) hs hrun rfl (ringStep_modRing ..), Dev.ring_modRing ..,
      fun k hk => Dev.ring_modRing_ne _ _ _ _ hk, rfl⟩
  · have heq := cqHeadWrite_eq n v.toNat s.dev
    exact ⟨fun h => ringEv_step hs hrun (heq.trans (if_neg (ne_true_of_eq_false h))) (ringStep_modRing ..),
      fun h => ringEv_step hs hrun (heq.trans (if_pos h)) ((ringStep_modRing ..).trans (ringStep_drain ..))⟩
  · have hset : bits (v ||| 0x1000000).toNat 24 1 = 1 := bit_set v 0x1000000 24 (by decide)
    have hclear : bits (v &&& 0xFEFFFFFF).toNat 24 1 = 0 := bit_clear v 0xFEFFFFFF 24 (by decide)
    refine ⟨fun h => ringEv_step hs hrun ((ringCtrlWrite_enables hset _).trans (if_pos h)) (ringStep_ctrlFields ..),
      fun h hok => ringEv_step hs hrun
        (((ringCtrlWrite_enables hset _).trans (if_neg (ne_true_of_eq_false h))).trans (if_pos hok))
        ((ringStep_ctrlFields ..).trans (ringStep_modRing ..)),
      fun h hbad => ringEv_step hs hrun
        (((ringCtrlWrite_enables hset _).trans (if_neg (ne_true_of_eq_false h))).trans (if_neg (ne_true_of_eq_false hbad)))
        ((ringStep_ctrlFields ..).trans (ringStep_modRing ..)),
      fun h => ringEv_step hs hrun ((ringCtrlWrite_disables hclear _).trans (if_neg (ne_true_of_eq_false h)))
        (ringStep_ctrlFields ..),
      fun h => ringEv_step hs hrun ((ringCtrlWrite_disables hclear _).trans (if_pos h))
        ((ringStep_ctrlFields ..).trans (ringStep_ringOff ..)),
      fun h hno => ringEv_step hs hrun ?_ ((ringStep_modRing ..).trans (ringStep_modRing ..))⟩
    have hkeep : bits (v ||| 0x2000000).toNat 24 1 = 0 := (bit_keep v 0x2000000 24 (by decide)).trans hno
    rw [ringCtrlWrite_disables hkeep, if_neg (ne_true_of_eq_false h),
      ctrlFields_clears (bit_set v 0x2000000 25 (by decide)) h]
  · exact ringEv_stay hrun hs (holdoffEnd_idle h)
  · exact ringEv_step hs hrun (holdoffEnd_sends h) ((ringStep_modRing ..).trans (ringStep_msix ..))
  · have hset : bits (v ||| 0x100).toNat 8 1 = 1 := bit_set v 0x100 8 (by decide)
    refine ⟨ringEv_reports hs hrun (pumpReports_modRptq rfl), ringEv_reports hs hrun ?_⟩
    refine Eq.trans ?_ (pumpReports_modRptq rfl)
    unfold Dev.rptqCtrlWrite
    rw [hset]
    rfl

end Sys2Proof.Proofs
end

section
/-! The Ethernet transport: CMD, BULK and ACK datagrams, its timers and the broadcast reply (spec chapter 3). -/

namespace Sys2Proof.Proofs

open Sys2Proof.Machine Sys2Proof.Laws

/-! ### Datagrams by type -/

/-- A datagram of type k that passes its checks, for a ring that is served (R149). -/
def Takes (d : Dev) (udp : List Nat) (k : Nat) : Prop :=
  d.dgramDropped udp = false ∧ (transportOf udp).type = k ∧ d.serves (transportOf udp).ring = true

section
variable {s : State} {udp : List Nat} {f : Transport → Dev → Dev} (port k : Nat)

/-- The effect of a row for datagrams of type k. -/
def dgramRow (port k : Nat) (udp : List Nat) (f : Transport → Dev → Dev) : State → Host.Outcome State Fault Refusal :=
  inDomain 9 fun d => if d.ringsRun then d.dgram port k udp f else d

theorem dgramRow_drops (hon : s.dev.on 9 = true) (hrun : s.dev.ringsRun = true) (hs : Settled s)
    (h : s.dev.dgramDropped udp = true) : dgramRow port k udp f s =
      .next (s.onDev fun d => d.modEth port fun e => { e with drops := satInc 32 e.drops }) :=
  inDomain_run hon ((dgram_eq port k udp f s.dev hrun).trans (if_pos h)) hs

theorem dgramRow_other (hon : s.dev.on 9 = true) (hrun : s.dev.ringsRun = true) (hs : Settled s)
    (h : s.dev.dgramDropped udp = false) (hno : ¬ Takes s.dev udp k) : dgramRow port k udp f s = .next s :=
  inDomain_stay hon hs ((dgram_eq port k udp f s.dev hrun).trans
    ((if_neg (ne_true_of_eq_false h)).trans (if_neg fun htakes => hno ⟨h, htakes⟩)))

theorem dgram_takes (hrun : s.dev.ringsRun = true) (h : Takes s.dev udp k) :
    (if s.dev.ringsRun then s.dev.dgram port k udp f else s.dev) = f (transportOf udp) s.dev :=
  (dgram_eq port k udp f s.dev hrun).trans ((if_neg (ne_true_of_eq_false h.1)).trans (if_pos h.2))

theorem dgramRow_stays (hon : s.dev.on 9 = true) (hrun : s.dev.ringsRun = true) (hs : Settled s) (h : Takes s.dev udp k)
    (hf : f (transportOf udp) s.dev = s.dev) : dgramRow port k udp f s = .next s :=
  inDomain_stay hon hs ((dgram_takes port k hrun h).trans hf)

theorem dgramRow_acts (hon : s.dev.on 9 = true) (hrun : s.dev.ringsRun = true) (h : Takes s.dev udp k) {g : Dev → Dev}
    (hf : f (transportOf udp) s.dev = g s.dev) : dgramRow port k udp f s = .next (State.settle (s.onDev g)) :=
  inDomain_post hon ((dgram_takes port k hrun h).trans hf)

end

/-! ### CMD -/

/-- The packet of a CMD datagram: its SEQ is the transport header's (R151). -/
def cmdPacket (udp : List Nat) (t : Transport) : Packet := { parsePacket t.ring 1 (udp.drop 16) with seq := t.seq }

/-- The host heard, and CUM just below the first SEQ received (R157). -/
def cmdHeard (src : Nat) (t : Transport) (d : Dev) : Dev :=
  (d.heard t.ring src).modRing t.ring fun r => { r with cum := some (r.cum.getD ((t.seq + 2 ^ 32 - 1) % 2 ^ 32)) }

/-- The ACK for a CMD; a broadcast is not acknowledged (R161). -/
def cmdAck (p : Packet) (n : Nat) (now : Bool) (d : Dev) : Dev := if p.dest = 4095 then d else d.ackFor n now

/-- A CMD at or below CUM: an ACK at once, and the completion where it is kept (R156). -/
def cmdAgain (p : Packet) (n : Nat) (d : Dev) : Dev :=
  match ((cmdAck p n true d).ring n).unacked.find? (fun o => !o.rpt && o.item = p.seq) with
  | some o => (cmdAck p n true d).resendOut n o
  | none => cmdAck p n true d

theorem cmdAgain_none {p : Packet} {n : Nat} {d : Dev}
    (h : ((cmdAck p n true d).ring n).unacked.find? (fun o => !o.rpt && o.item = p.seq) = none) :
    cmdAgain p n d = cmdAck p n true d := by
  unfold cmdAgain
  rw [h]

theorem cmdAgain_kept {p : Packet} {n : Nat} {d : Dev} {o : EthOut}
    (h : ((cmdAck p n true d).ring n).unacked.find? (fun o => !o.rpt && o.item = p.seq) = some o) :
    cmdAgain p n d = (cmdAck p n true d).resendOut n o := by
  unfold cmdAgain
  rw [h]

/-- The ring with the next CMD in order, and those held that follow it, passed on (R151). -/
def cmdNext (p : Packet) (n : Nat) (d : Dev) : Dev :=
  d.modRing n fun r => Ring.takeNext (r.ooo.length + 1) { r with ooo := p :: r.ooo }

/-- The ring with a CMD held out of order (R151). -/
def cmdHeld (p : Packet) (n : Nat) (d : Dev) : Dev := d.modRing n fun r =>
  if r.ooo.any (fun q => q.seq = p.seq) then r else { r with ooo := r.ooo ++ [p] }

section
variable {d : Dev} {udp : List Nat} {t : Transport} (src : Nat)

theorem cmdReceive_refused (h : d.ethTakes (cmdPacket udp t) = false) : d.cmdReceive src udp t = d := 
  if_pos (congrArg Bool.not h)

/-- What a CMD does that the device may execute, by its distance above CUM. -/
theorem cmdReceive_taken (h : d.ethTakes (cmdPacket udp t) = true) : d.cmdReceive src udp t =
    let p := cmdPacket udp t
    let n := t.ring
    let e := cmdHeard src t d
    let cum := (e.ring n).cum.getD 0
    let dist := (t.seq + 2 ^ 32 - cum) % 2 ^ 32
    if seqLe t.seq cum = true then cmdAgain p n e
    else if e.windowOf n < dist then e
    else if dist = 1 then cmdAck p n (!(e.ring n).ooo.isEmpty)
      (Dev.drain n (2 * ((cmdNext p n e).ring n).toStart.length + 2) (cmdNext p n e))
    else cmdAck p n true (cmdHeld p n e) :=
  (if_neg (ne_true_of_eq_false (congrArg Bool.not h))).trans rfl

end

/-! ### BULK -/

/-- A BULK that shedding drops, that comes without an address, or whose offset or size is out of form (R155, R190). -/
def BulkIdle (d : Dev) (t : Transport) (data : List Nat) : Prop :=
  2 ≤ d.sched.stage ∨ d.sys.addrValid = false ∨ t.offset % 8 ≠ 0 ∨ (if d.rings.jumbo then 8192 else 1408) < data.length

/-- Has the packet of a BULK been executed (R189)? -/
def bulkRan (d : Dev) (n seq : Nat) : Bool :=
  (d.ring n).cum.any (fun c => seqLe seq c) && (d.packet? (n, seq)).isNone &&
  !((d.ring n).toStart.any (fun p => p.seq = seq)) && !((d.ring n).stalled.any (fun p => p.seq = seq))

/-- What has arrived for a packet so far. -/
def bulkOld (d : Dev) (n seq : Nat) : Bulk :=
  (d.rings.bulks.find? (fun b => b.ring = n && b.seq = seq)).getD { Bulk.reset with ring := n, seq := seq }

/-- May the data of a BULK go where the packet sends it, without a staging slot (R188)? -/
def bulkGoes (d : Dev) (n seq : Nat) : Bool := !(bulkOld d n seq).slot && d.bulkDirect n seq (bulkOld d n seq)

/-- Does a BULK need a staging slot (R188, R189)? -/
def bulkNeeds (d : Dev) (n seq : Nat) : Bool := !(bulkOld d n seq).slot && !bulkGoes d n seq

/-- The device with the data of a BULK kept. -/
def bulkKept (d : Dev) (t : Transport) (data : List Nat) : Dev :=
  let n := t.ring
  let old := bulkOld d n t.seq
  let b : Bulk := { old with
    cells := bulkCells t.offset data ++ old.cells, slot := old.slot || bulkNeeds d n t.seq
    direct := old.direct || bulkGoes d n t.seq }
  (({ d.dropBulk (n, t.seq) with rings := { (d.dropBulk (n, t.seq)).rings with
      bulks := (d.dropBulk (n, t.seq)).rings.bulks ++ [b] } }).bulkComplete n t.seq).ackFor n false

section
variable {d : Dev} {t : Transport} {udp : List Nat}

theorem bulkReceive_idle (h : BulkIdle d t (udp.drop 16)) : d.bulkReceive udp t = d := by
  by_cases hserved : 2 ≤ d.sched.stage ∨ d.sys.addrValid = false
  · exact if_pos (by simpa using hserved)
  · have hform := (or_assoc.mpr h).resolve_left hserved
    exact (if_neg (by simpa using hserved)).trans (if_pos (by simpa using hform))

theorem bulkReceive_live (h : ¬ BulkIdle d t (udp.drop 16)) : d.bulkReceive udp t =
    if bulkRan d t.ring t.seq = true then d.ackFor t.ring false
    else if (bulkNeeds d t.ring t.seq && decide (64 ≤ (d.rings.bulks.filter (·.slot)).length)) = true then
      { d with ing := { d.ing with stageDrops := satInc 32 d.ing.stageDrops } }
    else bulkKept d t (udp.drop 16) := by
  obtain ⟨hserved, hform⟩ := not_or.mp (mt or_assoc.mp h)
  exact (if_neg (by simpa using hserved)).trans ((if_neg (by simpa using hform)).trans rfl)

end

/-! ### Timers and the broadcast reply -/

/-- Is an ACK of ring n due (R152)? -/
def AckDue (d : Dev) (n : Nat) : Prop := d.serves n = true ∧ (d.ring n).ackCount ≠ 0

theorem ethAckTimer_idle {s : State} (hs : Settled s) (hon : s.dev.on 9 = true) {n : Nat} (h : ¬ AckDue s.dev n) :
    exec (.ethAckTimer n) s = .next s :=
  inDomain_stay hon hs (if_neg fun hdue => h (by
    simp only [Bool.and_eq_true, Bool.not_eq_true', decide_eq_false_iff_not] at hdue
    exact ⟨hdue.1.2, hdue.2⟩))

theorem ethAckTimer_due {s : State} (hon : s.dev.on 9 = true) (hrun : s.dev.ringsRun = true) {n : Nat} (h : AckDue s.dev n) :
    exec (.ethAckTimer n) s = .next (State.settle (s.onDev (Dev.sendAck n))) :=
  inDomain_post hon (if_pos (by simp [hrun, h.1, h.2]))

section
variable {d : Dev} {n q : Nat}

/-- The time-out of a datagram that is not kept, of a lost peer or of another kind of ring (R158, R159). -/
theorem rtoExpire_idle (h : (d.ring n).unacked.find? (fun o => o.tseq = q) = none ∨ (d.ring n).peerLost = true ∨
    (d.ring n).source ≠ 1) : d.rtoExpire n q = d := by
  unfold Dev.rtoExpire
  dsimp only
  split
  case h_1 => rfl
  case h_2 o ho =>
    have hlost := h.resolve_left (by simp [ho])
    exact if_pos (by simpa using hlost)

theorem rtoExpire_kept {o : EthOut} (ho : (d.ring n).unacked.find? (fun o => o.tseq = q) = some o)
    (hpeer : (d.ring n).peerLost = false) (hsource : (d.ring n).source = 1) : d.rtoExpire n q =
    if d.rings.maxTries ≤ o.sends then (d.modRing n fun r => { r with peerLost := true }).raise 84 n
    else (d.modRing n fun r => { r with unacked := r.unacked.map fun x =>
      if x.tseq = q then { x with sends := x.sends + 1, rtoMs := min 64 (2 * x.rtoMs) } else x }).resendOut n o := by
  unfold Dev.rtoExpire
  dsimp only
  rw [ho]
  exact if_neg (by simp [hpeer, hsource])

end

/-- A time-out while the rings run acts on its ring. -/
theorem rto_runs {s : State} (hrun : s.dev.ringsRun = true) (n q : Nat) :
    (if s.dev.ringsRun then s.dev.rtoExpire n q else s.dev) = s.dev.rtoExpire n q := if_pos hrun

theorem infoReply_none {d : Dev} (h : d.rings.infoReplies = []) : d.infoReply = d := by
  unfold Dev.infoReply
  rw [h]

theorem infoReply_first {d : Dev} {c : Cpl} {l : List Cpl} (h : d.rings.infoReplies = c :: l) : d.infoReply =
    ({ d with rings := { d.rings with infoReplies := l } }).send (.datagram 4 c.ring (0xFFFFFFFF :: c.bytes)) := by
  unfold Dev.infoReply
  rw [h]

/-- Settles O21, datagram by datagram and timer by timer, one record per datagram (log entry 57). -/
theorem ethernetTransportTakesAndAnswersDatagrams : Obligations.EthernetTransportTakesAndAnswersDatagrams := by
  unfold Obligations.EthernetTransportTakesAndAnswersDatagrams
  intro s hs hon hrun
  refine ⟨fun port src udp => ?_, fun n => ?_, fun h => inDomain_stay hon hs (infoReply_none h),
    fun c l h => inDomain_run hon (infoReply_first h) hs⟩
  · intro t n drop takes
    refine ⟨fun h => ⟨dgramRow_drops port 1 hon hrun hs h, dgramRow_drops port 2 hon hrun hs h,
      dgramRow_drops port 3 hon hrun hs h⟩, dgramRow_other port 1 hon hrun hs, dgramRow_other port 2 hon hrun hs,
      dgramRow_other port 3 hon hrun hs, fun htakes => ?_, fun htakes => ?_,
      fun htakes => dgramRow_acts port 3 hon hrun htakes rfl⟩
    · intro p d cum ack dist is
      refine ⟨fun hno => dgramRow_stays port 1 hon hrun hs htakes (cmdReceive_refused src hno), fun hyes => ?_⟩
      have his : ∀ e, s.dev.cmdReceive src udp t = e → is e := fun e he => dgramRow_acts port 1 hon hrun htakes he
      have hcmd := cmdReceive_taken (udp := udp) (t := t) src hyes
      refine ⟨fun hle => ⟨fun hnone => his _ ?_, fun o ho => his _ ?_⟩, fun hle hfar => his _ ?_,
        fun hle hnear hone => his _ ?_, fun hle hnear hmore => his _ ?_⟩
      · exact (hcmd.trans (if_pos hle)).trans (cmdAgain_none hnone)
      · exact (hcmd.trans (if_pos hle)).trans (cmdAgain_kept ho)
      · exact (hcmd.trans (if_neg (ne_true_of_eq_false hle))).trans (if_pos hfar)
      · exact ((hcmd.trans (if_neg (ne_true_of_eq_false hle))).trans (if_neg hnear)).trans (if_pos hone)
      · exact ((hcmd.trans (if_neg (ne_true_of_eq_false hle))).trans (if_neg hnear)).trans (if_neg hmore)
    · intro r data idle ran old direct needs full
      have hkept : ¬ idle → ran = false → _ := fun hlive hran =>
        (bulkReceive_live hlive).trans (if_neg (ne_true_of_eq_false hran))
      refine ⟨fun hidle => dgramRow_stays port 2 hon hrun hs htakes (bulkReceive_idle hidle), fun hlive hran => ?_,
        fun hlive hran hfull => ?_, fun hlive hran hroom => ?_⟩
      · exact dgramRow_acts port 2 hon hrun htakes ((bulkReceive_live hlive).trans (if_pos hran))
      · exact inDomain_run hon ((dgram_takes port 2 hrun htakes).trans ((hkept hlive hran).trans
          (if_pos (Bool.and_eq_true_iff.mpr ⟨hfull.1, decide_eq_true hfull.2⟩)))) hs
      · refine dgramRow_acts port 2 hon hrun htakes ((hkept hlive hran).trans (if_neg fun h => hroom ?_))
        rw [Bool.and_eq_true, decide_eq_true_eq] at h
        exact h
  · intro due
    refine ⟨ethAckTimer_idle hs hon, ethAckTimer_due hon hrun, fun q => ⟨fun h => ?_, fun o ho hpeer hsource => ?_⟩⟩
    · exact inDomain_stay hon hs ((rto_runs hrun n q).trans (rtoExpire_idle h))
    · have hkept := (rto_runs hrun n q).trans (rtoExpire_kept ho hpeer hsource)
      exact ⟨fun htries => inDomain_post hon (hkept.trans (if_pos htries)),
        fun htries => inDomain_run hon (hkept.trans (if_neg (Nat.not_le.mpr htries))) hs⟩

end Sys2Proof.Proofs
end

section
/-! Budgets and models (PWR_SET_CAP, PWR_SET_EXT_BUDGET) and the MAINT commands (spec chapter 10). -/

namespace Sys2Proof.Proofs

open Sys2Proof.Machine Sys2Proof.Laws

/-- A row that changes the scheduler to c and answers. -/
theorem row_sched {op : Nat} {p : Packet} {s : State} (h : Ready op p s) {chk : Packet → Dev → Option Status}
    (hc : chk p s.dev = none) {f : Packet → Dev → Dev} {c : Sched} {st : Status} {result aux : Nat}
    (hf : f p s.dev = ({ s.dev with sched := c }).complete p.ref st result aux) :
    ∃ t, opRow op chk (onPkt f) p.ring p.seq s = .next t ∧ Completed p st result aux s t ∧ t.dev.sched = c ∧
      Only { Dev.ringed s.dev t.dev with sched := t.dev.sched } s t := by
  obtain ⟨hnext, hcompleted⟩ := does_of h hc _ st result aux hf rfl (pre := []) rfl h.1
  exact ⟨_, hnext, hcompleted, complete_sched .., only_complete_sched (by rfl) ..⟩

/-! ### PWR_SET_EXT_BUDGET -/

/-- The fields of a dryer zone that a packet carries (R525). -/
def zoneFields (p : Packet) (z : ZoneModel) : ZoneModel :=
  { z with
    mask := p.fld 4 0 4, loop := p.fld 5 0 8, dist := p.fld 8 0 40, idleMw := p.fld 16 0 32, maxMw := p.fld 20 0 32
    k := p.fld 24 0 32, leadMs := p.fld 28 0 16 }

section
variable {p : Packet} {d : Dev}

theorem runPwrSetExtBudget_budgets (h : p.fld 0 0 2 = 0) : runPwrSetExtBudget p d = ({ d with sched := { d.sched with
    headMw := p.fld 4 0 32, dryerMw := p.fld 8 0 32, maxSpacing := p.fld 12 0 16 } }).complete p.ref .done 0 0 := by
  unfold runPwrSetExtBudget
  rw [h]
  rfl

theorem runPwrSetExtBudget_port (h : p.fld 0 0 2 = 1) :
    runPwrSetExtBudget p d = (d.setPortModel p).complete p.ref .done 0 0 := by
  unfold runPwrSetExtBudget
  rw [h]
  rfl

theorem runPwrSetExtBudget_zone (h : p.fld 0 0 2 = 2) :
    runPwrSetExtBudget p d = (d.modZone p.target (zoneFields p)).complete p.ref .done 0 0 := by
  unfold runPwrSetExtBudget
  rw [h]
  rfl

/-- Without a warning the model is replaced and no heater loop is touched (R530). -/
theorem setPortModel_quiet (h : (d.pmodel p.target).warn = false) : d.setPortModel p = d.modPmodel p.target fun m => { m with
    idleMw := p.fld 4 0 16, heaterLoop := p.fld 6 0 8, pumpLoop := p.fld 7 0 8
    eDrop := (List.range 7).map (fun k => p.fld (8 + 2 * k) 0 16), vol := (List.range 7).map (fun k => p.fld (22 + k) 0 8)
    rTh := p.fld 30 0 16, tauMs := p.fld 32 0 16, warnT := p.sfld 34 0 16, critT := p.sfld 36 0 16
    resumeT := p.sfld 38 0 16 } := by
  unfold Dev.setPortModel
  dsimp only
  rw [h]
  rfl

end

/-- PWR_SET_EXT_BUDGET of a dryer zone (R525). -/
theorem pwrSetExtBudget_zone {s : State} {p : Packet} (h : Ready 0x0C04 p s) (hc : chkPwrSetExtBudget p s.dev = none)
    (hkind : p.fld 0 0 2 = 2) : Does (.pwrSetExtBudget p.ring p.seq) p .done 0 0 s fun t =>
      t.dev.zone p.target = zoneFields p (s.dev.zone p.target) ∧ (∀ j, j ≠ p.target → t.dev.zone j = s.dev.zone j) ∧
      Only { Dev.ringed s.dev t.dev with sched := t.dev.sched } s t := by
  obtain ⟨t, hnext, hcompleted, hsched, honly⟩ := row_sched h hc (runPwrSetExtBudget_zone hkind)
  have hzone : ∀ j, t.dev.zone j = (s.dev.modZone p.target (zoneFields p)).zone j := fun j => by
    unfold Dev.zone
    rw [hsched]
    rfl
  exact ⟨t, hnext, hcompleted, (hzone _).trans (Dev.zone_modZone ..),
    fun j hj => (hzone j).trans (Dev.zone_modZone_ne _ _ _ _ hj), honly⟩

/-! ### MAINT_START -/

/-- The host activity that a MAINT_START opens (R549). -/
def hostAct (p : Packet) (c : Sched) : Activity :=
  { Activity.reset with id := c.nextId, kind := p.fld 0 0 4, res := p.fld 2 0 16, maxMs := p.fld 4 0 32 }

/-- The scheduler with that activity open (R548, R550). -/
def opened (p : Packet) (c : Sched) : Sched :=
  { c with acts := c.acts ++ [hostAct p c], nextId := nextActId c.nextId }

section
variable {p : Packet} {d : Dev} {o : Option Activity}

theorem openAct_host (h : blocker (opened p d.sched).acts (hostAct p d.sched) = o) :
    d.openAct (p.fld 0 0 4) (p.fld 2 0 16) (p.fld 4 0 32) 0 none =
      (d.sched.nextId, o.map (·.id), { d with sched := opened p d.sched }) :=
  Prod.ext rfl (Prod.ext (congrArg (Option.map fun b : Activity => b.id) h) rfl)

theorem runMaintStart_queued {b : Activity} (h : blocker (opened p d.sched).acts (hostAct p d.sched) = some b) :
    runMaintStart p d = ({ d with sched := opened p d.sched }).complete p.ref .queued b.id d.sched.nextId := by
  unfold runMaintStart
  rw [openAct_host h]
  rfl

theorem runMaintStart_runs (h : blocker (opened p d.sched).acts (hostAct p d.sched) = none) :
    runMaintStart p d = (({ d with sched := opened p d.sched }).pumpActs ((opened p d.sched).acts.length + 1)).complete
      p.ref .done 0 d.sched.nextId := by
  unfold runMaintStart
  rw [openAct_host h]
  rfl

end

/-- MAINT_START of an activity that must wait (R548). -/
theorem maintStart_queued {s : State} {p : Packet} (h : Ready 0x0F00 p s) (hc : chkMaintStart p s.dev = none) {b : Activity}
    (hb : blocker (opened p s.dev.sched).acts (hostAct p s.dev.sched) = some b) :
    Does (.maintStart p.ring p.seq) p .queued b.id s.dev.sched.nextId s fun t =>
      Only { Dev.ringed s.dev t.dev with sched := opened p s.dev.sched } s t := by
  obtain ⟨t, hnext, hcompleted, hsched, honly⟩ := row_sched h hc (runMaintStart_queued hb)
  exact ⟨t, hnext, hcompleted, hsched ▸ honly⟩

/-! ### MAINT_QUERY and the time-outs -/

section
variable {p : Packet} {d : Dev}

theorem runMaintQuery_open {a : Activity} (h : d.act? (p.fld 0 0 16) = some a) : runMaintQuery p d =
    if a.running = true then d.complete p.ref .done 0 1
    else if p.fld 4 0 32 = 0 then d.complete p.ref .timeout (d.blockerOf (p.fld 0 0 16)) 0
    else d.modPacket p.ref fun q => { q with phase := .executing, activity := p.fld 0 0 16 } := by
  unfold runMaintQuery
  dsimp only
  rw [h]

theorem runMaintQuery_ended {o : Status} (h : d.act? (p.fld 0 0 16) = none) (ho : d.endedAct (p.fld 0 0 16) = some o) :
    runMaintQuery p d = d.complete p.ref .done 0 (2 + 2 ^ 8 * o.code) := by
  unfold runMaintQuery
  dsimp only
  rw [h, ho]
  rfl

theorem queryTimeout_waiting {ref : PktRef} (h : d.packet? ref = some p) (hop : p.op = 0x0F02)
    (hphase : p.phase = .executing) : d.queryTimeout ref = d.complete ref .timeout (d.blockerOf p.activity) 0 := by
  unfold Dev.queryTimeout
  rw [h, Option.filter_some, if_pos (by simp [hop, hphase])]

theorem queryTimeout_none {ref : PktRef} (h : d.packet? ref = none) : d.queryTimeout ref = d := by
  unfold Dev.queryTimeout
  rw [h]
  rfl

end

/-- Settles O56, row by row. -/
theorem budgetAndMaintenanceCommandsActAsTheSpecSays : Obligations.BudgetAndMaintenanceCommandsActAsTheSpecSays := by
  unfold Obligations.BudgetAndMaintenanceCommandsActAsTheSpecSays
  intro s p c
  refine ⟨fun h hc => row_sched h hc (f := runPwrSetCap) rfl, fun h hc =>
    ⟨fun hk => ?_, fun hk => ⟨?_, setPortModel_quiet⟩, pwrSetExtBudget_zone h hc⟩, fun h hc => ?_, fun h hc => opRow_post h hc rfl, fun h hc => ?_, fun hs hon r q => ?_,
    fun hs hon id => inDomain_post hon rfl, fun h => opRow_post h rfl rfl⟩
  · exact row_sched h hc (runPwrSetExtBudget_budgets hk)
  · exact opRow_post h hc (runPwrSetExtBudget_port hk)
  · intro a opened
    exact ⟨fun b hb => maintStart_queued h hc hb, fun hfree => opRow_post h hc (runMaintStart_runs hfree)⟩
  · refine ⟨fun a ha => ⟨fun hruns => ?_, fun hwaits hzero => ?_, fun hwaits htime => ?_⟩, fun o hno ho => ?_⟩
    · exact row_answers h hc ((runMaintQuery_open ha).trans (if_pos hruns))
    · exact row_answers h hc (((runMaintQuery_open ha).trans (if_neg (ne_true_of_eq_false hwaits))).trans (if_pos hzero))
    · exact opRow_done h hc (((runMaintQuery_open ha).trans (if_neg (ne_true_of_eq_false hwaits))).trans (if_neg htime)) h.1
    · exact row_answers h hc (runMaintQuery_ended hno ho)
  · exact ⟨fun hp hop hphase => inDomain_run hon (queryTimeout_waiting hp hop hphase) (complete_todo hs ..),
      fun hno => inDomain_stay hon hs (queryTimeout_none hno)⟩

end Sys2Proof.Proofs
end

section
/-! The daily wear sample and the WEAR commands (spec chapter 16). -/

namespace Sys2Proof.Proofs

open Sys2Proof.Machine Sys2Proof.Laws

/-! ### WEAR_DAILY_SAMPLE -/

/-- Sampling pauses from shedding stage 1 on and outside operation (R540, R833). -/
theorem dailySample_paused {d : Dev} (h : 1 ≤ d.sched.stage ∨ d.sys.stage ≠ .operational) (v : List (Nat × Nat)) :
    d.dailySample v = d := if_pos (by simpa using h)

/-- The device with the daily sample of every indicator, before the history is saved (R833). -/
def sampled (v : List (Nat × Nat)) (d : Dev) : Dev :=
  let e := forL wearIds (Dev.sampleInd v) d
  { e with wear := { e.wear with sampleNs := e.ns, stored := min 64 (e.wear.stored + 1) } }

theorem dailySample_runs {d : Dev} (hstage : d.sched.stage = 0) (hop : d.sys.stage = .operational) (v : List (Nat × Nat)) :
    d.dailySample v = (sampled v d).saveWear.wearAlerts := if_neg (by simp [hstage, hop])

/-- Every indicator takes its sample; of the rest of the device only the count of samples changes (R832, R833). -/
theorem sampled_spec (v : List (Nat × Nat)) (d : Dev) :
    (∀ n, n ∈ wearIds → ((sampled v d).wearInd n).latest = d.indValue n v ∧
      ((sampled v d).wearInd n).samples = (d.indValue n v :: (d.wearInd n).samples).take 64) ∧
    (∀ n, n ∉ wearIds → (sampled v d).wearInd n = d.wearInd n) ∧
    (sampled v d).wear.stored = min 64 (d.wear.stored + 1) ∧ sampled v d = { d with wear := (sampled v d).wear } := by
  obtain ⟨hin, hout, hframe, hstored⟩ := sampleAll v d wearIds d wearIds_nodup rfl fun _ _ => rfl
  unfold sampled
  dsimp only
  generalize forL wearIds (Dev.sampleInd v) d = e at hin hout hframe hstored ⊢
  exact ⟨hin, hout, by rw [hstored], by rw [hframe]⟩

/-! ### WEAR_PREDICT -/

section
variable {p : Packet} {d : Dev}

theorem runWearPredict_asks (h : p.flag 0 0 = false) : runWearPredict p d =
    (d.predictResult (d.wearInd p.target)).2.complete p.ref .done (d.predictResult (d.wearInd p.target)).1 0 := by
  simp only [runWearPredict, h, Bool.false_eq_true, if_false]

theorem runWearPredict_sets (h : p.flag 0 0 = true) : runWearPredict p d =
    let e := (d.modWearInd p.target fun x => { x with
      window := p.fld 1 0 7, warnH := p.fld 2 0 16, limit := p.fld 8 0 64 }).wearAlerts
    (e.predictResult (e.wearInd p.target)).2.complete p.ref .done (e.predictResult (e.wearInd p.target)).1 0 := by
  simp only [runWearPredict, h, if_true]

end

section
variable {x : WearInd}

theorem predictResult_none (h : x.predict = none) (d : Dev) : d.predictResult x = (0xFFFFFFFF, d) := by
  simp only [Dev.predictResult, h]

theorem predictResult_fits {k : Nat} (h : x.predict = some k) (hk : k < 0xFFFFFFFF) (d : Dev) :
    d.predictResult x = (k + 2 ^ 32 * x.window, d) := by
  unfold Dev.predictResult
  rw [h]
  exact if_pos hk

/-- A prediction beyond 32 bits is a free value (log entry 5). -/
theorem predictResult_large {k : Nat} (h : x.predict = some k) (hk : 0xFFFFFFFF ≤ k) (d : Dev) : d.predictResult x =
    (Config.freeValue d.free % 2 ^ 32 + 2 ^ 32 * x.window, { d with free := d.free + 1 }) := by
  unfold Dev.predictResult
  rw [h]
  exact if_neg (Nat.not_lt.mpr hk)

end

/-- WEAR_PREDICT without SET whose result takes nothing from the device (R842). -/
theorem wearPredict_answers {s : State} {p : Packet} (h : Ready 0x1001 p s) (hc : chkWearPredict p s.dev = none)
    (hask : p.flag 0 0 = false) {y : Nat} (hy : s.dev.predictResult (s.dev.wearInd p.target) = (y, s.dev)) :
    Does (.wearPredict p.ring p.seq) p .done y 0 s fun t => Only (Dev.ringed s.dev t.dev) s t :=
  row_answers h hc (by rw [runWearPredict_asks hask, hy])

/-- WEAR_PREDICT without SET whose result is a free value (R842, log entry 5). -/
theorem wearPredict_free {s : State} {p : Packet} (h : Ready 0x1001 p s) (hc : chkWearPredict p s.dev = none)
    (hask : p.flag 0 0 = false) {k : Nat} (hk : (s.dev.wearInd p.target).predict = some k) (hlarge : 0xFFFFFFFF ≤ k) :
    Does (.wearPredict p.ring p.seq) p .done
      (Config.freeValue s.dev.free % 2 ^ 32 + 2 ^ 32 * (s.dev.wearInd p.target).window) 0 s fun t =>
        Only { Dev.ringed s.dev t.dev with free := s.dev.free + 1 } s t := by
  obtain ⟨hnext, hcompleted⟩ := does_of h hc (f := runWearPredict) { s.dev with free := s.dev.free + 1 } .done _ 0
    (by rw [runWearPredict_asks hask, predictResult_large hk hlarge]) rfl (pre := []) rfl h.1
  exact ⟨_, hnext, hcompleted, only_of ..⟩

/-- Settles O58: the sample indicator by indicator, then row by row (log entries 5 and 47). -/
theorem wearIndicatorsSampleAndPredict : Obligations.WearIndicatorsSampleAndPredict := by
  unfold Obligations.WearIndicatorsSampleAndPredict
  refine ⟨fun s v hs hon => ⟨fun h => inDomain_stay hon hs (dailySample_paused h v), fun hstage hop => ?_⟩,
    fun s p => ?_⟩
  · obtain ⟨hin, hout, hstored, hframe⟩ := sampled_spec v s.dev
    exact ⟨sampled v s.dev, inDomain_post hon (dailySample_runs hstage hop v), hin, hout, hstored, hframe⟩
  · intro x
    refine ⟨fun h => row_answers h rfl rfl, fun h hc => ⟨fun hask => ⟨fun hno => ?_, fun k hk hfits => ?_,
      fun k hk hlarge => wearPredict_free h hc hask hk hlarge⟩, fun hset => opRow_post h hc (runWearPredict_sets hset)⟩,
      fun h => opRow_post h rfl rfl⟩
    · exact wearPredict_answers h hc hask (predictResult_none hno s.dev)
    · exact wearPredict_answers h hc hask (predictResult_fits hk hfits s.dev)

end Sys2Proof.Proofs
end

section
/-! The DIAG commands and the ends of their tests (spec chapter 16). -/

namespace Sys2Proof.Proofs

open Sys2Proof.Machine Sys2Proof.Laws

/-! ### DIAG_TRACE -/

theorem runDiagTrace_entry {p : Packet} {d : Dev} {e : LogEntry} (h : d.flt.log[p.fld 0 0 8]? = some e) :
    runDiagTrace p d = d.complete p.ref .done e.word 0 := by
  unfold runDiagTrace
  rw [h]

theorem runDiagTrace_none {p : Packet} {d : Dev} (h : d.flt.log[p.fld 0 0 8]? = none) :
    runDiagTrace p d = d.complete p.ref .doneEmpty 0 0 := by
  unfold runDiagTrace
  rw [h]

/-! ### DIAG_MEMTEST and DIAG_REINIT -/

/-- DIAG_MEMTEST puts its bank under test (R843). -/
theorem diagMemtest_goes {s : State} {p : Packet} (h : Ready 0x1103 p s) (hc : chkDiagMemtest p s.dev = none) :
    Goes (.diagMemtest p.ring p.seq) s fun t =>
      t.dev.bank p.target = { s.dev.bank p.target with memtest := some p.ref } ∧
      (∀ n, n ≠ p.target → t.dev.bank n = s.dev.bank n) ∧ t.dev.out = s.dev.out ∧
      Only { s.dev with banks := t.dev.banks, rings := t.dev.rings } s t := by
  refine ⟨_, opRow_done (g := runDiagMemtest p) h hc rfl h.1, ?_, fun n hn => ?_, rfl, rfl⟩
  · exact Dev.bank_modBank ..
  · exact Dev.bank_modBank_ne _ _ _ _ hn

/-- The state with no loopback test running, the commands of those that ran completed with ABORTED. -/
def loopsEnded (s : State) : State := s.onDev fun d =>
  ({ d with diag := { d.diag with loops := [] } }).completeAll (d.diag.loops.map fun l : Loopback => l.ref) .aborted

/-- The state with no test running. -/
def testsEnded (s : State) : State := (List.range 12).foldl (fun s n => State.memtestEnd n .aborted 0 s) (loopsEnded s)

theorem runDiagReinit_eq (p : Packet) (s : State) : runDiagReinit p s =
    (testsEnded s).onDev (Dev.complete p.ref (if s.dev.testRuns then .done else .doneEmpty) 0 0) := by
  unfold runDiagReinit testsEnded loopsEnded
  rfl

/-- Every test is over and each bank that was under test is cleared; flash and the collector are as they were (R719). -/
theorem testsEnded_spec (s : State) :
    (testsEnded s).dev.diag.loops = [] ∧ (∀ n, n < 12 → ((testsEnded s).dev.bank n).memtest = none) ∧
    (∀ n, n < 12 → (s.dev.bank n).memtest ≠ none → ∀ a, n * bankBytes ≤ a → a < n * bankBytes + bankBytes →
      Memory.read sramDefault (testsEnded s).mem.sram a = sramDefault) ∧
    (testsEnded s).mem.flash = s.mem.flash ∧ (testsEnded s).dev.flt = s.dev.flt := by
  obtain ⟨htests, -, hdiag, hflt, hflash, -, hclear⟩ := memtestAll 12 (loopsEnded s) .aborted 0
  have hbank : ∀ n, (loopsEnded s).dev.bank n = s.dev.bank n := fun n => completeAll_bank_at ..
  have hloops : (loopsEnded s).dev.diag.loops = [] := congrArg Diag.loops (completeAll_diag ..)
  unfold testsEnded
  generalize (List.range 12).foldl (fun s n => State.memtestEnd n .aborted 0 s) (loopsEnded s) = z
    at htests hdiag hflt hflash hclear ⊢
  exact ⟨by rw [hdiag, hloops], htests, fun n hn ht => hclear n hn (by rw [hbank]; exact ht), hflash,
    hflt.trans (completeAll_flt ..)⟩

theorem testsEnded_idle {s : State} (h : s.dev.testRuns = false) : testsEnded s = s := by
  unfold Dev.testRuns at h
  rw [Bool.or_eq_false_iff, Bool.not_eq_false', List.isEmpty_iff, List.any_eq_false] at h
  obtain ⟨hloops, hbanks⟩ := h
  have hself : loopsEnded s = s := by
    unfold loopsEnded State.onDev
    dsimp only
    rw [hloops]
    show { s with dev := { s.dev with diag := { s.dev.diag with loops := [] } } } = s
    rw [← hloops]
  obtain ⟨-, -, -, -, -, hsame, -⟩ := memtestAll 12 (loopsEnded s) .aborted 0
  refine (hsame fun n hn => ?_).trans hself
  rw [hself]
  exact Option.not_isSome_iff_eq_none.mp (hbanks n (List.mem_range.mpr hn))

/-- DIAG_REINIT leaves no test running (R115). -/
theorem diagReinit_next {s : State} {p : Packet} (h : Ready 0x11FF p s) : exec (.diagReinit p.ring p.seq) s =
    .next ((testsEnded s).onDev (Dev.complete p.ref (if s.dev.testRuns then .done else .doneEmpty) 0 0)) := by
  obtain ⟨-, -, -, -, hflt⟩ := testsEnded_spec s
  have hrun := runDiagReinit_eq p s
  generalize testsEnded s = z at hrun hflt ⊢
  refine opRow_to h (chk := chkDiagReinit) rfl hrun ?_
  exact complete_todo ((congrArg Flt.todo hflt).trans h.1) ..

/-- DIAG_REINIT with no test running answers DONE_EMPTY (R115). -/
theorem diagReinit_idle {s : State} {p : Packet} (h : Ready 0x11FF p s) (hidle : s.dev.testRuns = false) :
    Does (.diagReinit p.ring p.seq) p .doneEmpty 0 0 s fun t =>
      t.dev.diag.loops = [] ∧ t.mem = s.mem ∧ t.dev.banks = s.dev.banks := by
  have hnext := diagReinit_next h
  have hloops := (testsEnded_spec s).1
  rw [testsEnded_idle hidle] at hnext hloops
  rw [hidle] at hnext
  exact ⟨_, hnext, completed_of (ready_packet h) rfl (pre := []) rfl .doneEmpty 0 0,
    (congrArg Diag.loops (complete_diag ..)).trans hloops, rfl, complete_banks ..⟩

theorem diagReinit_ends {s : State} {p : Packet} (h : Ready 0x11FF p s) : Goes (.diagReinit p.ring p.seq) s fun t =>
    t.dev.diag.loops = [] ∧ (∀ n, n < 12 → (t.dev.bank n).memtest = none) ∧
    (∀ n, n < 12 → (s.dev.bank n).memtest ≠ none → ∀ a, n * bankBytes ≤ a → a < n * bankBytes + bankBytes →
      Memory.read sramDefault t.mem.sram a = sramDefault) ∧ t.mem.flash = s.mem.flash := by
  obtain ⟨hloops, htests, hclear, hflash, -⟩ := testsEnded_spec s
  have hnext := diagReinit_next h
  generalize testsEnded s = z at hloops htests hclear hflash hnext
  exact ⟨_, hnext, (congrArg Diag.loops (complete_diag ..)).trans hloops,
    fun n hn => (congrArg Bank.memtest (complete_bank_at ..)).trans (htests n hn), hclear, hflash⟩

/-! ### The ends of tests -/

theorem loopbackEnd_idle {d : Dev} {ref : PktRef} (h : ∀ l ∈ d.diag.loops, l.ref ≠ ref) (errors : Nat) (lock : Bool) :
    d.loopbackEnd ref errors lock = d := if_neg (by simpa using h)

theorem loopbackEnd_runs {d : Dev} {ref : PktRef} (h : ∃ l ∈ d.diag.loops, l.ref = ref) (errors : Nat) (lock : Bool) :
    d.loopbackEnd ref errors lock =
      ({ d with diag := { d.diag with loops := d.diag.loops.filter (fun l => !(l.ref = ref)) } }).complete ref .done
        (errors % 2 ^ 64) (b2n lock) := if_pos (by simpa using h)

theorem memtestDone_idle {s : State} {ref : PktRef} (h : ∀ n, n < 12 → (s.dev.bank n).memtest ≠ some ref) (failing : Nat) :
    s.memtestDone ref failing = s := by
  have hnone : (List.range 12).find? (fun n => (s.dev.bank n).memtest = some ref) = none := by
    simpa [List.find?_eq_none] using h
  unfold State.memtestDone
  rw [hnone]

/-- The end of a memory test clears its bank and answers (R719, R843, R844). -/
theorem memtestDone_runs {s : State} {ref : PktRef} {n : Nat}
    (h : (List.range 12).find? (fun n => (s.dev.bank n).memtest = some ref) = some n) (failing : Nat) :
    s.memtestDone ref failing = { s with
      mem := { s.mem with sram := Memory.clear (n * bankBytes) bankBytes s.mem.sram }
      dev := (s.dev.modBank n (fun b => { b with memtest := none })).complete ref .done (failing % 2 ^ 64) 0 } := by
  have htest : (s.dev.bank n).memtest = some ref := by simpa using List.find?_some h
  unfold State.memtestDone
  rw [h]
  dsimp only
  unfold State.memtestEnd
  rw [htest]
  rfl

/-- Settles O59, row by row and end by end. -/
theorem diagnosticCommandsTestAndReport : Obligations.DiagnosticCommandsTestAndReport := by
  unfold Obligations.DiagnosticCommandsTestAndReport
  refine fun s p => ⟨fun h => row_answers h rfl rfl, fun h hc => opRow_done (g := runDiagLoopback p) h hc rfl h.1,
    fun h hc => ⟨fun e he => row_answers h hc (runDiagTrace_entry he), fun hno => row_answers h hc (runDiagTrace_none hno)⟩,
    diagMemtest_goes, fun h => ⟨diagReinit_idle h, diagReinit_ends h⟩,
    fun hs hon r q errors lock => ⟨fun hno => ?_, fun hex => ?_⟩,
    fun hs hon r q failing => ⟨fun hno => ?_, fun n hn => ⟨?_, fun a => Memory.read_clear _ _ _ a⟩⟩⟩
  · exact inDomain_stay hon hs (loopbackEnd_idle hno errors lock)
  · exact inDomain_run hon (loopbackEnd_runs hex errors lock) (complete_todo (by exact hs) ..)
  · exact inDomainS_run hon (memtestDone_idle hno failing) hs
  · exact inDomainS_run hon (memtestDone_runs hn failing) (complete_todo (by exact hs) ..)

end Sys2Proof.Proofs
end

section
/-! STAGE_OBJ_OPEN, APPEND, CLOSE and FREE (spec chapter 4, R173 to R182). -/

namespace Sys2Proof.Proofs

open Sys2Proof.Machine Sys2Proof.Laws

/-- A row that changes the ingest unit alone, as g says, and completes with DONE. -/
theorem row_ing {op : Nat} {p : Packet} {s : State} (h : Ready op p s) {chk : Packet → Dev → Option Status}
    (hc : chk p s.dev = none) {run : Packet → Dev → Dev} {g : Dev} {result : Nat}
    (hrun : run p s.dev = g.complete p.ref .done result 0) (hg : g = { s.dev with ing := g.ing }) :
    ∃ t, opRow op chk (onPkt run) p.ring p.seq s = .next t ∧ Completed p .done result 0 s t ∧ t.dev.ing = g.ing ∧
      Only { Dev.ringed s.dev t.dev with ing := t.dev.ing } s t := by
  obtain ⟨hnext, hcompleted⟩ := does_of h hc g .done result 0 hrun (by rw [hg]) (pre := []) (by rw [hg]; rfl)
    (by rw [hg]; exact h.1)
  exact ⟨_, hnext, hcompleted, complete_ing .., only_complete_ing hg ..⟩

theorem obj_of_ing {d e : Dev} (h : d.ing = e.ing) (j : Nat) : d.obj j = e.obj j := by
  unfold Dev.obj; rw [h]

/-- A row that changes one object and completes with DONE: no other object changes. -/
theorem row_obj {op : Nat} {p : Packet} {s : State} (h : Ready op p s) {chk : Packet → Dev → Option Status}
    (hc : chk p s.dev = none) {run : Packet → Dev → Dev} {i : Nat} {f : Obj → Obj}
    (hrun : run p s.dev = (s.dev.modObj i f).complete p.ref .done 0 0) :
    ∃ t, opRow op chk (onPkt run) p.ring p.seq s = .next t ∧ Completed p .done 0 0 s t ∧
      t.dev.obj i = f (s.dev.obj i) ∧ (∀ j, j ≠ i → t.dev.obj j = s.dev.obj j) ∧
      Only { Dev.ringed s.dev t.dev with ing := t.dev.ing } s t := by
  obtain ⟨t, hnext, hcompleted, hing, honly⟩ := row_ing h hc hrun rfl
  exact ⟨t, hnext, hcompleted, (obj_of_ing hing i).trans (Dev.obj_modObj ..),
    fun j hj => (obj_of_ing hing j).trans (Dev.obj_modObj_ne _ _ _ _ hj), honly⟩

/-- GEN of the object opened next at an index (R174). -/
def nextGen (o : Obj) : Nat := if o.used then (o.gen + 1) % 2 ^ 16 else o.gen

/-- The object that STAGE_OBJ_OPEN makes of what the index held (R174, R175). -/
def openedObj (p : Packet) (o : Obj) : Obj :=
  { Obj.reset with isOpen := true, gen := nextGen o, used := true, cap := p.fld 0 0 64, kind := p.fld 8 0 2 }

/-- The device with an object opened at index i, which is now the last issued (R174). -/
def objOpened (p : Packet) (i : Nat) (d : Dev) : Dev :=
  { d with ing := { (d.modObj i (openedObj p)).ing with lastIndex := i } }

theorem objOpened_obj (p : Packet) (i : Nat) (d : Dev) : (objOpened p i d).obj i = openedObj p (d.obj i) :=
  Dev.obj_modObj ..

theorem objOpened_obj_ne (p : Packet) {i j : Nat} (d : Dev) (h : j ≠ i) : (objOpened p i d).obj j = d.obj j :=
  Dev.obj_modObj_ne _ _ _ _ h

theorem runStageObjOpen_index {p : Packet} {d : Dev} {i : Nat} (h : d.nextIndex = some i) : runStageObjOpen p d =
    (objOpened p i d).complete p.ref .done (i + nextGen (d.obj i) * 2 ^ 16) 0 := by
  unfold runStageObjOpen
  rw [h]
  rfl

/-- What STAGE_OBJ_FREE leaves of an object: its index keeps GEN (R179). -/
def freedObj (o : Obj) : Obj := { Obj.reset with gen := o.gen, used := o.used }

section
variable {p : Packet} {d : Dev} {i : Nat} (h : d.objIndex (p.fld 0 0 32) = some i)
include h

theorem runStageObjAppend_index : runStageObjAppend p d =
    (d.modObj i fun o => { o with data := o.data ++ p.payload.drop 16 }).complete p.ref .done 0 0 := by
  unfold runStageObjAppend
  rw [h]

theorem runStageObjClose_index : runStageObjClose p d =
    (d.modObj i fun o => { o with complete := true }).complete p.ref .done 0 0 := by
  unfold runStageObjClose
  rw [h]

theorem runStageObjFree_index : runStageObjFree p d = (d.modObj i freedObj).complete p.ref .done 0 0 := by
  unfold runStageObjFree
  rw [h]
  rfl

end

/-- Settles O35, row by row. -/
theorem objectCommandsOpenAppendCloseAndFree : Obligations.ObjectCommandsOpenAppendCloseAndFree := by
  unfold Obligations.ObjectCommandsOpenAppendCloseAndFree
  refine fun s p i => ⟨fun h hc hi => ?_, fun hi => ⟨fun h hc => row_obj h hc (runStageObjAppend_index hi),
    fun h hc => row_obj h hc (runStageObjClose_index hi), fun h hc => ?_⟩⟩
  · obtain ⟨t, hnext, hcompleted, hing, honly⟩ := row_ing h hc (runStageObjOpen_index hi) rfl
    exact ⟨t, hnext, hcompleted, (obj_of_ing hing i).trans (objOpened_obj ..), congrArg Ingest.lastIndex hing,
      fun j hj => (obj_of_ing hing j).trans (objOpened_obj_ne p s.dev hj), honly⟩
  · obtain ⟨t, hnext, hcompleted, hobj, hother, honly⟩ := row_obj h hc (runStageObjFree_index hi)
    exact ⟨t, hnext, hcompleted, by rw [hobj]; rfl, by rw [hobj]; rfl, by rw [hobj]; rfl, hother, honly⟩

end Sys2Proof.Proofs
end

section
/-! Look-ahead and staging decodes, STAGE_CAPTURE and the capture queues (spec chapter 5). -/

namespace Sys2Proof.Proofs

open Sys2Proof.Machine Sys2Proof.Laws

/-! ### Decodes -/

theorem lookaheadStart_eq (i : Nat) (d : Dev) : d.lookaheadStart i =
    if (d.entry i).st = .accepted ∧ (d.entry i).decode = .waiting ∧ d.sourcesReady (d.entry i).desc = true
    then d.modEntry i fun e => { e with decode := .running } else d := by
  simp [Dev.lookaheadStart, and_assoc]

/-- LOOKAHEAD_DECODE_START (R183, R257). -/
theorem lookaheadDecodeStart_next {s : State} (hs : Settled s) (hon : s.dev.on 4 = true) (i : Nat) :
    exec (.lookaheadDecodeStart i) s = .next
      (if (s.dev.entry i).st = .accepted ∧ (s.dev.entry i).decode = .waiting ∧ s.dev.sourcesReady (s.dev.entry i).desc = true
        then s.onDev (Dev.modEntry i fun e => { e with decode := .running }) else s) := by
  have heq := lookaheadStart_eq i s.dev
  split
  case isTrue h => exact inDomain_run hon (heq.trans (if_pos h)) hs
  case isFalse h => exact inDomain_stay hon hs (heq.trans (if_neg h))

section
variable {i : Nat} {d : Dev} (hrun : (d.entry i).decode = .running) (hlive : (d.entry i).live = true)
include hrun hlive

/-- A look-ahead decode without a failure stores its segment records (R223). -/
theorem lookaheadEnd_ok {l : List (List SegInfo)} (h : d.decodeAll (d.entry i).desc = .ok l) :
    d.lookaheadEnd i = d.modEntry i fun e => { e with decode := .ok, segs := l } := by
  refine (if_neg (by simp [hrun, hlive])).trans ?_
  rw [h]

/-- A look-ahead decode with a failure reports that of the first source that fails (R255). -/
theorem lookaheadEnd_error {j : Nat} {f : HrcFail} (h : d.decodeAll (d.entry i).desc = .error (j, f)) :
    d.lookaheadEnd i = d.codecError i j f := by
  refine (if_neg (by simp [hrun, hlive])).trans ?_
  rw [h]

end

/-- A look-ahead error fails the decode and is posted; where none is latched yet, its cause is latched with the stream, the
source and the imprint (R255, R256). -/
theorem codecError_eq (i j : Nat) (f : HrcFail) (d : Dev) : ∃ c n,
    d.codecError i j f = (({ d with codec := c, free := n } : Dev).modEntry i fun e => { e with decode := .failed }).raise 81 0 ∧
    (d.codec.errValid = false → c.errValid = true ∧ c.errCause = f.cause.code ∧ c.errStream = (d.entry i).stream ∧
      c.errSource = j ∧ c.errId = (d.entry i).desc.id) := by
  unfold Dev.codecError
  dsimp only
  cases hv : d.codec.errValid with
  | true => exact ⟨_, d.free, rfl, nofun⟩
  | false =>
    cases hb : f.block with
    | none => exact ⟨_, _, rfl, fun _ => ⟨rfl, rfl, rfl, rfl, rfl⟩⟩
    | some b => exact ⟨_, _, rfl, fun _ => ⟨rfl, rfl, rfl, rfl, rfl⟩⟩

theorem codecError_entry (i j : Nat) (f : HrcFail) (d : Dev) :
    (d.codecError i j f).entry i = { d.entry i with decode := .failed } := by
  obtain ⟨c, n, heq, -⟩ := codecError_eq i j f d
  rw [heq, raise_entry]
  exact Dev.entry_modEntry ..

theorem codecError_latched {i j : Nat} {f : HrcFail} {d : Dev} (h : d.codec.errValid = false) :
    let c := (d.codecError i j f).codec
    c.errValid = true ∧ c.errCause = f.cause.code ∧ c.errStream = (d.entry i).stream ∧ c.errSource = j ∧
      c.errId = (d.entry i).desc.id := by
  obtain ⟨c, n, heq, hlatch⟩ := codecError_eq i j f d
  rw [heq]
  exact hlatch h

/-! ### The capture queues -/

/-- The device with record r of stream n moved from the capture store to the host (R286). -/
def recordSent (n : Nat) (r : CapRec) (d : Dev) : Dev :=
  (({ d.takeFree.2 with codec := { d.codec with store := d.codec.store.erase r } } : Dev).modCapq n fun q =>
    { q with tail := (q.tail + r.bytes) % 2 ^ 32 }).send
      (.capture n (r.header (d.takeFree.1 % 2 = 1) ++ r.block.lines.flatten))

theorem recordSent_capq (n : Nat) (r : CapRec) (d : Dev) :
    (recordSent n r d).capq n = { d.capq n with tail := ((d.capq n).tail + r.bytes) % 2 ^ 32 } := by
  rw [recordSent, send_capq]
  exact Dev.capq_modCapq ..

theorem recordSent_capq_ne {n m : Nat} (r : CapRec) (d : Dev) (h : m ≠ n) : (recordSent n r d).capq m = d.capq m := by
  rw [recordSent, send_capq]
  exact Dev.capq_modCapq_ne _ _ _ _ h

theorem deliverRecord_none {d : Dev} {n : Nat} (h : d.codec.store.find? (fun (r : CapRec) => r.stream = n) = none) :
    d.deliverRecord n = d := by
  unfold Dev.deliverRecord
  rw [h]

section
variable {d : Dev} {n : Nat} {r : CapRec} (h : d.codec.store.find? (fun (r : CapRec) => r.stream = n) = some r)
include h

/-- A record that does not fit waits (R286). -/
theorem deliverRecord_full (hfits : (d.capq n).fits r.bytes = false) : d.deliverRecord n = d := by
  unfold Dev.deliverRecord
  rw [h]
  exact if_pos (by simp [hfits])

theorem deliverRecord_fits (hfits : (d.capq n).fits r.bytes = true) (hraw : r.raw = false) :
    d.deliverRecord n = (recordSent n r d).flushEnd n true := by
  unfold Dev.deliverRecord
  rw [h]
  exact if_neg (by simp [hfits, hraw])

end

/-- No STAGE_CAPTURE waits for the end of a flush (R271). -/
theorem flushEnd_idle {d : Dev} {n : Nat} (h : (d.capq n).flush = none) (any : Bool) : d.flushEnd n any = d :=
  if_pos (by simp [h])

/-- CAPTURE_RECORD_DELIVER of a record that fits (R286). -/
theorem captureRecordDeliver_goes {s : State} (hs : Settled s) (hon : s.dev.on 4 = true) {n : Nat} {r : CapRec}
    (h : s.dev.codec.store.find? (fun (r : CapRec) => r.stream = n) = some r) (hfits : (s.dev.capq n).fits r.bytes = true)
    (hraw : r.raw = false) (hflush : (s.dev.capq n).flush = none) :
    Goes (.captureRecordDeliver n) s fun t =>
      t.dev.codec.store = s.dev.codec.store.erase r ∧
      t.dev.capq n = { s.dev.capq n with tail := ((s.dev.capq n).tail + r.bytes) % 2 ^ 32 } ∧
      (∃ v, t.dev.out = .capture n (r.header v ++ r.block.lines.flatten) :: s.dev.out) ∧
      (∀ m, m ≠ n → t.dev.capq m = s.dev.capq m) ∧
      Only { s.dev with codec := t.dev.codec, free := t.dev.free, out := t.dev.out } s t := by
  have hidle : (recordSent n r s.dev).flushEnd n true = recordSent n r s.dev :=
    flushEnd_idle (by rw [recordSent_capq]; exact hflush) true
  exact ⟨_, inDomain_run (g := recordSent n r) hon ((deliverRecord_fits h hfits hraw).trans hidle) hs, rfl,
    recordSent_capq .., ⟨_, rfl⟩, fun m hm => recordSent_capq_ne r s.dev hm, rfl⟩

/-! ### STAGE_CAPTURE -/

/-- The port set a STAGE_CAPTURE asks for: none where it disables the capture (R266). -/
def askedPorts (p : Packet) : Nat := if p.flag 2 0 then p.fld 0 0 16 else 0

/-- The device with the port set of STAGE_CAPTURE waiting for the line boundary (R270). -/
def portsAsked (p : Packet) (d : Dev) : Dev := d.modCapq p.target fun q => { q with newPorts := some (askedPorts p) }

/-- The device with the port set and the flush of STAGE_CAPTURE waiting for the line boundary (R271). -/
def flushAsked (p : Packet) (d : Dev) : Dev :=
  (portsAsked p d).modCapq p.target fun q => { q with flush := some p.ref, flushDue := true }

theorem portsAsked_capq (p : Packet) (d : Dev) :
    (portsAsked p d).capq p.target = { d.capq p.target with newPorts := some (askedPorts p) } := Dev.capq_modCapq ..

theorem flushAsked_capq (p : Packet) (d : Dev) : (flushAsked p d).capq p.target =
    { d.capq p.target with newPorts := some (askedPorts p), flush := some p.ref, flushDue := true } :=
  (Dev.capq_modCapq ..).trans (by rw [portsAsked_capq])

section
variable {p : Packet} {d : Dev}

theorem runStageCapture_sets (h : p.flag 2 1 = false) :
    runStageCapture p d = (portsAsked p d).complete p.ref .done 0 0 := if_pos (by simp [h])

theorem runStageCapture_flushes (h : p.flag 2 1 = true) : runStageCapture p d =
    if d.captureAny p.target = false then (portsAsked p d).complete p.ref .doneEmpty 0 0
    else (flushAsked p d).executing p := by
  have hany : (portsAsked p d).captureAny p.target = d.captureAny p.target := rfl
  rw [← hany]
  refine (if_neg (by simp [h])).trans ?_
  simp only [Bool.not_eq_true']
  rfl

end

/-- A STAGE_CAPTURE that completes at once stores its port set, and changes no other capture queue and no other unit. -/
theorem stageCapture_does {s : State} {p : Packet} (h : Ready 0x0306 p s) (hc : chkStageCapture p s.dev = none) {st : Status}
    (hrun : runStageCapture p s.dev = (portsAsked p s.dev).complete p.ref st 0 0) :
    Does (.stageCapture p.ring p.seq) p st 0 0 s fun t =>
      t.dev.capq p.target = { s.dev.capq p.target with newPorts := some (askedPorts p) } ∧
      (∀ m, m ≠ p.target → t.dev.capq m = s.dev.capq m) ∧ Only { Dev.ringed s.dev t.dev with codec := t.dev.codec } s t := by
  obtain ⟨hnext, hcompleted⟩ := does_of h hc _ st 0 0 hrun rfl (pre := []) rfl h.1
  exact ⟨_, hnext, hcompleted, (complete_capq_at ..).trans (portsAsked_capq ..),
    fun m hm => (complete_capq_at ..).trans (Dev.capq_modCapq_ne _ _ _ _ hm), only_complete_codec rfl ..⟩

/-- A STAGE_CAPTURE that flushes open blocks executes until the flush ends (R271). -/
theorem stageCapture_executes {s : State} {p : Packet} (h : Ready 0x0306 p s) (hc : chkStageCapture p s.dev = none)
    (hflush : p.flag 2 1 = true) (hany : s.dev.captureAny p.target = true) :
    Goes (.stageCapture p.ring p.seq) s fun t =>
      t.dev.capq p.target = { s.dev.capq p.target with
        newPorts := some (askedPorts p), flush := some p.ref, flushDue := true } ∧
      t.dev.out = s.dev.out ∧ Only { s.dev with codec := t.dev.codec, rings := t.dev.rings } s t := by
  have hrun := (runStageCapture_flushes (d := s.dev) hflush).trans (if_neg (ne_false_of_eq_true hany))
  exact ⟨_, opRow_done (g := fun d => (flushAsked p d).executing p) h hc hrun h.1, flushAsked_capq .., rfl, rfl⟩

/-- Settles O36, event by event and for each form of STAGE_CAPTURE; NOT_SMALLER of a delivered record is a free value (log
entry 5). -/
theorem codecEventsDecodeCaptureAndDeliver : Obligations.CodecEventsDecodeCaptureAndDeliver := by
  unfold Obligations.CodecEventsDecodeCaptureAndDeliver
  refine fun s hs => ⟨fun hon => ⟨lookaheadDecodeStart_next hs hon, fun i hrun hlive => ?_, fun i a b => ?_,
    fun i a b hlive hok => ?_, fun n v => ?_, fun n hno => ?_, fun n r hr => ⟨fun hfull => ?_, fun hfits hraw hflush => ?_⟩⟩,
    fun p h hc => ⟨fun hset => ?_, fun hflush hany => ?_, fun hflush hany => ?_⟩⟩
  · exact ⟨fun l hl => inDomain_run hon (lookaheadEnd_ok hrun hlive hl) hs, fun j f hf =>
      ⟨inDomain_post hon (lookaheadEnd_error hrun hlive hf), codecError_entry i j f s.dev, codecError_latched⟩⟩
  · exact inDomain_stay hon hs rfl
  · exact inDomain_post hon (if_pos (by simp [hlive, hok]))
  · exact inDomain_run hon rfl hs
  · exact inDomain_stay hon hs (deliverRecord_none hno)
  · exact inDomain_stay hon hs (deliverRecord_full hr hfull)
  · exact captureRecordDeliver_goes hs hon hr hfits hraw hflush
  · exact stageCapture_does h hc (runStageCapture_sets hset)
  · obtain ⟨t, hnext, hcompleted, hports, -, honly⟩ :=
      stageCapture_does h hc ((runStageCapture_flushes hflush).trans (if_pos hany))
    exact ⟨t, hnext, hcompleted, hports, honly⟩
  · exact stageCapture_executes h hc hflush hany

end Sys2Proof.Proofs
end

section
/-! The lines of error diffusion, the density tables after a power cycle, and the SCR commands (spec chapter 6). -/

namespace Sys2Proof.Proofs

open Sys2Proof.Machine Sys2Proof.Laws

/-! ### Error diffusion -/

/-- Where a line starts: nothing is fired yet and no carry is built (R306). -/
def lineStart (w : Nat) : Diffusing := { out := [], f1 := 0, f2 := 0, next := List.replicate w 0, sats := 0 }

theorem passed_start (f : Diff) (status v : Nat → Nat) (cur : List Int) (w : Nat) :
    Passed f status v cur w 0 (lineStart w) where
  len := rfl
  max := fun _ hk => absurd hk List.not_mem_nil
  zero := fun _ hq => absurd hq (Nat.not_lt_zero _)
  nlen := List.length_replicate
  range := fun x hx => by rw [List.eq_of_mem_replicate hx]; decide
  dis := fun _ _ => (List.getD_eq_getElem?_getD ..).trans (List.getElem?_getD_replicate_default_eq ..)
  f1 := fun _ => rfl
  f2 := fun _ => rfl
  total := fun _ => by simp [lineStart]

/-- The invariant of the procedure of R306 holds after each of the line's positions. -/
theorem passed_foldl (f : Diff) (status v : Nat → Nat) (cur : List Int) {w p : Nat} (hp : p ≤ w) :
    Passed f status v cur w p ((List.range p).foldl (f.step status v cur w) (lineStart w)) := by
  induction p with
  | zero => exact passed_start f status v cur w
  | succ p ih =>
    rw [List.range_succ, List.foldl_append]
    exact passed_step hp (ih (Nat.le_of_succ_le hp))

/-- Settles O52: the invariant after the last position, where no carry passes on along the line. -/
theorem diffusionLosesNoTone : Obligations.DiffusionLosesNoTone := by
  unfold Obligations.DiffusionLosesNoTone
  intro f status v cur w _ r sum
  have h : Passed f status v cur w w _ := passed_foldl f status v cur (Nat.le_refl w)
  refine ⟨List.length_reverse.trans h.len, fun k hk => h.max k (List.mem_reverse.mp hk), h.zero, h.nlen, h.range, h.dis,
    fun hsats => ?_⟩
  have htotal := h.total hsats
  rw [h.f1 (Or.inl (Nat.le_refl w)), h.f2 (Or.inl (Nat.le_succ w)), add_zero, add_zero] at htotal
  exact htotal

/-! ### Density entries at reset -/

theorem sst_of_reset {d : Dev} (h : d.scr = Scr.reset) (k : Nat) : d.sst k = ScrStream.reset := by
  unfold Dev.sst; rw [h]; rfl

/-- After a cold reset every density entry is at unity and no table is pending (R294). -/
theorem coldBoot_density (c : Nat) (s : State) (k position : Nat) :
    ((s.coldBoot c).dev.sst k).densityPend = none ∧
    Tab.get Density.reset ((s.coldBoot c).dev.sst k).density position = { gain := 1024, offset := 0 } := by
  obtain ⟨-, -, hscr, -⟩ := coldBoot_units c s
  rw [sst_of_reset hscr]
  exact ⟨rfl, rfl⟩

/-- Settles O7: POWER_ON and the end of the off time are both cold resets. -/
theorem powerCycleLeavesEveryDensityEntryAtUnity : Obligations.PowerCycleLeavesEveryDensityEntryAtUnity := by
  unfold Obligations.PowerCycleLeavesEveryDensityEntryAtUnity
  exact ⟨fun s => ⟨_, rfl, coldBoot_density 1 s⟩, fun s hon hoff =>
    ⟨_, inDomainS_run hon (if_pos hoff) (coldBooted_settled (coldBoot_spec 2 s)), coldBoot_density 2 s⟩⟩

/-! ### Table loads -/

/-- A row whose effect g differs from the device in the screening unit only: what the state after g's completion satisfies,
its command does (R107). -/
theorem scrRow_does {op : Nat} {p : Packet} {s : State} {c : Instr} {chk : Packet → Dev → Option Status}
    {f : Packet → Dev → Dev} {g : Dev} {P Q : State → Prop} (h : Ready op p s) (hc : chk p s.dev = none)
    (hexec : exec c s = opRow op chk (onPkt f) p.ring p.seq s) (hf : f p s.dev = g.complete p.ref .done 0 0)
    (hg : g = { s.dev with scr := g.scr }) (hP : P { s with dev := g.complete p.ref .done 0 0 })
    (hQ : Q { s with dev := g.complete p.ref .done 0 0 }) :
    Does c p .done 0 0 s fun t => P t ∧ Q t ∧ Only { Dev.ringed s.dev t.dev with scr := t.dev.scr } s t := by
  obtain ⟨hnext, hcompleted⟩ := does_of h hc g .done 0 0 hf (by rw [hg]) (pre := []) (by rw [hg]; rfl)
    (by rw [hg]; exact h.1)
  exact ⟨_, hexec.trans hnext, hcompleted, hP, hQ, only_complete_scr hg ..⟩

/-- The density entries that SCR_LOAD_DENSITY carries (R295). -/
def loadedDensities (p : Packet) (d : Dev) : List Density :=
  (List.range (p.fld 12 0 32)).map fun i =>
    { gain := (words16 (d.tableBytes 16 p)).getD (2 * i) 0
      offset := sInt 12 ((words16 (d.tableBytes 16 p)).getD (2 * i + 1) 0) }

/-- A density table with the entries of SCR_LOAD_DENSITY at the positions it names (R322). -/
def densityLoaded (p : Packet) (d : Dev) (tab : Tab Density) : Tab Density :=
  ((loadedDensities p d).zipIdx (p.fld 8 0 32)).foldl (fun t e => Tab.set e.2 e.1 t) tab

theorem densityLoaded_get (p : Packet) (d : Dev) (tab : Tab Density) (i : Nat) :
    Tab.get Density.reset (densityLoaded p d tab) i =
      if p.fld 8 0 32 ≤ i ∧ i < p.fld 8 0 32 + p.fld 12 0 32 then
        { gain := (words16 (d.tableBytes 16 p)).getD (2 * (i - p.fld 8 0 32)) 0
          offset := sInt 12 ((words16 (d.tableBytes 16 p)).getD (2 * (i - p.fld 8 0 32) + 1) 0) }
      else Tab.get Density.reset tab i := by
  have hlen : (loadedDensities p d).length = p.fld 12 0 32 := by simp [loadedDensities]
  unfold densityLoaded
  rw [foldl_set, hlen]
  split
  next hi =>
    have hlt : i - p.fld 8 0 32 < p.fld 12 0 32 := by omega
    simp [loadedDensities, List.getD_eq_getElem?_getD, hlt]
  next => rfl

/-! ### SCR_REINIT -/

theorem spoilAll_idle {d : Dev} {k : Nat} (h : d.onWeb k = []) (reason : Nat) : d.spoilAll k reason = d := by
  unfold Dev.spoilAll; rw [h]; rfl

theorem discardScreened_entry (k : Nat) (d : Dev) (i : Nat) :
    (d.discardScreened k).entry i = if i ∈ (d.ist k).queue then unscreened (d.entry i) else d.entry i :=
  (modSst_entry ..).trans (forL_modEntry unscreened unscreened_idem ..)

theorem discardScreened_sst (k : Nat) (d : Dev) : ((d.discardScreened k).sst k).cur = none :=
  congrArg ScrStream.cur (Dev.sst_modSst ..)

theorem discardScreened_ist (k : Nat) (d : Dev) (j : Nat) : (d.discardScreened k).ist j = d.ist j :=
  forL_modEntry_ist unscreened _ d j

theorem discardScreened_frame (k : Nat) (d : Dev) :
    d.discardScreened k = { d with imp := (d.discardScreened k).imp, scr := (d.discardScreened k).scr } := by
  have h : d.discardScreened k =
    (forL (d.ist k).queue (fun i d => d.modEntry i unscreened) d).modSst k (fun x => { x with cur := none }) := rfl
  rw [h, forL_modEntry_imp unscreened]
  rfl

/-- SCR_REINIT of a stream with nothing on the web; a STAGED imprint keeps its state (R334, log entry 61). -/
theorem scrReinit_does {s : State} {p : Packet} (h : Ready 0x04FF p s) (hweb : s.dev.onWeb p.target = []) :
    Does (.scrReinit p.ring p.seq) p .done 0 0 s fun t =>
      (∀ i, i ∈ (s.dev.ist p.target).queue → (s.dev.entry i).onWeb = false →
        t.dev.entry i = { s.dev.entry i with lines := [], carry := [], staged := false }) ∧
      (∀ i, i ∉ (s.dev.ist p.target).queue → t.dev.entry i = s.dev.entry i) ∧ (t.dev.sst p.target).cur = none ∧
      (∀ k, t.dev.ist k = s.dev.ist k) ∧ Only { Dev.ringed s.dev t.dev with imp := t.dev.imp, scr := t.dev.scr } s t := by
  have hframe := discardScreened_frame p.target s.dev
  have hrun : runScrReinit p s.dev = (s.dev.discardScreened p.target).complete p.ref .done 0 0 := by
    unfold runScrReinit; rw [spoilAll_idle hweb]
  obtain ⟨hnext, hcompleted⟩ := does_of h (chk := chkScrReinit) (f := runScrReinit) rfl (s.dev.discardScreened p.target)
    .done 0 0 hrun (by rw [hframe]) (pre := []) (by rw [hframe]; rfl) (by rw [hframe]; exact h.1)
  refine ⟨_, hnext, hcompleted, fun i hi hoff => ?_, fun i hi => ?_, ?_, fun k => ?_, ?_⟩
  · rw [complete_entry_at, discardScreened_entry, if_pos hi]
    exact if_neg (ne_true_of_eq_false hoff)
  · rw [complete_entry_at, discardScreened_entry, if_neg hi]
  · rw [complete_sst_at, discardScreened_sst]
  · rw [complete_ist_at, discardScreened_ist]
  · refine congrArg (fun d => ({ s with dev := d } : State)) (frame_trans (e := s.dev.discardScreened p.target) ?_ ?_)
    · rw [hframe]; rfl
    · rw [complete_imp, complete_scr]; exact complete_frame ..

/-- Settles O51, row by row; SCR_REINIT leaves a STAGED imprint in its state (log entry 61). -/
theorem screeningTablesLoadAndReset : Obligations.ScreeningTablesLoadAndReset := by
  unfold Obligations.ScreeningTablesLoadAndReset
  refine fun s p => ⟨fun h hc => ?tone, fun h hc => ?density, fun h hc => ?thresh, fun h hc => ?diffusion,
    fun h hc => ?dropmap, scrReinit_does⟩
  case tone =>
    exact scrRow_does h hc rfl rfl rfl ((complete_sst_at ..).trans (Dev.sst_modSst ..))
      fun _ hj => (complete_sst_at ..).trans (Dev.sst_modSst_ne _ _ _ _ hj)
  case density =>
    exact scrRow_does h hc rfl rfl rfl ⟨_, (complete_sst_at ..).trans (Dev.sst_modSst ..), densityLoaded_get p s.dev _⟩
      fun _ hj => (complete_sst_at ..).trans (Dev.sst_modSst_ne _ _ _ _ hj)
  case thresh =>
    exact scrRow_does h hc rfl rfl rfl ((complete_thresh_at ..).trans (Dev.thresh_modThresh ..))
      fun _ hj => (complete_thresh_at ..).trans (Dev.thresh_modThresh_ne _ _ _ _ hj)
  case diffusion =>
    exact scrRow_does h hc rfl rfl rfl ((complete_diffSet_at ..).trans (Dev.diffSet_modDiffSet ..))
      fun _ hj => (complete_diffSet_at ..).trans (Dev.diffSet_modDiffSet_ne _ _ _ _ hj)
  case dropmap =>
    exact scrRow_does h hc rfl rfl rfl ((complete_dropMap_at ..).trans (Dev.dropMap_modDropMap ..))
      fun _ hj => (complete_dropMap_at ..).trans (Dev.dropMap_modDropMap_ne _ _ _ _ hj)

end Sys2Proof.Proofs
end

section
/-! Commands that schedule a change for a line boundary of a stream (spec chapters 7 to 9). -/

namespace Sys2Proof.Proofs

open Sys2Proof.Machine Sys2Proof.Laws

/-- The change that packet p schedules on stream k for line u, with the placements it loads (R376, R375). -/
def scheduledChange (d : Dev) (k : Nat) (p : Packet) (u : Int) (table : List Nat) : Change :=
  { Change.reset with
    op := p.op, target := p.target, boundary := some u, earliest := d.earliestLine k, payload := p.payload, table := table }

/-- The device with change c behind the other changes of stream k. -/
def withChange (k : Nat) (c : Change) (d : Dev) : Dev := d.modNst k fun x => { x with changes := x.changes ++ [c] }

/-- The device with the pending map of stream k handed to screening (R357). -/
def mapHanded (k : Nat) (d : Dev) : Dev := d.modNst k fun x => { x with statusNext := x.statusPend.getD x.status }

/-- The boundary named by WHEN and APPLY_WP is line u, and no AT_WP position is too near (R376, R377). -/
def TakesLine (d : Dev) (k when_ wp : Nat) (u : Int) : Prop :=
  d.boundaryOf k when_ wp = some u ∧ ¬ (when_ = 0 ∧ d.tooNear k wp = true)

/-- No change of stream k still waits for its boundary. -/
def NoneWaits (d : Dev) (k : Nat) : Prop := ∀ x ∈ (d.nst k).changes, x.boundary.isSome = true

section
variable {op : Nat} {p : Packet} {s : State} {c : Instr} {chk : Packet → Dev → Option Status} {f : Packet → Dev → Dev}
  {k : Nat} {u : Int} {when_ wp : Nat} {table : List Nat} (h : Ready op p s) (hc : chk p s.dev = none)
  (hexec : exec c s = opRow op chk (onPkt f) p.ring p.seq s)
include h hc hexec

/-- A row that schedules a change on a device e that differs from the state's in stream k only: stream k holds e's record
with the change behind the others, and the command completes with the WP of its line (R378). -/
theorem scheduleFrom_does {e : Dev} (hrun : f p s.dev = e.schedule k p when_ wp table)
    (he : e = { s.dev with noz := e.noz }) (hother : ∀ j, j ≠ k → e.nst j = s.dev.nst j) (hwait : NoneWaits e k)
    (hline : TakesLine e k when_ wp u) :
    Does c p .done (wpOf u) 0 s fun t =>
      t.dev.nst k = { e.nst k with changes := (e.nst k).changes ++ [scheduledChange e k p u table] } ∧
      (∀ j, j ≠ k → t.dev.nst j = s.dev.nst j) ∧ Only { Dev.ringed s.dev t.dev with noz := t.dev.noz } s t := by
  obtain ⟨hboundary, hfar⟩ := hline
  have hg : withChange k (scheduledChange e k p u table) e =
      { s.dev with noz := (withChange k (scheduledChange e k p u table) e).noz } :=
    congrArg (fun d : Dev => { d with noz := (withChange k (scheduledChange e k p u table) e).noz }) he
  obtain ⟨hnext, hcompleted⟩ := does_of h hc (withChange k (scheduledChange e k p u table) e) .done (wpOf u) 0
    (hrun.trans (schedule_spec hwait hboundary hfar)) (by rw [hg]) (pre := []) (by rw [hg]; rfl) (by rw [hg]; exact h.1)
  refine ⟨_, hexec.trans hnext, hcompleted, ?_, fun j hj => ?_, only_complete_noz hg ..⟩
  · exact (complete_nst_at ..).trans (Dev.nst_modNst ..)
  · exact ((complete_nst_at ..).trans (Dev.nst_modNst_ne _ _ _ _ hj)).trans (hother j hj)

/-- A row that only schedules a change on stream k. -/
theorem schedule_does (hrun : f p s.dev = s.dev.schedule k p when_ wp table) (hwait : NoneWaits s.dev k)
    (hline : TakesLine s.dev k when_ wp u) :
    Does c p .done (wpOf u) 0 s fun t =>
      t.dev.nst k = { s.dev.nst k with changes := (s.dev.nst k).changes ++ [scheduledChange s.dev k p u table] } ∧
      (∀ j, j ≠ k → t.dev.nst j = s.dev.nst j) ∧ Only { Dev.ringed s.dev t.dev with noz := t.dev.noz } s t :=
  scheduleFrom_does h hc hexec hrun rfl (fun _ _ => rfl) hwait hline

end

/-- NOZ_SWAP_STATUS hands the pending map to screening and schedules the swap for firing (R356, R357). -/
theorem nozSwapStatus_does {s : State} {p : Packet} {u : Int} (h : Ready 0x0502 p s) (hc : chkNozSwapStatus p s.dev = none)
    (hwait : NoneWaits s.dev p.target) (hline : TakesLine s.dev p.target (p.fld 0 0 2) (p.fld 8 0 48) u) :
    Does (.nozSwapStatus p.ring p.seq) p .done (wpOf u) 0 s fun t =>
      t.dev.nst p.target = { s.dev.nst p.target with
        changes := (s.dev.nst p.target).changes ++ [scheduledChange s.dev p.target p u []]
        statusNext := (s.dev.nst p.target).statusPend.getD (s.dev.nst p.target).status } ∧
      (∀ j, j ≠ p.target → t.dev.nst j = s.dev.nst j) ∧ Only { Dev.ringed s.dev t.dev with noz := t.dev.noz } s t := by
  have hk : (mapHanded p.target s.dev).nst p.target = { s.dev.nst p.target with
      statusNext := (s.dev.nst p.target).statusPend.getD (s.dev.nst p.target).status } := Dev.nst_modNst ..
  have hwait' : NoneWaits (mapHanded p.target s.dev) p.target := by unfold NoneWaits; rw [hk]; exact hwait
  obtain ⟨t, hnext, hcompleted, hstream, hframe⟩ := scheduleFrom_does h hc (c := .nozSwapStatus p.ring p.seq) rfl
    (e := mapHanded p.target s.dev) rfl rfl (fun _ hj => Dev.nst_modNst_ne _ _ _ _ hj) hwait' hline
  rw [hk] at hstream
  exact ⟨t, hnext, hcompleted, hstream, hframe⟩

/-- The offsets of a head that is not UP are scheduled and not sent (R375, R487). -/
theorem runNozLoadOffsets_notUp {p : Packet} {d : Dev} (hdown : (d.hp p.target).st ≠ .up) :
    runNozLoadOffsets p d =
      d.schedule (d.streamAt p.target) p (p.fld 0 1 2) (p.fld 16 0 48) (words16 (d.tableBytes 24 p)) := by
  unfold runNozLoadOffsets Dev.when
  simp only [hdown, decide_false, Bool.false_eq_true, if_false]

/-- HEAD_SELECT_WAVE on a port of stream k is a scheduled change of k (R492). -/
theorem runHeadSelectWave_stream {p : Packet} {d : Dev} {k : Nat} (hk : d.streamOf p.target = some k) :
    runHeadSelectWave p d = d.schedule k p (p.fld 0 0 2) (p.fld 8 0 48) [] := by
  unfold runHeadSelectWave; rw [hk]

/-- HEAD_SELECT_WAVE on a port of no stream selects the slot at once (R492). -/
theorem headSelectWave_atOnce {s : State} {p : Packet} (h : Ready 0x0703 p s) (hc : chkHeadSelectWave p s.dev = none)
    (hk : s.dev.streamOf p.target = none) :
    Does (.headSelectWave p.ring p.seq) p .done unknownWp 0 s fun t =>
      t.dev.hp p.target = { s.dev.hp p.target with slot := p.fld 0 2 3 } ∧
      (∀ j, j ≠ p.target → t.dev.hp j = s.dev.hp j) ∧ Only { Dev.ringed s.dev t.dev with hl := t.dev.hl } s t := by
  have hrun : runHeadSelectWave p s.dev =
      (s.dev.modHp p.target fun x => { x with slot := p.fld 0 2 3 }).complete p.ref .done unknownWp 0 := by
    unfold runHeadSelectWave; rw [hk]
  obtain ⟨hnext, hcompleted⟩ := does_of h hc _ .done unknownWp 0 hrun rfl (pre := []) rfl h.1
  refine ⟨_, hnext, hcompleted, ?_, fun j hj => ?_, only_complete_hl rfl ..⟩
  · exact (complete_hp_at ..).trans (Dev.hp_modHp ..)
  · exact (complete_hp_at ..).trans (Dev.hp_modHp_ne _ _ _ _ hj)

/-- Settles O39, row by row. -/
theorem scheduledChangesTakeTheirBoundary : Obligations.ScheduledChangesTakeTheirBoundary := by
  unfold Obligations.ScheduledChangesTakeTheirBoundary
  intro s p k u hwait
  refine ⟨fun h hc hk hline => ?swapStatus, fun h hc hk hline => ?setStitch, fun h hc hk hline => ?setDelay,
    fun h hc hk hdown hline => ?loadOffsets, fun h hc hk hline => ?setDatum, fun h hc hk hline => ?register,
    fun h hc hk hline => ?selectWave, headSelectWave_atOnce⟩
  case swapStatus => subst hk; exact nozSwapStatus_does h hc hwait hline
  case setStitch => subst hk; exact schedule_does h hc rfl rfl hwait hline
  case setDelay => subst hk; exact schedule_does h hc rfl rfl hwait hline
  case loadOffsets => subst hk; exact schedule_does h hc rfl (runNozLoadOffsets_notUp hdown) hwait hline
  case setDatum => subst hk; exact schedule_does h hc rfl rfl hwait hline
  case register => subst hk; exact schedule_does h hc rfl rfl hwait hline
  case selectWave => exact schedule_does h hc rfl (runHeadSelectWave_stream hk) hwait hline

end Sys2Proof.Proofs
end

section
/-! Encoder transitions, index edges and signals, standstill and FSYNC edges (spec chapter 8). -/

namespace Sys2Proof.Proofs

open Sys2Proof.Machine Sys2Proof.Laws

/-! ### Counts -/

/-- A transition at TB_2 time now is not too near to the last one (R393). -/
def FarFromLast (x : Enc) (now : Nat) : Prop :=
  ∀ l, x.lastTrans = some l → l + max 40 (x.filterNs + 8) * 2 ^ 16 ≤ now

/-- The encoder with the levels and the instant of a transition taken over. -/
def withLevels (a b : Bool) (now : Nat) (x : Enc) : Enc := { x with a := a, b := b, lastTrans := some now }

/-- The encoder after a count at TB_2 time now, where its bases are settled (R403, R404, R408). -/
def countedAt (fwd a b : Bool) (now : Nat) (x : Enc) : Enc := Enc.counted fwd now (withLevels a b now x)

section
variable (fwd a b : Bool) (now : Nat) (x : Enc)

/-- Every count takes the levels and the instant, and moves the net count and the deficit (R403, R408). -/
theorem countedAt_moves :
    (countedAt fwd a b now x).a = a ∧ (countedAt fwd a b now x).b = b ∧ (countedAt fwd a b now x).lastTrans = some now ∧
    (countedAt fwd a b now x).edgeNs = now / 2 ^ 16 ∧
    (countedAt fwd a b now x).count = (if fwd then x.count + 1 else x.count - 1) ∧
    (countedAt fwd a b now x).deficit = (if fwd then x.deficit - 1 else satInc 32 x.deficit) := by
  unfold countedAt
  cases fwd with
  | false => exact ⟨rfl, rfl, rfl, rfl, rfl, rfl⟩
  | true =>
    rcases Nat.eq_zero_or_pos x.deficit with hzero | hpos
    · rw [counted_up now (withLevels a b now x) hzero]
      exact ⟨rfl, rfl, rfl, rfl, rfl, by rw [hzero]; exact hzero⟩
    · rw [counted_pay now (withLevels a b now x) hpos]
      exact ⟨rfl, rfl, rfl, rfl, rfl, rfl⟩

variable {fwd x}

/-- A forward count without a deficit raises M and moves x_e (R404, R408). -/
theorem countedAt_raises (hfwd : fwd = true) (hzero : x.deficit = 0) :
    (countedAt fwd a b now x).m = x.m + 1 ∧ (countedAt fwd a b now x).tE = now ∧
    (countedAt fwd a b now x).xE = x.wpBase + 64 * x.ratio * (x.m + 1 - x.mBase) / 2 ^ 16 := by
  unfold countedAt
  rw [hfwd, counted_up now (withLevels a b now x) hzero]
  exact ⟨rfl, rfl, rfl⟩

/-- A backward count, and a forward one that pays back a deficit, leave M and x_e (R408). -/
theorem countedAt_rests (h : fwd = false ∨ 0 < x.deficit) :
    (countedAt fwd a b now x).m = x.m ∧ (countedAt fwd a b now x).xE = x.xE ∧ (countedAt fwd a b now x).tE = x.tE := by
  unfold countedAt
  cases fwd with
  | false => exact ⟨rfl, rfl, rfl⟩
  | true =>
    rw [counted_pay now (withLevels a b now x) (h.resolve_left Bool.noConfusion)]
    exact ⟨rfl, rfl, rfl⟩

end

/-! ### The source -/

/-- Without a FIRE_REINIT that executes, nothing completes (R412). -/
theorem endReinit_none {d : Dev} (h : d.fire.reinits = []) : d.endReinit = d := by
  unfold Dev.endReinit
  rw [h]
  exact congrArg (fun l => ({ d with fire := { d.fire with reinits := l } } : Dev)) h.symm

/-- The device with the last WP at w. -/
def withLastWp (w : Int) (d : Dev) : Dev := { d with fire := { d.fire with lastWp := w } }

/-- A count of the source that raises M, no deficit before or after it, moves the last WP and does nothing else. -/
theorem sourceCounted_raises {before : Enc} {d : Dev} (hm : (d.enc d.fire.src).m ≠ before.m)
    (hdeficit : (d.enc d.fire.src).deficit = 0) (hbefore : before.deficit = 0) (hreinits : d.fire.reinits = []) :
    d.sourceCounted before = withLastWp (d.enc d.fire.src).xE d := by
  unfold Dev.sourceCounted
  simp only [hm, hdeficit, hbefore, if_false, Nat.lt_irrefl, Nat.not_lt_zero, decide_false, Bool.false_and, Bool.and_false,
    Bool.false_eq_true]
  exact endReinit_none hreinits

/-! ### Transitions -/

/-- Where an encoder in use with a signal changes A or B alone, the first three cases of a transition do not hold. -/
theorem single_change {α : Type} {x : Enc} {a b : Bool} (hlive : x.role ≠ 0 ∧ x.signalOk = true)
    (hone : xor (x.a = a) (x.b = b) = true) (same unheard illegal single : α) :
    (if x.a = a && x.b = b then same
      else if x.role = 0 || !x.signalOk then unheard
      else if !(x.a = a) && !(x.b = b) then illegal else single) = single := by
  obtain ⟨hrole, hsignal⟩ := hlive
  by_cases ha : x.a = a
  · have hb : x.b ≠ b := by simpa [ha] using hone
    simp [ha, hb, hrole, hsignal]
  · have hb : x.b = b := by simpa [ha] using hone
    simp [ha, hb, hrole, hsignal]

/-- Only the encoder's own record says what a change of it gives. -/
theorem modEnc_congr {d : Dev} {e : Nat} {f g : Enc → Enc} (h : f (d.enc e) = g (d.enc e)) : d.modEnc e f = d.modEnc e g := by
  unfold Dev.modEnc; rw [h]

/-- Does the step to levels a and b count forward (R391)? -/
def countsForward (x : Enc) (a b : Bool) : Bool := xor (isForward x.a x.b a b) x.invert

/-- The count moves nothing but its encoder and the last WP: it is not the source's, or it raises the M of a source without a
deficit while no FIRE_REINIT executes. -/
def PlainCount (d : Dev) (e : Nat) (a b : Bool) : Prop :=
  (d.fire.src ≠ e ∨ d.fire.lost = true) ∨
    (countsForward (d.enc e) a b = true ∧ (d.enc e).deficit = 0 ∧ d.fire.reinits = [])

/-- The device after a count of encoder e (R391). -/
def countOf (e : Nat) (a b : Bool) (ago : Nat) (d : Dev) : Dev :=
  d.modEnc e (countedAt (countsForward (d.enc e) a b) a b (d.time.tb2 - ago))

section
variable {d : Dev} {e : Nat} {a b : Bool} {ago : Nat}

theorem onEncoderTransition_same (h : (d.enc e).a = a ∧ (d.enc e).b = b) : d.onEncoderTransition e a b ago = d := by
  unfold Dev.onEncoderTransition
  simp only [h, decide_true, Bool.and_self, if_true]

theorem onEncoderTransition_unheard (h : ¬ ((d.enc e).a = a ∧ (d.enc e).b = b))
    (hdead : (d.enc e).role = 0 ∨ (d.enc e).signalOk = false) :
    d.onEncoderTransition e a b ago = d.modEnc e fun x => { x with a := a, b := b } := by
  unfold Dev.onEncoderTransition
  simp only [← Bool.decide_and, h, decide_false, Bool.false_eq_true, if_false]
  exact if_pos (by simpa using hdead)

variable (hlive : (d.enc e).role ≠ 0 ∧ (d.enc e).signalOk = true)
include hlive

theorem onEncoderTransition_illegal (ha : (d.enc e).a ≠ a) (hb : (d.enc e).b ≠ b) :
    d.onEncoderTransition e a b ago = ((d.modEnc e fun x => { x with
      a := a, b := b, lastTrans := some (d.time.tb2 - ago), illegal := true
      illegalCount := satInc 32 x.illegalCount }).raise (2 + e) 0).sourceFails e := by
  obtain ⟨hrole, hsignal⟩ := hlive
  unfold Dev.onEncoderTransition
  simp [ha, hb, hrole, hsignal]

variable (hone : xor ((d.enc e).a = a) ((d.enc e).b = b) = true)
include hone

theorem onEncoderTransition_near (hnear : ¬ FarFromLast (d.enc e) (d.time.tb2 - ago)) :
    d.onEncoderTransition e a b ago = ((d.modEnc e fun x => { x with
      a := a, b := b, lastTrans := some (d.time.tb2 - ago), rateErr := true }).raise (4 + e) 0).sourceFails e := by
  unfold FarFromLast at hnear
  push Not at hnear
  obtain ⟨l, hl, hlt⟩ := hnear
  unfold Dev.onEncoderTransition
  exact (single_change hlive hone ..).trans (if_pos (by rw [hl]; exact decide_eq_true hlt))

/-- A transition of A or B alone, far enough from the last, is a count (R391, R393). -/
theorem onEncoderTransition_counts (hfar : FarFromLast (d.enc e) (d.time.tb2 - ago)) (hbase : (d.enc e).rebase = false) :
    d.onEncoderTransition e a b ago =
      if d.fire.src = e ∧ d.fire.lost = false then (countOf e a b ago d).sourceCounted (d.enc e) else countOf e a b ago d := by
  have hsource : (decide (d.fire.src = e) && !d.fire.lost) = true ↔ d.fire.src = e ∧ d.fire.lost = false := by simp
  have hcount : ∀ wp : Int, (d.modEnc e fun x => Enc.counted (countsForward (d.enc e) a b) (d.time.tb2 - ago)
      (Enc.rebased wp (withLevels a b (d.time.tb2 - ago) x))) = countOf e a b ago d := fun wp =>
    modEnc_congr (congrArg _ (if_neg (by simp [withLevels, hbase])))
  simp only [← hsource, ← hcount (if d.fire.src = e then d.fire.lastWp else (d.enc e).xE)]
  unfold Dev.onEncoderTransition
  refine (single_change hlive hone ..).trans (if_neg ?_)
  cases hl : (d.enc e).lastTrans with
  | none => simp
  | some l => simpa using hfar l hl

/-- A plain count changes the encoder and, on the source, the last WP (R403, R404, R408). -/
theorem onEncoderTransition_moves (hfar : FarFromLast (d.enc e) (d.time.tb2 - ago)) (hbase : (d.enc e).rebase = false)
    (hplain : PlainCount d e a b) :
    d.onEncoderTransition e a b ago = withLastWp
      (if d.fire.src = e ∧ d.fire.lost = false then ((countOf e a b ago d).enc e).xE else d.fire.lastWp)
      (countOf e a b ago d) := by
  rw [onEncoderTransition_counts hlive hone hfar hbase]
  by_cases hsource : d.fire.src = e ∧ d.fire.lost = false
  case neg => rw [if_neg hsource, if_neg hsource]; rfl
  case pos =>
    rw [if_pos hsource, if_pos hsource]
    obtain ⟨hsrc, hfound⟩ := hsource
    obtain ⟨hfwd, hzero, hreinits⟩ := hplain.resolve_left (by simp [hsrc, hfound])
    have henc : (countOf e a b ago d).enc (countOf e a b ago d).fire.src = _ :=
      (congrArg (countOf e a b ago d).enc hsrc).trans (Dev.enc_modEnc ..)
    obtain ⟨hm, -, -⟩ := countedAt_raises a b (d.time.tb2 - ago) hfwd hzero
    obtain ⟨-, -, -, -, -, hdeficit⟩ := countedAt_moves true a b (d.time.tb2 - ago) (d.enc e)
    have hraise := sourceCounted_raises (before := d.enc e) (d := countOf e a b ago d) (by rw [henc, hm]; omega)
      (by rw [henc, hfwd, hdeficit, hzero]; rfl) hzero hreinits
    rw [hraise]
    exact congrArg (fun n => withLastWp ((countOf e a b ago d).enc n).xE _) hsrc

end

/-! ### Index edges and signals -/

section
variable {d : Dev} {e : Nat}

theorem onEncoderIndexEdge_first (hrole : (d.enc e).role ≠ 0) (hfirst : (d.enc e).lastIndex = none) :
    d.onEncoderIndexEdge e = d.modEnc e fun x => { x with lastIndex := some x.count } := by
  unfold Dev.onEncoderIndexEdge
  simp only [hrole, if_false, hfirst]

/-- A later index edge gives the span, and an error where it is out of tolerance (R396). -/
theorem onEncoderIndexEdge_later (hrole : (d.enc e).role ≠ 0) {l : Int} (hlater : (d.enc e).lastIndex = some l) {bad : Bool}
    (hbad : bad = true ↔ (d.enc e).perIndex ≠ 0 ∧
      ((d.enc e).indexTol : Int) < mag ((d.enc e).count - l - (d.enc e).perIndex)) :
    d.onEncoderIndexEdge e = (d.modEnc e fun x => { x with
      lastIndex := some x.count, indexSpan := x.count - l, indexErr := x.indexErr || bad }).when bad
        fun d => d.raise (6 + e) 0 := by
  have hb : (!decide ((d.enc e).perIndex = 0) &&
      decide (((d.enc e).indexTol : Int) < mag ((d.enc e).count - l - (d.enc e).perIndex))) = bad := by
    rw [Bool.eq_iff_iff, hbad]; simp
  unfold Dev.onEncoderIndexEdge
  simp only [hrole, if_false, hlater, hb]
  exact congrArg (fun d : Dev => d.when bad fun d => d.raise (6 + e) 0) (modEnc_congr rfl)

theorem onEncoderIndexEdge_within (hrole : (d.enc e).role ≠ 0) {l : Int} (hlater : (d.enc e).lastIndex = some l)
    (hspan : (d.enc e).perIndex = 0 ∨ mag ((d.enc e).count - l - (d.enc e).perIndex) ≤ (d.enc e).indexTol) :
    d.onEncoderIndexEdge e = d.modEnc e fun x => { x with lastIndex := some x.count, indexSpan := x.count - l } := by
  rw [onEncoderIndexEdge_later (bad := false) hrole hlater (by simpa [imp_iff_not_or] using hspan)]
  simp only [Bool.or_false]; rfl

theorem onEncoderIndexEdge_outside (hrole : (d.enc e).role ≠ 0) {l : Int} (hlater : (d.enc e).lastIndex = some l)
    (hspan : (d.enc e).perIndex ≠ 0 ∧ ((d.enc e).indexTol : Int) < mag ((d.enc e).count - l - (d.enc e).perIndex)) :
    d.onEncoderIndexEdge e = (d.modEnc e fun x => { x with
      lastIndex := some x.count, indexSpan := x.count - l, indexErr := true }).raise (6 + e) 0 := by
  rw [onEncoderIndexEdge_later (bad := true) hrole hlater (by simpa using hspan)]
  simp only [Bool.or_true]; rfl

end

/-! ### FSYNC edges -/

theorem when_not {c : Bool} {f : Dev → Dev} {d : Dev} (h : c = false) : d.when c f = d := by rw [h]; rfl

/-- The device after port q's FSYNC edge of line n at its time: stream k's armed lines become what g makes of the stream, the
head's lines what h makes of the port (R429, R442). -/
def edgeSent (q k at_ : Nat) (n : Int) (g : FireStream → FireStream) (h : HlPort → HlPort) (d : Dev) : Dev :=
  Dev.modHp q h (Dev.send (.fsync q at_ (twos 42 n)) ((d.modFst k g).modFport q fun y =>
    { y with fsyncNs := at_ / 2 ^ 16, fsyncCount := (y.fsyncCount + 1) % 2 ^ 32 }))

section
variable (q k at_ : Nat) (n : Int) (g : FireStream → FireStream) (h : HlPort → HlPort) (d : Dev)

theorem edgeSent_fport : (edgeSent q k at_ n g h d).fport q =
    { d.fport q with fsyncNs := at_ / 2 ^ 16, fsyncCount := ((d.fport q).fsyncCount + 1) % 2 ^ 32 } :=
  Dev.fport_modFport (d := d.modFst k g) (n := q) fun y =>
    { y with fsyncNs := at_ / 2 ^ 16, fsyncCount := (y.fsyncCount + 1) % 2 ^ 32 }

theorem edgeSent_frame : edgeSent q k at_ n g h d = { d with
    fire := (edgeSent q k at_ n g h d).fire, hl := (edgeSent q k at_ n g h d).hl, out := (edgeSent q k at_ n g h d).out } := by
  unfold edgeSent
  rfl

end

/-- Below 256 whole units no INCREMENT is due, and without CTRL BLANK due none is sent: an edge changes its stream's armed
lines, its port's registers and its head's lines, and is in the trace (R429, R442, R474, R499). -/
theorem emitFsync_oldest {d : Dev} {q k : Nat} {l : ArmedLine} {f : Nat × Nat}
    (hk : (List.range 4).find? (fun n => (d.fst n).armed.any fun a => a.times.any fun t => t.1 = q) = some k)
    (hl : (d.fst k).armed.find? (fun a => a.times.any fun t => t.1 = q) = some l)
    (hf : l.times.find? (fun t => t.1 = q) = some f) (hblank : d.hl.blankDue = false)
    (hdrops : (d.hp q).dropsPend + ((((d.hp q).sentLines.find? fun x => x.line = l.line).map (·.levels)).getD []).length <
      256 * 2 ^ 20) :
    ∃ g h, d.emitFsync q = edgeSent q k f.2 l.line g h d := by
  have hfew : ¬ 256 * 2 ^ 20 ≤ (d.hp q).dropsPend + ((((d.hp q).sentLines.find? fun x => x.line = l.line).map
      (·.levels)).getD [] |>.filter fun x => decide (0 < x)).length :=
    Nat.not_le.mpr (Nat.lt_of_le_of_lt (Nat.add_le_add_left (List.length_filter_le ..) _) hdrops)
  unfold Dev.emitFsync
  rw [hk]
  dsimp only
  rw [hl]
  dsimp only
  rw [hf, when_not (c := decide (256 * 2 ^ 20 ≤ _)), when_not]
  · exact ⟨_, _, rfl⟩
  · exact congrArg (· && _) hblank
  · rw [Dev.hp_modHp]
    exact decide_eq_false hfew

theorem emitFsync_none {d : Dev} {q : Nat} (h : ∀ n, n < 4 → ∀ a ∈ (d.fst n).armed, ∀ t ∈ a.times, t.1 ≠ q) :
    d.emitFsync q = d := by
  have hnone : (List.range 4).find? (fun n => (d.fst n).armed.any fun a => a.times.any fun t => t.1 = q) = none := by
    rw [List.find?_eq_none]
    intro n hn
    simp only [List.any_eq_true, decide_eq_true_eq, not_exists, not_and]
    exact h n (List.mem_range.mp hn)
  unfold Dev.emitFsync
  rw [hnone]

/-! ### The commands -/

section
variable {s : State} {e : Nat} {a b : Bool} {ago : Nat}

/-- A count that changes the encoder and, on the source, the last WP (R391, R403, R404, R408). -/
theorem encoderTransition_counts (hs : Settled s) (hon : s.dev.on 11 = true)
    (hlive : (s.dev.enc e).role ≠ 0 ∧ (s.dev.enc e).signalOk = true)
    (hone : xor ((s.dev.enc e).a = a) ((s.dev.enc e).b = b) = true)
    (hfar : FarFromLast (s.dev.enc e) (s.dev.time.tb2 - ago)) (hbase : (s.dev.enc e).rebase = false)
    (hplain : PlainCount s.dev e a b) :
    Goes (.encoderTransition e a b ago) s fun t =>
      t.dev.enc e = countedAt (countsForward (s.dev.enc e) a b) a b (s.dev.time.tb2 - ago) (s.dev.enc e) ∧
      t.dev.fire.lastWp = (if s.dev.fire.src = e ∧ s.dev.fire.lost = false then (t.dev.enc e).xE else s.dev.fire.lastWp) ∧
      (∀ j, j ≠ e → t.dev.enc j = s.dev.enc j) ∧ Only { s.dev with fire := t.dev.fire } s t := by
  have hrun := onEncoderTransition_moves hlive hone hfar hbase hplain
  exact ⟨_, inDomain_run (g := fun d => withLastWp (if d.fire.src = e ∧ d.fire.lost = false then
      ((countOf e a b ago d).enc e).xE else d.fire.lastWp) (countOf e a b ago d)) hon hrun hs,
    Dev.enc_modEnc .., rfl, fun _ hj => Dev.enc_modEnc_ne _ _ _ _ hj, rfl⟩

/-- The loop rests at x_e of the source (R415). -/
theorem standstill_stops (hs : Settled s) (hon : s.dev.on 11 = true) (hreinits : s.dev.fire.reinits = []) :
    Goes .standstill s fun t =>
      let y := s.dev.enc s.dev.fire.src
      t.dev.enc s.dev.fire.src = { y with v := 0, p := y.xE, edgeNew := false, still := true } ∧
      (∀ j, j ≠ s.dev.fire.src → t.dev.enc j = s.dev.enc j) ∧ Only { s.dev with fire := t.dev.fire } s t :=
  ⟨_, inDomain_run (g := fun d => d.modEnc d.fire.src fun x => { x with v := 0, p := x.xE, edgeNew := false, still := true })
      hon (endReinit_none hreinits) hs,
    Dev.enc_modEnc .., fun _ hj => Dev.enc_modEnc_ne _ _ _ _ hj, rfl⟩

/-- The oldest edge of an armed port is sent and counted (R429, R442). -/
theorem fsyncEmit_sends (hs : Settled s) (hon : s.dev.on 11 = true) {q k : Nat} {l : ArmedLine} {f : Nat × Nat}
    (hk : (List.range 4).find? (fun n => (s.dev.fst n).armed.any fun a => a.times.any fun t => t.1 = q) = some k)
    (hl : (s.dev.fst k).armed.find? (fun a => a.times.any fun t => t.1 = q) = some l)
    (hf : l.times.find? (fun t => t.1 = q) = some f) (hblank : s.dev.hl.blankDue = false)
    (hdrops : (s.dev.hp q).dropsPend +
      ((((s.dev.hp q).sentLines.find? fun x => x.line = l.line).map (·.levels)).getD []).length < 256 * 2 ^ 20) :
    Goes (.fsyncEmit q) s fun t =>
      t.dev.out = .fsync q f.2 (twos 42 l.line) :: s.dev.out ∧ (t.dev.fport q).fsyncNs = f.2 / 2 ^ 16 ∧
      (t.dev.fport q).fsyncCount = ((s.dev.fport q).fsyncCount + 1) % 2 ^ 32 ∧
      Only { s.dev with fire := t.dev.fire, hl := t.dev.hl, out := t.dev.out } s t := by
  obtain ⟨g, h, hrun⟩ := emitFsync_oldest hk hl hf hblank hdrops
  have hport := edgeSent_fport q k f.2 l.line g h s.dev
  refine ⟨_, inDomain_run (g := edgeSent q k f.2 l.line g h) hon hrun hs, rfl, ?_, ?_, ?_⟩
  · exact congrArg FirePort.fsyncNs hport
  · exact congrArg FirePort.fsyncCount hport
  · exact congrArg (fun d => ({ s with dev := d } : State)) (edgeSent_frame ..)

end

/-- Settles O41, event by event; a pair without a role or a signal only moves its levels (log entry 67), and an armed port
fires whether or not it is UP (log entry 69). -/
theorem encoderEventsCountAndMoveTheWeb : Obligations.EncoderEventsCountAndMoveTheWeb := by
  unfold Obligations.EncoderEventsCountAndMoveTheWeb
  intro s e a b ago hs hon x now far live fwd
  refine ⟨fun hsame => inDomain_stay hon hs (onEncoderTransition_same hsame),
    fun hmoved hdead => inDomain_run hon (onEncoderTransition_unheard hmoved hdead) hs,
    fun hlive ha hb => inDomain_post hon (onEncoderTransition_illegal hlive ha hb),
    fun hlive hone hnear => inDomain_post hon (onEncoderTransition_near hlive hone hnear),
    fun hlive hone hfar hbase hplain => ?counts,
    fun hrole => ⟨fun hfirst => ?_, fun l hl => ⟨fun hspan => ?_, fun hspan => ?_⟩, ?_⟩,
    fun hoff => ?_, inDomain_post hon rfl, standstill_stops hs hon,
    fun q k l f => fsyncEmit_sends hs hon,
    fun q hnone => inDomain_stay hon hs (emitFsync_none hnone)⟩
  case counts =>
    obtain ⟨t, hnext, henc, hwp, hothers, hframe⟩ := encoderTransition_counts hs hon hlive hone hfar hbase hplain
    obtain ⟨ha, hb, htrans, hedge, hcount, hdeficit⟩ := countedAt_moves fwd a b now x
    refine ⟨t, hnext, ?_⟩
    simp only [henc] at hwp ⊢
    refine ⟨ha, hb, htrans, hedge, hcount, hdeficit, fun ⟨hfwd, hzero⟩ => ?_, fun hrests => ?_, hothers, hframe⟩
    · obtain ⟨hm, htE, hxE⟩ := countedAt_raises a b now hfwd hzero
      exact ⟨hm, htE, hxE, fun hsrc hfound => hwp.trans (if_pos ⟨hsrc, hfound⟩)⟩
    · obtain ⟨hm, hxE, htE⟩ := countedAt_rests a b now hrests
      have hother : ¬ (s.dev.fire.src = e ∧ s.dev.fire.lost = false) := by
        rintro ⟨hsrc, hfound⟩
        obtain ⟨hfwd, hzero, -⟩ := hplain.resolve_left (by simp [hsrc, hfound])
        rcases hrests with hback | hdebt
        · exact Bool.noConfusion (hfwd.symm.trans hback)
        · omega
      exact ⟨hm, hxE, htE, hwp.trans (if_neg hother)⟩
  · exact inDomain_run hon (onEncoderIndexEdge_first hrole hfirst) hs
  · exact inDomain_run hon (onEncoderIndexEdge_within hrole hl hspan) hs
  · exact inDomain_post hon (onEncoderIndexEdge_outside hrole hl hspan)
  · exact inDomain_post hon (if_neg hrole)
  · exact inDomain_run hon (if_pos hoff) hs

end Sys2Proof.Proofs
end

section
/-! FIRE_CONFIG_ENCODER, FIRE_SET_RATIO, FIRE_SET_TRACKING, FIRE_REINIT and the encoder comparison (spec chapter 8). -/

namespace Sys2Proof.Proofs

open Sys2Proof.Machine Sys2Proof.Laws

/-- A row that makes of the device e, which differs in fire timing only, and completes DONE. -/
theorem row_fire {op : Nat} {p : Packet} {s : State} (h : Ready op p s) {chk : Packet → Dev → Option Status}
    (hc : chk p s.dev = none) {f : Packet → Dev → Dev} {e : Dev} (he : e = { s.dev with fire := e.fire })
    (hf : f p s.dev = e.complete p.ref .done 0 0) :
    ∃ t, opRow op chk (onPkt f) p.ring p.seq s = .next t ∧ Completed p .done 0 0 s t ∧ t.dev.fire = e.fire ∧
      (∀ j, t.dev.enc j = e.enc j) ∧ Only { Dev.ringed s.dev t.dev with fire := t.dev.fire } s t := by
  obtain ⟨hnext, hcompleted⟩ := does_of h hc e .done 0 0 hf (by rw [he]) (pre := []) (by rw [he]; rfl) (by rw [he]; exact h.1)
  exact ⟨_, hnext, hcompleted, complete_fire .., fun j => complete_enc_at .., only_complete_fire he ..⟩

/-! ### FIRE_CONFIG_ENCODER -/

/-- The settings that FIRE_CONFIG_ENCODER carries (R391, R397). -/
def encFields (p : Packet) (x : Enc) : Enc := { x with
  role := p.fld 0 0 2, invert := p.flag 0 2, filterNs := p.fld 1 0 8, indexTol := p.fld 2 0 16, perIndex := p.fld 4 0 32 }

/-- The encoder that a FIRE_CONFIG_ENCODER leaves: one that was OFF has seen no index edge and no transition (R396). -/
def configuredEnc (p : Packet) (x : Enc) : Enc := { encFields p x with
  lastIndex := if x.role = 0 then none else x.lastIndex, lastTrans := if x.role = 0 then none else x.lastTrans }

theorem setSource_enc (d : Dev) (n : Nat) : (d.setSource n).enc n =
    { d.enc n with rebase := true, p := (d.enc n).p + (d.fire.lastWp - (d.enc n).xE), xE := d.fire.lastWp } :=
  Dev.enc_modEnc (d := { d with fire := { d.fire with src := n } }) (n := n) fun x =>
    { x with rebase := true, p := x.p + (d.fire.lastWp - x.xE), xE := d.fire.lastWp }

theorem setSource_enc_ne {d : Dev} {n j : Nat} (hj : j ≠ n) : (d.setSource n).enc j = d.enc j :=
  Dev.enc_modEnc_ne _ _ _ _ hj

/-- Encoder n becomes the source of a device that had no PRIMARY (R399, R402). -/
def firstSource (n : Nat) (d : Dev) : Dev :=
  { d.setSource n with fire := { (d.setSource n).fire with lostNoPrimary := false } }

/-- Encoder n is the source, anew where the source was another or was lost (R402, R405). -/
def hasSource (n : Nat) (d : Dev) : Dev :=
  let d := if d.fire.lostNoPrimary || !(d.fire.src = n) || (d.fire.lostSource && (d.enc n).signalOk) then d.setSource n else d
  { d with fire := { d.fire with lostNoPrimary := false, lostSource := d.fire.lostSource && !(d.enc n).signalOk } }

section
variable {d : Dev} {n : Nat}

theorem hasSource_same (hsrc : d.fire.src = n) (hprimary : d.fire.lostNoPrimary = false) (hsource : d.fire.lostSource = false) :
    hasSource n d = d := by
  unfold hasSource
  simp only [hsrc, hprimary, hsource, decide_true, Bool.not_true, Bool.or_self, Bool.false_and, Bool.false_eq_true, if_false]
  subst hsrc
  exact congrArg₂ (fun l m => ({ d with fire := { d.fire with lostNoPrimary := l, lostSource := m } } : Dev))
    hprimary.symm hsource.symm

theorem hasSource_first (hprimary : d.fire.lostNoPrimary = true) (hsource : d.fire.lostSource = false) :
    hasSource n d = firstSource n d := by
  have hkept : (d.setSource n).fire.lostSource = false := hsource
  unfold hasSource firstSource
  simp only [hprimary, Bool.true_or, if_true, hkept, Bool.false_and]

end

section
variable {p : Packet} {d : Dev}

/-- An encoder with a signal that stays or comes in use, where there is a source (R397, R399, R402). -/
theorem runFireConfigEncoder_source {n : Nat} (hsrc : d.sourceUnder p.target (p.fld 0 0 2) = some n)
    (huse : p.fld 0 0 2 ≠ 0) (hsignal : (d.enc p.target).signalOk = true) :
    runFireConfigEncoder p d =
      ((hasSource n (d.modEnc p.target (configuredEnc p))).webLost d.isWebLost).complete p.ref .done 0 0 := by
  unfold runFireConfigEncoder
  extract_lets e role old was src d1 c1 d2 d3 d4
  have h1 : d1 = d.modEnc p.target (configuredEnc p) := modEnc_congr rfl
  have h2 : d2 = hasSource n d1 := by simp only [d2, src]; rw [hsrc]; rfl
  have h4 : d4 = d3 := by simp [d4, role, old, e, huse, hsignal]
  rw [h4]
  simp only [d3, h2, h1]
  rfl

theorem runFireConfigEncoder_keeps (hrole : (d.enc p.target).role = p.fld 0 0 2) (huse : (d.enc p.target).role ≠ 0)
    (hsignal : (d.enc p.target).signalOk = true) (hsrc : d.sourceUnder p.target (d.enc p.target).role = some d.fire.src)
    (hprimary : d.fire.lostNoPrimary = false) (hsource : d.fire.lostSource = false) :
    runFireConfigEncoder p d = (d.modEnc p.target (encFields p)).complete p.ref .done 0 0 := by
  have hconfigured : d.modEnc p.target (configuredEnc p) = d.modEnc p.target (encFields p) := modEnc_congr (by
    unfold configuredEnc
    simp only [huse, if_false]
    rfl)
  rw [runFireConfigEncoder_source (hrole ▸ hsrc) (hrole ▸ huse) hsignal, hconfigured,
    hasSource_same (d := d.modEnc p.target (encFields p)) (n := d.fire.src) rfl hprimary hsource]
  exact congrArg (Dev.complete p.ref .done 0 0) (webLost_same _ _ rfl)

theorem runFireConfigEncoder_first (hrole : p.fld 0 0 2 = 1) (hsignal : (d.enc p.target).signalOk = true)
    (hprimary : d.fire.lostNoPrimary = true) (hsource : d.fire.lostSource = false) :
    runFireConfigEncoder p d =
      (firstSource p.target (d.modEnc p.target (configuredEnc p))).complete p.ref .done 0 0 := by
  have hsrc : d.sourceUnder p.target (p.fld 0 0 2) = some p.target := if_pos hrole
  rw [runFireConfigEncoder_source hsrc (by rw [hrole]; decide) hsignal,
    hasSource_first (d := d.modEnc p.target (configuredEnc p)) hprimary hsource]
  exact congrArg (Dev.complete p.ref .done 0 0) (webLost_same _ _ rfl)

end

/-- FIRE_CONFIG_ENCODER of an encoder that keeps its ROLE (R391, R397). -/
theorem fireConfigEncoder_keeps {s : State} {p : Packet} (h : Ready 0x0600 p s) (hc : chkFireConfigEncoder p s.dev = none)
    (hrole : (s.dev.enc p.target).role = p.fld 0 0 2) (huse : (s.dev.enc p.target).role ≠ 0)
    (hsignal : (s.dev.enc p.target).signalOk = true)
    (hsrc : s.dev.sourceUnder p.target (s.dev.enc p.target).role = some s.dev.fire.src)
    (hprimary : s.dev.fire.lostNoPrimary = false) (hsource : s.dev.fire.lostSource = false) :
    Does (.fireConfigEncoder p.ring p.seq) p .done 0 0 s fun t =>
      t.dev.enc p.target = { encFields p (s.dev.enc p.target) with role := (s.dev.enc p.target).role } ∧
      (∀ j, j ≠ p.target → t.dev.enc j = s.dev.enc j) ∧ t.dev.fire.src = s.dev.fire.src ∧
      t.dev.fire.lost = s.dev.fire.lost ∧ Only { Dev.ringed s.dev t.dev with fire := t.dev.fire } s t := by
  obtain ⟨t, hnext, hcompleted, hfire, henc, hframe⟩ :=
    row_fire h hc rfl (runFireConfigEncoder_keeps hrole huse hsignal hsrc hprimary hsource)
  refine ⟨t, hnext, hcompleted, ?_, fun j hj => (henc j).trans (Dev.enc_modEnc_ne _ _ _ _ hj), ?_, ?_, hframe⟩
  · rw [henc, Dev.enc_modEnc, hrole]; rfl
  · rw [hfire]; rfl
  · rw [hfire]; rfl

/-- FIRE_CONFIG_ENCODER that makes an encoder that was OFF the first PRIMARY (R399, R402, R405). -/
theorem fireConfigEncoder_first {s : State} {p : Packet} (h : Ready 0x0600 p s) (hc : chkFireConfigEncoder p s.dev = none)
    (hrole : p.fld 0 0 2 = 1) (hsignal : (s.dev.enc p.target).signalOk = true) (hprimary : s.dev.fire.lostNoPrimary = true)
    (hsource : s.dev.fire.lostSource = false) (hsat : s.dev.fire.lostSat = false) :
    Does (.fireConfigEncoder p.ring p.seq) p .done 0 0 s fun t =>
      t.dev.fire.src = p.target ∧ t.dev.fire.lost = false ∧ (t.dev.enc p.target).role = 1 ∧
      (t.dev.enc p.target).rebase = true ∧ (t.dev.enc p.target).xE = s.dev.fire.lastWp ∧
      (∀ j, j ≠ p.target → t.dev.enc j = s.dev.enc j) ∧ Only { Dev.ringed s.dev t.dev with fire := t.dev.fire } s t := by
  obtain ⟨t, hnext, hcompleted, hfire, henc, hframe⟩ :=
    row_fire h hc rfl (runFireConfigEncoder_first hrole hsignal hprimary hsource)
  have htarget := (henc p.target).trans (setSource_enc (s.dev.modEnc p.target (configuredEnc p)) p.target)
  rw [Dev.enc_modEnc] at htarget
  refine ⟨t, hnext, hcompleted, ?_, ?_, by rw [htarget]; exact hrole, by rw [htarget], by rw [htarget]; rfl,
    fun j hj => ((henc j).trans (setSource_enc_ne hj)).trans (Dev.enc_modEnc_ne _ _ _ _ hj), hframe⟩
  · rw [hfire]; rfl
  · rw [hfire]
    show (false || s.dev.fire.lostSource || s.dev.fire.lostSat) = false
    rw [hsource, hsat]
    rfl

/-! ### FIRE_REINIT -/

/-- The source from rest: no deficit, M at the net count, the loop at x_e (R405, R412). -/
def restarted (x : Enc) : Enc := { x with deficit := 0, m := x.count, rebase := true, v := 0, p := x.xE, edgeNew := false }

/-- The device with its source from rest and FIRE_REINIT packet ref executing until the next count (R412). -/
def withReinit (ref : PktRef) (d : Dev) : Dev :=
  { d.modEnc d.fire.src restarted with fire := { (d.modEnc d.fire.src restarted).fire with
      lostSat := false, reversed := false, reinits := d.fire.reinits ++ [ref] } }

theorem runFireReinit_quiet {p : Packet} {d : Dev} (hweb : ∀ k, k < 4 → d.onWeb k = []) (hprimary : d.primary = none)
    (hforward : d.fire.reversed = false) (hsat : d.fire.lostSat = false) :
    runFireReinit p d = (withReinit p.ref d).executing p := by
  have hlost : (withReinit p.ref d).isWebLost = d.isWebLost := by
    show (d.fire.lostSource || false) = (d.fire.lostSource || d.fire.lostSat)
    rw [hsat]
  unfold runFireReinit
  rw [spoilEvery_none hweb]
  dsimp only
  rw [hprimary]
  dsimp only
  rw [hforward]
  exact congrArg (Dev.executing p) (webLost_same (withReinit p.ref d) _ hlost)

/-! ### The encoder comparison -/

/-- The CHECK encoder of PRIMARY encoder e tracks with it and differs from it by more than 1/64 (R400). -/
def Differs (d : Dev) (e : Nat) : Prop :=
  (d.enc (1 - e)).role ≠ 0 ∧ (d.enc e).signalOk = true ∧ (d.enc (1 - e)).signalOk = true ∧
  rateGe (d.enc e).v d.fire.minRate = true ∧ ((d.enc e).v : Int) < 64 * mag (((d.enc e).v : Int) - (d.enc (1 - e)).v)

/-- The device with n disagreements in a row. -/
def withRun (n : Nat) (d : Dev) : Dev := { d with fire := { d.fire with mismatchRun := n } }

section
variable {d : Dev} {e : Nat}

theorem differs_iff : (!decide ((d.enc (1 - e)).role = 0) && (d.enc e).signalOk && (d.enc (1 - e)).signalOk &&
    rateGe (d.enc e).v d.fire.minRate &&
    decide (((d.enc e).v : Int) < 64 * mag (((d.enc e).v : Int) - (d.enc (1 - e)).v))) = true ↔ Differs d e := by
  simp [Differs, and_assoc]

theorem onEncoderCompare_none (h : d.primary = none) : d.onEncoderCompare = withRun 0 d := by
  unfold Dev.onEncoderCompare
  rw [h]
  rfl

variable (h : d.primary = some e)
include h

theorem onEncoderCompare_agrees (hagree : ¬ Differs d e) : d.onEncoderCompare = withRun 0 d := by
  unfold Dev.onEncoderCompare
  rw [h]
  exact if_pos (by rw [Bool.eq_false_iff.mpr (mt differs_iff.mp hagree)]; rfl)

theorem onEncoderCompare_differs (hdiffers : Differs d e) :
    d.onEncoderCompare = if d.fire.mismatchRun + 1 = 10 then
        Dev.raise 8 0 (Dev.modEnc 1 (fun x => { x with mismatch := true })
          (Dev.modEnc 0 (fun x => { x with mismatch := true }) (withRun (min (d.fire.mismatchRun + 1) 10) d)))
      else withRun (min (d.fire.mismatchRun + 1) 10) d := by
  unfold Dev.onEncoderCompare
  rw [h]
  exact if_neg (by rw [differs_iff.mpr hdiffers]; decide)

end

/-- Settles O42, row by row; a new source takes the last WP (log entry 33), and a run of disagreements raises source 8 once (log
entry 67). -/
theorem fireCommandsConfigureAndReset : Obligations.FireCommandsConfigureAndReset := by
  unfold Obligations.FireCommandsConfigureAndReset
  intro s p
  refine ⟨fun h hc => ⟨fireConfigEncoder_keeps h hc, fun _ => fireConfigEncoder_first h hc⟩, fun h hc => ?ratio,
    fun h hc => ?tracking, fun h hweb hprimary hforward hsat => ?reinit, fun hs hon => ⟨fun hcase => ?agrees,
      fun e he hdiffers hrun => ?differs, fun e he hdiffers hrun => ?tenth⟩⟩
  case ratio =>
    obtain ⟨t, hnext, hcompleted, -, henc, hframe⟩ := row_fire h hc (f := runFireSetRatio) rfl rfl
    exact ⟨t, hnext, hcompleted, (henc _).trans (Dev.enc_modEnc ..),
      fun j hj => (henc j).trans (Dev.enc_modEnc_ne _ _ _ _ hj), hframe⟩
  case tracking =>
    obtain ⟨t, hnext, hcompleted, hfire, -, hframe⟩ := row_fire h hc (f := runFireSetTracking) rfl rfl
    exact ⟨t, hnext, hcompleted, hfire, hframe⟩
  case reinit =>
    refine ⟨_, opRow_done (g := fun d => (withReinit p.ref d).executing p) h rfl
      (runFireReinit_quiet hweb hprimary hforward hsat) h.1, Dev.enc_modEnc .., fun _ hj => Dev.enc_modEnc_ne _ _ _ _ hj,
      rfl, rfl, rfl⟩
  case agrees =>
    refine inDomain_run (g := withRun 0) hon ?_ hs
    rcases hcase with hnone | ⟨e, he, hagree⟩
    · exact onEncoderCompare_none hnone
    · exact onEncoderCompare_agrees he hagree
  case differs =>
    refine inDomain_run (g := fun d => withRun (d.fire.mismatchRun + 1) d) hon ?_ hs
    rw [onEncoderCompare_differs he hdiffers, if_neg (by omega), Nat.min_eq_left (by omega)]
  case tenth =>
    refine inDomain_post hon ?_
    rw [onEncoderCompare_differs he hdiffers, if_pos (by omega), hrun]
    rfl

end Sys2Proof.Proofs
end

section
/-! HEAD_TRAIN, HEAD_AUTH, HEAD_LOAD_WAVE, HEAD_RESET, HEAD_READ_COUNTER and HEAD_REINIT (spec chapter 9). -/

namespace Sys2Proof.Proofs

open Sys2Proof.Machine Sys2Proof.Laws

/-! ### HRST and the start of training -/

section
variable {d : Dev} {q : Nat} {on : Bool}

theorem setHrst_same (h : (d.hp q).hrst = on) : d.setHrst q on = d := if_pos h

theorem setHrst_turns (h : (d.hp q).hrst ≠ on) :
    d.setHrst q on = (d.modHp q fun x => { x with hrst := on }).pin .hrst q (!on) := if_neg h

/-- HRST of a port is driven as asked, from either level. -/
theorem setHrst_hp : (d.setHrst q on).hp q = { d.hp q with hrst := on } := by
  by_cases h : (d.hp q).hrst = on
  · rw [setHrst_same h, ← h]
  · rw [setHrst_turns h, pin_hp, Dev.hp_modHp]

/-- A port whose training begins: what it was doing is cut, and it waits in reset or takes training sets (R479). -/
theorem startTraining_hp : (d.startTraining q on).hp q = { (d.hp q).cut with
    st := if on then .reset else .training, trainReset := on, ts1 := 0, ts2 := 0, phase := 0, failCause := 0, loadQ := []
    hrst := on } := by
  unfold Dev.startTraining
  rw [send_hp, setHrst_hp, Dev.hp_modHp]

end

/-! ### HEAD_TRAIN -/

/-- The settings of a HEAD_TRAIN, which waits for the end of training (R478). -/
def trainSettings (p : Packet) (x : HlPort) : HlPort := { x with
  authReq := p.flag 0 0, hvFf := p.flag 0 1, autoRetrain := p.flag 0 2, sendAhead := p.fld 1 0 6, hrstMs := p.fld 2 0 10
  trainRef := some p.ref }

/-- The device that HEAD_TRAIN leaves but for its packet (R478, R479). -/
def trainStarted (p : Packet) (d : Dev) : Dev :=
  ((d.cutTraining p.target).modHp p.target (trainSettings p)).startTraining p.target (!p.flag 0 3)

/-- The cut of a port leaves what HEAD_TRAIN set; reset is asserted unless NO_RESET. -/
theorem trainStarted_hp (p : Packet) (d : Dev) :
    ((trainStarted p d).hp p.target).st = (if p.flag 0 3 then .training else .reset) ∧
    ((trainStarted p d).hp p.target).hrst = !p.flag 0 3 ∧
    ((trainStarted p d).hp p.target).authReq = p.flag 0 0 ∧ ((trainStarted p d).hp p.target).hvFf = p.flag 0 1 ∧
    ((trainStarted p d).hp p.target).autoRetrain = p.flag 0 2 ∧ ((trainStarted p d).hp p.target).sendAhead = p.fld 1 0 6 ∧
    ((trainStarted p d).hp p.target).hrstMs = p.fld 2 0 10 ∧ ((trainStarted p d).hp p.target).trainRef = some p.ref := by
  unfold trainStarted
  rw [startTraining_hp, Dev.hp_modHp]
  refine ⟨?_, rfl, rfl, rfl, rfl, rfl, rfl, rfl⟩
  cases p.flag 0 3 <;> rfl

/-! ### HEAD_AUTH and the next I2C transaction -/

/-- The device with the key of a HEAD_AUTH PROVISION in its fuse slot (R496, R498). -/
def keyProvisioned (p : Packet) (d : Dev) : Dev := { d with hl := { d.hl with
  fuses := Tab.set (p.fld 0 2 2) (p.fld 8 0 128) d.hl.fuses, fuseDone := d.hl.fuseDone ||| 2 ^ p.fld 0 2 2 } }

section
variable {p : Packet} {d : Dev}

theorem runHeadAuth_provision (h : p.fld 0 0 2 = 1) :
    runHeadAuth p d = (keyProvisioned p d).complete p.ref .done 0 0 := if_pos h

theorem runHeadAuth_run (h : p.fld 0 0 2 ≠ 1) : runHeadAuth p d = (d.executing p).nextI2c p.target := if_neg h

end

/-- HEAD_AUTH PROVISION changes the fuses alone (R498). -/
theorem headAuth_provision {s : State} {p : Packet} (h : Ready 0x0701 p s) (hc : chkHeadAuth p s.dev = none)
    (hop : p.fld 0 0 2 = 1) :
    Does (.headAuth p.ring p.seq) p .done 0 0 s fun t =>
      t.dev.hl = { s.dev.hl with
        fuses := Tab.set (p.fld 0 2 2) (p.fld 8 0 128) s.dev.hl.fuses, fuseDone := s.dev.hl.fuseDone ||| 2 ^ p.fld 0 2 2 } ∧
      Only { Dev.ringed s.dev t.dev with hl := t.dev.hl } s t := by
  obtain ⟨hnext, hcompleted⟩ := does_of h hc _ .done 0 0 (runHeadAuth_provision hop) rfl (pre := []) rfl h.1
  exact ⟨_, hnext, hcompleted, complete_hl .., only_complete_hl rfl ..⟩

/-- On an idle pair the authentication that a command waits for begins with INFO (R497, R498, R500). -/
theorem nextI2c_waiting {d : Dev} {q : Nat} {r : PktRef} (hidle : (d.hp q).i2c = .idle) (hst : (d.hp q).st ≠ .auth)
    (hwaits : d.authWaiting q = some r) :
    d.nextI2c q = (d.modHp q fun x => { x with i2c := .readInfo, authRef := some r }).send (.i2c q 0x00 [] 16) := by
  unfold Dev.nextI2c
  simp only [hidle, decide_true, Bool.not_true, Bool.false_eq_true, hst, if_false, hwaits]

/-! ### HEAD_LOAD_WAVE -/

/-- The waveform that a HEAD_LOAD_WAVE carries (R489). -/
def waveOf (p : Packet) (d : Dev) : Wave :=
  { loaded := true, count := p.fld 10 0 16, samples := words16 (d.tableBytes 16 p) }

/-- The device with the waveform of a HEAD_LOAD_WAVE in its slot (R489). -/
def waveLoaded (p : Packet) (d : Dev) : Dev :=
  d.modHp p.target fun x => { x with slots := Tab.set (p.fld 8 0 3) (waveOf p d) x.slots }

section
variable {p : Packet} {d : Dev}

theorem waveLoaded_st : ((waveLoaded p d).hp p.target).st = (d.hp p.target).st := by
  unfold waveLoaded; rw [Dev.hp_modHp]

theorem runHeadLoadWave_up (h : (d.hp p.target).st = .up) :
    runHeadLoadWave p d = (waveLoaded p d).startDeviceAct p 5 (2 ^ p.target) (p.fld 8 0 3) :=
  if_pos (waveLoaded_st.trans h)

theorem runHeadLoadWave_notUp (h : (d.hp p.target).st ≠ .up) :
    runHeadLoadWave p d = (waveLoaded p d).complete p.ref .done 0 0 := if_neg (mt waveLoaded_st.symm.trans h)

end

/-- HEAD_LOAD_WAVE to a port that is not UP stores the slot and answers (R489). -/
theorem headLoadWave_notUp {s : State} {p : Packet} (h : Ready 0x0702 p s) (hc : chkHeadLoadWave p s.dev = none)
    (hst : (s.dev.hp p.target).st ≠ .up) :
    Does (.headLoadWave p.ring p.seq) p .done 0 0 s fun t =>
      t.dev.hp p.target = { s.dev.hp p.target with
        slots := Tab.set (p.fld 8 0 3) (waveOf p s.dev) (s.dev.hp p.target).slots } ∧
      (∀ j, j ≠ p.target → t.dev.hp j = s.dev.hp j) ∧ Only { Dev.ringed s.dev t.dev with hl := t.dev.hl } s t := by
  obtain ⟨hnext, hcompleted⟩ := does_of h hc _ .done 0 0 (runHeadLoadWave_notUp hst) rfl (pre := []) rfl h.1
  refine ⟨_, hnext, hcompleted, ?_, fun j hj => ?_, only_complete_hl rfl ..⟩
  · exact (complete_hp_at ..).trans (Dev.hp_modHp ..)
  · exact (complete_hp_at ..).trans (Dev.hp_modHp_ne _ _ _ _ hj)

/-- Settles O43, row by row; a HEAD_RESET takes over a reset in progress, whose command completes with ABORTED (log entry
27). -/
theorem headCommandsTrainAuthenticateLoadAndReset : Obligations.HeadCommandsTrainAuthenticateLoadAndReset := by
  unfold Obligations.HeadCommandsTrainAuthenticateLoadAndReset
  intro s p
  refine ⟨fun h hc => ⟨?train, trainStarted_hp p s.dev⟩, fun h hc => ⟨headAuth_provision h hc, fun hop => ?run⟩,
    fun h hc => ⟨headLoadWave_notUp h hc, fun hst => ?reload⟩, fun h hc => ?reset, fun h => ?counter,
    fun d hidle hst r hwaits => nextI2c_waiting hidle hst hwaits, fun h hc => ?reinit⟩
  case train => exact opRow_post (f := runHeadTrain) h hc rfl
  case run => exact opRow_post h hc (runHeadAuth_run hop)
  case reload => exact opRow_post h hc (runHeadLoadWave_up hst)
  case reset => exact opRow_post (f := runHeadReset) h hc rfl
  case counter => exact opRow_post (chk := chkHeadReadCounter) (f := runHeadReadCounter) h rfl rfl
  case reinit => exact opRow_post (f := runHeadReinit) h hc rfl

end Sys2Proof.Proofs
end

section
/-! The training of a head port and its authentication, event by event (spec chapter 9). -/

namespace Sys2Proof.Proofs

open Sys2Proof.Machine Sys2Proof.Laws

/-! ### HL_HRST_RELEASE -/

/-- The device after HRST of port q is released, with its record changed by f. -/
def hrstReleased (q : Nat) (f : HlPort → HlPort) (d : Dev) : Dev :=
  (d.modHp q fun x => f { x with hrst := false }).pin .hrst q true

/-- The device with port q DOWN after its HEAD_RESET (R501). -/
def resetEnded (q : Nat) (d : Dev) : Dev := hrstReleased q (fun x => { x with st := .down, resetRef := none }) d

section
variable {d : Dev} {q : Nat}

theorem onHlHrstRelease_released (h : (d.hp q).hrst = false) : d.onHlHrstRelease q = d :=
  if_pos (by rw [h]; rfl)

theorem modHp_setHrst_false (h : (d.hp q).hrst = true) (f : HlPort → HlPort) :
    (d.setHrst q false).modHp q f = hrstReleased q f d := by
  rw [setHrst_turns (by rw [h]; decide)]
  exact congrArg (Dev.pin .hrst q true) (modHp_twice ..)

variable (hheld : (d.hp q).hrst = true)
include hheld

/-- The end of a HEAD_RESET (R501). -/
theorem onHlHrstRelease_answers {r : PktRef} (href : (d.hp q).resetRef = some r) :
    d.onHlHrstRelease q = (resetEnded q d).complete r .done 0 0 := by
  unfold Dev.onHlHrstRelease resetEnded
  simp only [hheld, Bool.not_true, Bool.false_eq_true, if_false, href, modHp_setHrst_false]

/-- The reset at the start of a training ends (R479). -/
theorem onHlHrstRelease_trains (href : (d.hp q).resetRef = none) :
    d.onHlHrstRelease q =
      hrstReleased q (fun x => { x with st := if x.st = .reset then .training else x.st }) d := by
  unfold Dev.onHlHrstRelease
  simp only [hheld, Bool.not_true, Bool.false_eq_true, if_false, href, modHp_setHrst_false]

end

/-! ### HL_TRAINING_SET_RECEIVE -/

section
variable {d : Dev} {q n : Nat}

theorem onHlTrainingSetReceive_ignored (h : (d.hp q).st ≠ .training) (second : Bool) :
    d.onHlTrainingSetReceive q second n = d := if_pos (by simpa using h)

variable (hst : (d.hp q).st = .training)
include hst

/-- The 16th TS1 makes the device send TS2 (R479). -/
theorem onHlTrainingSetReceive_ts1 (hphase : (d.hp q).phase = 0) (hts2 : (d.hp q).ts2 < 16) (hts1 : 16 ≤ (d.hp q).ts1 + n) :
    d.onHlTrainingSetReceive q false n =
      (d.modHp q fun x => { x with ts1 := x.ts1 + n, phase := 1 }).send (.train q 2) := by
  unfold Dev.onHlTrainingSetReceive
  simp [hst, hphase, hts1, Nat.not_le.mpr hts2, modHp_twice]

/-- The 16th TS2 makes it send IDLE (R479). -/
theorem onHlTrainingSetReceive_ts2 (hphase : (d.hp q).phase = 1) (hts2 : 16 ≤ (d.hp q).ts2 + n) :
    d.onHlTrainingSetReceive q true n =
      (d.modHp q fun x => { x with ts2 := x.ts2 + n, phase := 2 }).send (.train q 0) := by
  unfold Dev.onHlTrainingSetReceive
  simp [hst, hphase, hts2, modHp_twice]

end

/-! ### HL_DECLARE_RECEIVE -/

/-- What a head declares of itself, in the record of its port (R479). -/
def declaredPort (x : Declare) (h : HlPort) : HlPort := { h with
  levels := x.levels, nozzles := x.nozzles, hblat := x.hblat, bufLines := x.bufLines, waves := x.waves
  waveSamples := x.waveSamples, hvRef := x.hvRef, maxRate := x.maxRate, uid := x.uid, model := x.model }

/-- The device with what the head of port q declares. -/
def withDeclare (q : Nat) (x : Declare) (d : Dev) : Dev :=
  (d.modHp q (declaredPort x)).modFport q fun f => { f with hblat := x.hblat }

/-- Is the head of port q slower than the port's stream prints (second row of R480)? -/
def tooSlow (d : Dev) (q : Nat) (x : Declare) : Bool :=
  (d.streamOf q).any fun k => decide (x.maxRate < (d.nst k).maxRate)

section
variable {d : Dev} {q : Nat} {x : Declare} (hawaited : (d.hp q).st = .training ∧ (d.hp q).phase = 2)
include hawaited

/-- A DECLARE that a training awaits is checked in the order of R480. -/
theorem onHlDeclareReceive_awaited : d.onHlDeclareReceive q x =
    if d.declareBad q x then d.trainFail q 2 .badField
    else if tooSlow d q x then d.trainFail q 3 .refused
    else if (d.hp q).authReq then ((withDeclare q x d).modHp q fun h => { h with st := .auth }).nextI2c q
    else (withDeclare q x d).startLoading q := if_neg (by simp [hawaited])

theorem onHlDeclareReceive_bad (hbad : d.declareBad q x = true) :
    d.onHlDeclareReceive q x = d.trainFail q 2 .badField := by
  rw [onHlDeclareReceive_awaited hawaited, if_pos hbad]

variable (hgood : d.declareBad q x = false)
include hgood

theorem onHlDeclareReceive_slow (hslow : tooSlow d q x = true) : d.onHlDeclareReceive q x = d.trainFail q 3 .refused := by
  rw [onHlDeclareReceive_awaited hawaited, if_neg (Bool.eq_false_iff.mp hgood), if_pos hslow]

theorem onHlDeclareReceive_taken (hfast : tooSlow d q x = false) : d.onHlDeclareReceive q x =
    if (d.hp q).authReq then ((withDeclare q x d).modHp q fun h => { h with st := .auth }).nextI2c q
    else (withDeclare q x d).startLoading q := by
  rw [onHlDeclareReceive_awaited hawaited, if_neg (Bool.eq_false_iff.mp hgood), if_neg (Bool.eq_false_iff.mp hfast)]

end

/-! ### HL_RESP_RECEIVE and HL_TRAINING_TIMEOUT -/

section
variable {d : Dev} {q : Nat}

/-- A RESP in LOADING fails training, or answers TRAINED or a commit (R457, R479, R480). -/
theorem onHlRespReceive_loading (hst : (d.hp q).st = .loading) (op r : Nat) : d.onHlRespReceive q op r =
    if r ≠ 0 then d.trainFail q 2 .badField
    else if op = 1 then d.portUp q
    else if op = 2 then d.modHp q fun h => { h with loadQ := h.loadQ.drop 1 } else d := by
  unfold Dev.onHlRespReceive
  simp only [hst, if_true, Bool.not_eq_true', decide_eq_false_iff_not, ne_eq]

theorem onHlTrainingTimeout_fails (h : (d.hp q).st = .training ∨ (d.hp q).st = .auth ∨ (d.hp q).st = .loading) :
    d.onHlTrainingTimeout q = d.trainFail q 1 .timeout := if_pos (by simpa [or_assoc] using h)

end

/-! ### HL_I2C_TRANSACTION_END -/

/-- The device with INFO of port q's head read and a fresh challenge on its way to it (R496, R497). -/
def infoRead (q : Nat) (data : List Nat) (d : Dev) : Dev :=
  ({ d with free := d.free + 1 }.modHp q fun h => { h with
    infoUid := leNat (data.take 8), infoModel := leNat ((data.drop 8).take 4), keyVer := bits (leNat data) 96 2
    i2c := .writeChallenge, challenge := Config.challenge d.free % 2 ^ 128 }).send
    (.i2c q 0x10 (leBytes 16 (Config.challenge d.free % 2 ^ 128)) 0)

section
variable {d : Dev} {q : Nat} {data : List Nat}

theorem i2cEnd_idle (h : (d.hp q).i2c = .idle) (ok : Bool) : d.i2cEnd q ok data = d := if_pos h

/-- A step that the head does not acknowledge ends its authentication as failed (R497). -/
theorem i2cEnd_fails (hbusy : (d.hp q).i2c ≠ .idle) (hauth : (d.hp q).i2c ≠ .increment) :
    d.i2cEnd q false data = d.authEnd q false 0 := by
  unfold Dev.i2cEnd
  simp only [hbusy, hauth, if_false, Bool.not_false, if_true]

theorem i2cEnd_readInfo (h : (d.hp q).i2c = .readInfo) : d.i2cEnd q true data = infoRead q data d := by
  unfold Dev.i2cEnd
  simp only [h, reduceCtorEq, if_false, Bool.not_true, Bool.false_eq_true]
  rfl

theorem i2cEnd_writeChallenge (h : (d.hp q).i2c = .writeChallenge) :
    d.i2cEnd q true data = (d.modHp q fun h => { h with i2c := .readResponse }).send (.i2c q 0x20 [] 16) := by
  unfold Dev.i2cEnd
  simp only [h, reduceCtorEq, if_false, Bool.not_true, Bool.false_eq_true]

theorem i2cEnd_readResponse (h : (d.hp q).i2c = .readResponse) :
    d.i2cEnd q true data =
      (d.modHp q fun h => { h with i2c := .readCounter, resp := leNat (data.take 16) }).send (.i2c q 0x30 [] 8) := by
  unfold Dev.i2cEnd
  simp only [h, reduceCtorEq, if_false, Bool.not_true, Bool.false_eq_true]

theorem i2cEnd_readCounter (h : (d.hp q).i2c = .readCounter) :
    d.i2cEnd q true data = d.authEnd q (d.responseOk q (leNat (data.take 8))) (leNat (data.take 8)) := by
  unfold Dev.i2cEnd
  simp only [h, reduceCtorEq, if_false, Bool.not_true, Bool.false_eq_true]

end

/-! ### The events -/

section
variable {s : State} {q : Nat} (hs : Settled s) (hon : s.dev.on 10 = true)
include hs hon

/-- An event of PD_10 that changes port q's record by f and sends o. -/
theorem goes_modHp_send {c : Instr} {run : Dev → Dev} (hexec : exec c s = inDomain 10 run s) {f : HlPort → HlPort} {o : Out}
    (hrun : run s.dev = (s.dev.modHp q f).send o) :
    Goes c s fun t => t.dev.hp q = f (s.dev.hp q) ∧ t.dev.out = o :: s.dev.out :=
  ⟨_, hexec.trans (inDomain_run (g := fun _ => _) hon hrun hs), (send_hp ..).trans (Dev.hp_modHp ..), rfl⟩

/-- The end of a HEAD_RESET releases HRST, leaves the port DOWN and answers (R501). -/
theorem hlHrstRelease_answers {p : Packet} (hheld : (s.dev.hp q).hrst = true) (href : (s.dev.hp q).resetRef = some p.ref)
    (hp : s.dev.packet? p.ref = some p) :
    Goes (.hlHrstRelease q) s fun t =>
      Completed p .done 0 0 s t ∧ t.dev.hp q = { s.dev.hp q with hrst := false, st := .down, resetRef := none } ∧
      (∀ j, j ≠ q → t.dev.hp j = s.dev.hp j) ∧ Only { Dev.ringed s.dev t.dev with hl := t.dev.hl } s t := by
  refine ⟨_, inDomain_run (g := fun _ => _) hon (onHlHrstRelease_answers hheld href) (complete_todo (by exact hs) ..),
    completed_of (g := resetEnded q s.dev) hp rfl (pre := [_]) rfl .done 0 0, ?_, fun j hj => ?_, only_sent_hl rfl ..⟩
  · exact (complete_hp_at ..).trans ((pin_hp ..).trans (Dev.hp_modHp ..))
  · exact (complete_hp_at ..).trans ((pin_hp ..).trans (Dev.hp_modHp_ne _ _ _ _ hj))

/-- The end of a training's reset lets the training begin (R479). -/
theorem hlHrstRelease_trains (hheld : (s.dev.hp q).hrst = true) (href : (s.dev.hp q).resetRef = none)
    (hst : (s.dev.hp q).st = .reset) :
    Goes (.hlHrstRelease q) s fun t =>
      t.dev.hp q = { s.dev.hp q with hrst := false, st := .training } ∧ t.dev.out = .pin .hrst q true :: s.dev.out := by
  obtain ⟨t, hnext, hport, hout⟩ := goes_modHp_send (c := .hlHrstRelease q) hs hon rfl (onHlHrstRelease_trains hheld href)
  exact ⟨t, hnext, by simpa only [hst, if_true] using hport, hout⟩

/-- A RESP to a commit of LOADING takes its slot off the queue (R457). -/
theorem hlRespReceive_commit (hst : (s.dev.hp q).st = .loading) : exec (.hlRespReceive q 2 0) s =
    .next (s.onDev (Dev.modHp q fun h => { h with loadQ := h.loadQ.drop 1 })) :=
  inDomain_run hon (onHlRespReceive_loading hst 2 0) hs

end

/-- Settles O45, event by event; which sets count is log entry 27's. -/
theorem headTrainingAndAuthenticationGoThroughTheirSteps : Obligations.HeadTrainingAndAuthenticationGoThroughTheirSteps := by
  unfold Obligations.HeadTrainingAndAuthenticationGoThroughTheirSteps
  intro s q hs hon
  refine ⟨fun hfree => ?released, fun p => hlHrstRelease_answers hs hon, hlHrstRelease_trains hs hon,
    fun second n hst => ?ignored, fun n hst hphase hts2 hts1 => ?ts1, fun n hst hphase hts2 => ?ts2,
    fun x hst hphase => ⟨fun hbad => ?bad, fun hgood hslow => ?slow, fun hgood hfast => ?taken⟩,
    fun op r hst => ⟨fun hr => ?refused, fun hr hop => ?trained, fun hr hop => ?commit⟩, fun hst => ?timeout,
    fun ok data hidle => ?idle, fun data hbusy hauth => ?fails, fun data hi2c => ?info, fun data hi2c => ?challenge,
    fun data hi2c => ?response, fun data hi2c => ?counter⟩
  case released => exact inDomain_stay hon hs (onHlHrstRelease_released hfree)
  case ignored => exact inDomain_stay hon hs (onHlTrainingSetReceive_ignored hst second)
  case ts1 => exact goes_modHp_send hs hon rfl (onHlTrainingSetReceive_ts1 hst hphase hts2 hts1)
  case ts2 => exact goes_modHp_send hs hon rfl (onHlTrainingSetReceive_ts2 hst hphase hts2)
  case bad => exact inDomain_post hon (onHlDeclareReceive_bad ⟨hst, hphase⟩ hbad)
  case slow => exact inDomain_post hon (onHlDeclareReceive_slow ⟨hst, hphase⟩ hgood hslow)
  case taken => exact inDomain_post hon (onHlDeclareReceive_taken ⟨hst, hphase⟩ hgood hfast)
  case refused => exact inDomain_post hon ((onHlRespReceive_loading hst op r).trans (if_pos hr))
  case trained => subst hr hop; exact inDomain_post hon (onHlRespReceive_loading hst 1 0)
  case commit => subst hr hop; exact hlRespReceive_commit hs hon hst
  case timeout => exact inDomain_post hon (onHlTrainingTimeout_fails hst)
  case idle => exact inDomain_stay hon hs (i2cEnd_idle hidle ok)
  case fails => exact inDomain_post hon (i2cEnd_fails hbusy hauth)
  case info =>
    exact ⟨_, inDomain_run hon (i2cEnd_readInfo hi2c) hs, (send_hp ..).trans (Dev.hp_modHp ..), rfl⟩
  case challenge => exact goes_modHp_send hs hon rfl (i2cEnd_writeChallenge hi2c)
  case response => exact goes_modHp_send hs hon rfl (i2cEnd_readResponse hi2c)
  case counter => exact inDomain_post hon (i2cEnd_readCounter hi2c)

end Sys2Proof.Proofs
end

section
/-! The throttle by the die temperature, and the order of the maintenance arbiter (spec chapter 10). -/

namespace Sys2Proof.Proofs

open Sys2Proof.Machine Sys2Proof.Laws

/-! ### The token fraction -/

section
variable {c : Sched}

theorem throttle_below (h : c.die < 16 * c.throttleC) : c.throttle = 255 := if_pos h

theorem throttle_above (hlow : ¬ c.die < 16 * c.throttleC) (h : 16 * (c.limitC : Int) ≤ c.die) : c.throttle = 64 :=
  (if_neg hlow).trans (if_pos h)

/-- Between the two temperatures the fraction falls by at most three quarters, whatever the rounding (R538, log entry 7). -/
theorem throttle_between (hlow : ¬ c.die < 16 * c.throttleC) (h : ¬ 16 * (c.limitC : Int) ≤ c.die) :
    64 ≤ c.throttle ∧ c.throttle ≤ 255 := by
  have hfall : roundOpen 32 (192 * (c.die - 16 * c.throttleC)) (16 * c.limitC - 16 * c.throttleC) ≤ 192 :=
    roundOpen_le _ _ _ _ (by omega) (by omega)
  have heq : c.throttle =
      min (256 - roundOpen 32 (192 * (c.die - 16 * c.throttleC)) (16 * c.limitC - 16 * c.throttleC)).toNat 255 :=
    (if_neg hlow).trans (if_neg h)
  omega

/-- The fraction lies between a quarter and one (R538). -/
theorem throttle_bounds (c : Sched) : 64 ≤ c.throttle ∧ c.throttle ≤ 255 := by
  by_cases hlow : c.die < 16 * c.throttleC
  · rw [throttle_below hlow]; decide
  · by_cases h : 16 * (c.limitC : Int) ≤ c.die
    · rw [throttle_above hlow h]; decide
    · exact throttle_between hlow h

end

/-- Settles O54, by the three ranges of the die temperature. -/
theorem throttleFractionStaysBetweenAQuarterAndOne : Obligations.ThrottleFractionStaysBetweenAQuarterAndOne := by
  unfold Obligations.ThrottleFractionStaysBetweenAQuarterAndOne
  intro c
  obtain ⟨hquarter, hone⟩ := throttle_bounds c
  exact ⟨hquarter, hone, throttle_below, fun hhot hlimits => throttle_above (by omega) hhot⟩

/-! ### The arbiter -/

/-- An activity opened behind the others blocks none of them (R548). -/
theorem blocker_append_of_mem {l : List Activity} {a : Activity} (h : a ∈ l) (m : List Activity) :
    blocker (l ++ m) a = blocker l a := by
  have hstops : (l.takeWhile fun b => !(b.id = a.id)).length ≠ l.length := fun hlen => by
    have hall : a ∈ l.takeWhile fun b => !(b.id = a.id) := by
      rwa [(List.takeWhile_prefix _).eq_of_length hlen]
    have hself := List.mem_takeWhile_imp hall
    simp at hself
  unfold blocker
  rw [List.takeWhile_append, if_neg hstops]

/-- A waiting activity opened behind activities in order leaves them in order. -/
theorem ordered_append {l : List Activity} {x : Activity} (h : Ordered l) (hx : x.running = false) : Ordered (l ++ [x]) := by
  intro a ha hruns
  rcases List.mem_append.mp ha with hold | hnew
  · rw [blocker_append_of_mem hold]
    exact h a hold hruns
  · rw [List.mem_singleton.mp hnew, hx] at hruns
    exact absurd hruns Bool.false_ne_true

/-- An ID that is not open keeps the IDs of open activities different. -/
theorem nodup_ids_append {l : List Activity} {x : Activity} (h : (l.map (·.id)).Nodup) (hfresh : ∀ a ∈ l, a.id ≠ x.id) :
    ((l ++ [x]).map (·.id)).Nodup := by
  rw [List.map_append]
  exact List.Nodup.append h (List.nodup_singleton _) (by simpa using hfresh)

/-- An activity conflicts with none that stands before it when it runs. -/
theorem conflicts_of_before {l : List Activity} (h : Ordered l) {a b : Activity} (hb : b ∈ l) (hruns : b.running = true)
    (hbefore : a ∈ l.takeWhile fun c => !(c.id = b.id)) : conflicts b a = false :=
  (blocker_none_iff l b).mp (h b hb hruns) a hbefore

/-- No two running activities conflict (R547): the later of the two would be blocked. -/
theorem running_no_conflict {l : List Activity} (h : Ordered l) (hn : (l.map (·.id)).Nodup) {a b : Activity} (ha : a ∈ l)
    (hb : b ∈ l) (hra : a.running = true) (hrb : b.running = true) (hne : a.id ≠ b.id) : conflicts a b = false := by
  rcases before_or ha hb hne hn with hab | hba
  · rw [conflicts_symm]
    exact conflicts_of_before h hb hrb hab
  · exact conflicts_of_before h ha hra hba

/-- Settles O55, operation by operation of the arbiter. -/
theorem conflictingActivitiesNeverRunTogether : Obligations.ConflictingActivitiesNeverRunTogether := by
  unfold Obligations.ConflictingActivitiesNeverRunTogether
  intro ordered d ⟨hn, ho⟩
  refine ⟨fun kind res ms arg ref hfresh => ⟨?ids, ?order⟩, fun n => (pump_spec n d ⟨hn, ho⟩).1,
    fun id st => (end_spec d id st ⟨hn, ho⟩).1, fun id st => (end_spec d id st ⟨hn, ho⟩).2,
    fun a ha b hb hra hrb hne => running_no_conflict ho hn ha hb hra hrb hne⟩
  case ids => exact nodup_ids_append hn hfresh
  case order => exact ordered_append ho rfl

end Sys2Proof.Proofs
end

section
/-! The core voltage loop, the AVSBus and the die sensors (spec chapter 10). -/

namespace Sys2Proof.Proofs

open Sys2Proof.Machine Sys2Proof.Laws

/-! ### The loop runs while the device is operational -/

section
variable {k : Nat} {f : Dev → Dev} {s : State}

theorem coreLoop_idle (hs : Settled s) (hon : s.dev.on k = true) (hcore : s.dev.coreRuns = false) :
    inDomain k (fun d => if d.coreRuns then f d else d) s = .next s :=
  inDomain_stay hon hs (if_neg (Bool.eq_false_iff.mp hcore))

variable {g : Dev → Dev} (hon : s.dev.on k = true) (hcore : s.dev.coreRuns = true) (hf : f s.dev = g s.dev)
include hon hcore hf

/-- An event of the running loop that posts nothing. -/
theorem coreLoop_run (ht : (g s.dev).flt.todo = []) :
    inDomain k (fun d => if d.coreRuns then f d else d) s = .next (s.onDev g) :=
  inDomain_run hon ((if_pos hcore).trans hf) ht

/-- An event of the running loop that posts to the collector. -/
theorem coreLoop_post : inDomain k (fun d => if d.coreRuns then f d else d) s = .next (State.settle (s.onDev g)) :=
  inDomain_post hon ((if_pos hcore).trans hf)

end

/-! ### Target and floor -/

/-- A target that changes is written over AVSBus (R535). -/
theorem setTarget_writes {d : Dev} {v : Nat} (h : d.sched.target ≠ v) : d.setTarget v =
    ({ d with sched := { d.sched with target := v, avsBusy := d.sched.avsBusy ++ [0] } }).send (.avs 0 v) := if_neg h

/-- The floor that committed screened work needs (R532). -/
def neededFloor (d : Dev) : Nat := d.rateVoltages.foldl max (max d.sched.vMinMv d.sched.needV)

/-- The device with its floor computed and its target as it was. -/
def floored (d : Dev) : Dev := { d with sched := { d.sched with vFloor := neededFloor d } }

theorem updFloor_raises {d : Dev} (h : d.sched.target < neededFloor d) :
    d.updFloor = (floored d).setTarget (neededFloor d) := if_pos h

theorem updFloor_stays {d : Dev} (h : ¬ d.sched.target < neededFloor d) : d.updFloor = floored d := if_neg h

/-- CORE_VFLOOR_UPDATE raises a target below the floor to it, with a Voltage write (R532, R534). -/
theorem coreVfloorUpdate_goes {s : State} (hs : Settled s) (hon : s.dev.on 5 = true) (hcore : s.dev.coreRuns = true) :
    Goes .coreVfloorUpdate s fun t =>
      t.dev.sched.vFloor = neededFloor s.dev ∧ neededFloor s.dev ≤ t.dev.sched.target ∧
      (neededFloor s.dev ≤ s.dev.sched.target → t.dev.sched.target = s.dev.sched.target ∧ t.dev.out = s.dev.out) ∧
      (s.dev.sched.target < neededFloor s.dev → t.dev.sched.target = neededFloor s.dev ∧
        t.dev.sched.avsBusy = s.dev.sched.avsBusy ++ [0] ∧ t.dev.out = .avs 0 (neededFloor s.dev) :: s.dev.out) ∧
      Only { s.dev with sched := t.dev.sched, out := t.dev.out } s t := by
  by_cases hlow : s.dev.sched.target < neededFloor s.dev
  · have hwrites := (updFloor_raises hlow).trans (setTarget_writes (d := floored s.dev) (Nat.ne_of_lt hlow))
    exact ⟨_, coreLoop_run (g := fun _ => _) hon hcore hwrites hs, rfl, Nat.le_refl _,
      fun hhigh => absurd hlow (Nat.not_lt.mpr hhigh), fun _ => ⟨rfl, rfl, rfl⟩, rfl⟩
  · exact ⟨_, coreLoop_run (g := floored) hon hcore (updFloor_stays hlow) hs, rfl, Nat.not_lt.mp hlow,
      fun _ => ⟨rfl, rfl⟩, fun hhigh => absurd hhigh hlow, rfl⟩

/-! ### Slack -/

/-- The device with FLT_SLACK's condition at x. -/
def withSlackFault (x : Bool) (d : Dev) : Dev := { d with sched := { d.sched with slackFault := x } }

section
variable {d : Dev} {a b : Nat}

theorem withSlackFault_same {x : Bool} (h : d.sched.slackFault = x) : withSlackFault x d = d := by
  subst h; rfl

/-- FLT_SLACK, where it holds, ends (log entry 44). -/
theorem slackEnds_eq (d : Dev) :
    d.slackEnds = Dev.when d.sched.slackFault (fun d => d.lower 91) (withSlackFault false d) := by
  cases h : d.sched.slackFault
  · exact (if_neg (Bool.eq_false_iff.mp h)).trans (withSlackFault_same h).symm
  · exact if_pos h

theorem slackEnds_quiet (h : d.sched.slackFault = false) : d.slackEnds = d := if_neg (by simp [h])

/-- A slack below SLACK_LOW raises a target below VMAX by 5 mV (R533). -/
theorem slackRaise_steps (ha : a < d.sched.slackLow) (ht : d.sched.target < d.sched.vMaxMv) :
    d.slackRaise a b = (d.setSlack a b).setTarget (min d.sched.vMaxMv (d.sched.target + 5)) :=
  (if_pos ha).trans (if_pos ht)

/-- At VMAX it raises FLT_SLACK, once (R533). -/
theorem slackRaise_faults (ha : a < d.sched.slackLow) (ht : d.sched.vMaxMv ≤ d.sched.target) : d.slackRaise a b =
    Dev.when (!d.sched.slackFault) (fun d => d.raise 91 0) (withSlackFault true (d.setSlack a b)) := by
  refine ((if_pos ha).trans (if_neg (Nat.not_lt.mpr ht))).trans ?_
  cases h : d.sched.slackFault
  · exact if_neg (Bool.eq_false_iff.mp h)
  · exact (if_pos h).trans (withSlackFault_same (d := d.setSlack a b) h).symm

/-- A slack that is not below SLACK_LOW ends FLT_SLACK (log entry 44). -/
theorem slackRaise_ends (ha : d.sched.slackLow ≤ a) : d.slackRaise a b = (d.setSlack a b).slackEnds :=
  if_neg (Nat.not_lt.mpr ha)

/-- Without FLT_SLACK the timer only stores the slack before it judges it. -/
theorem slackLower_quiet (h : d.sched.slackFault = false) : d.slackLower a b =
    if d.sched.slackHigh < a && d.sched.vFloor + 5 ≤ d.sched.target then (d.setSlack a b).setTarget (d.sched.target - 5)
    else d.setSlack a b := by
  have hsame : (d.setSlack a b).when (decide (d.sched.slackLow ≤ a)) Dev.slackEnds = d.setSlack a b := by
    unfold Dev.when
    split
    · exact slackEnds_quiet h
    · rfl
  unfold Dev.slackLower
  dsimp only
  rw [hsame]
  rfl

end

/-! ### AVSBus -/

section
variable {d : Dev}

theorem avsEnd_idle (h : d.sched.avsBusy = []) (ok : Bool) (v : Nat) : d.avsEnd ok v = d := by
  unfold Dev.avsEnd
  simp only [h]

variable {k : Nat} {rest : List Nat} (h : d.sched.avsBusy = k :: rest) (v : Nat)
include h

/-- A good transaction ends FLT_AVS; a good Voltage read is measured and confirmed (R535, R536, log entry 44). -/
theorem avsEnd_succeeds : d.avsEnd true v = Dev.when d.sched.avsFail (fun d => d.lower 92) { d with sched := { d.sched with
    avsBusy := rest, avsErrRun := 0, avsFail := false, measured := if k = 1 then v else d.sched.measured
    confirmed := if k = 1 then v else d.sched.confirmed } } := by
  unfold Dev.avsEnd
  by_cases hk : k = 1
  · simp only [h, hk, if_true]
  · simp only [h, hk, if_true, if_false]

/-- The third failure in a row raises FLT_AVS (R536). -/
theorem avsEnd_fails : d.avsEnd false v = Dev.when (!d.sched.avsFail && decide (2 ≤ d.sched.avsErrRun))
    (fun d => d.raise 92 0) { d with sched := { d.sched with
      avsBusy := rest, avsErrRun := min 3 (d.sched.avsErrRun + 1)
      avsFail := d.sched.avsFail || decide (2 ≤ d.sched.avsErrRun) } } := by
  unfold Dev.avsEnd
  simp only [h, Bool.false_eq_true, if_false]

end

/-- Settles O53, event by event; what a Voltage read and a success confirm, and the end of FLT_SLACK, are log entry 44's. -/
theorem coreVoltageLoopKeepsFloorAndFollowsSlack : Obligations.CoreVoltageLoopKeepsFloorAndFollowsSlack := by
  unfold Obligations.CoreVoltageLoopKeepsFloorAndFollowsSlack
  intro s hs c
  refine ⟨fun hon => ⟨coreLoop_idle hs hon, coreVfloorUpdate_goes hs hon⟩, fun hon hcore a b =>
      ⟨coreLoop_idle hs hon hcore, coreLoop_idle hs hon hcore, coreLoop_idle hs hon hcore, coreLoop_idle hs hon hcore⟩,
    fun hon hcore a b => ⟨fun ha ht => ?rises, fun ha ht => ?atVmax, fun ha => ?ends, fun hquiet ha hv => ?falls,
      fun hquiet hstay => ?stays⟩,
    fun hon hcore => ⟨coreLoop_run hon hcore rfl hs, coreLoop_run hon hcore rfl hs⟩,
    fun hon v => ⟨fun hidle ok => inDomain_stay hon hs (avsEnd_idle hidle ok v), fun k rest hbusy =>
      ⟨inDomain_post hon (avsEnd_succeeds hbusy v), inDomain_post hon (avsEnd_fails hbusy v)⟩⟩,
    fun hon temps => inDomain_post hon rfl⟩
  case rises =>
    have hne : c.target ≠ min c.vMaxMv (c.target + 5) := by omega
    exact coreLoop_run hon hcore ((slackRaise_steps ha ht).trans (setTarget_writes hne)) hs
  case atVmax => exact coreLoop_post hon hcore (slackRaise_faults ha ht)
  case ends => exact coreLoop_post hon hcore ((slackRaise_ends ha).trans (slackEnds_eq _))
  case falls =>
    have hne : c.target ≠ c.target - 5 := by omega
    have hlowers : s.dev.slackLower a b = (s.dev.setSlack a b).setTarget (c.target - 5) :=
      (slackLower_quiet hquiet).trans (if_pos (by simpa using ⟨ha, hv⟩))
    exact coreLoop_run hon hcore (hlowers.trans (setTarget_writes hne)) hs
  case stays =>
    have hkeeps : s.dev.slackLower a b = s.dev.setSlack a b :=
      (slackLower_quiet hquiet).trans (if_neg (by
        simp only [Bool.and_eq_true, decide_eq_true_eq, not_and_or, Nat.not_lt, Nat.not_le]
        exact hstay))
    exact coreLoop_run hon hcore (g := Dev.setSlack a b) hkeeps hs

end Sys2Proof.Proofs
end

section
/-! The end of the orderly stop, the bias of the heads and the timer of held attempts (spec chapter 10). -/

namespace Sys2Proof.Proofs

open Sys2Proof.Machine Sys2Proof.Laws

/-! ### ORDERLY_STOP_END -/

/-- Has the orderly stop come to its end (R542)? -/
def stopComplete (d : Dev) : Bool :=
  d.sched.stopping && !d.anyArmed && (d.imp.jobs.isEmpty || !d.ckptWrites)

/-- The device with its orderly stop done, SDRAM in self-refresh and the wear history saved (R542, R706, R833). -/
def stopped (d : Dev) : Dev :=
  ({ d with sched := { d.sched with stopping := false, stopDone := true } }).selfRefresh.saveWear

section
variable {d : Dev}

theorem stopEnd_waits (h : stopComplete d = false) : d.stopEnd = d := if_neg (Bool.eq_false_iff.mp h)

/-- What follows a stop depends on nothing that its end changes. -/
theorem stopEnd_complete (h : stopComplete d = true) : d.stopEnd =
    if d.pwr.cycling || d.pwr.timedDue then (stopped d).timedShutdown
    else if d.stageCalled 7 then (stopped d).enterStage7 else stopped d := if_pos h

/-- A serving channel is placed in self-refresh (R706). -/
theorem selfRefresh_dch (d : Dev) {c : Nat} (h : c < 2) : d.selfRefresh.dch c =
    if (d.dch c).st = .serving then { d.dch c with st := .selfRefresh } else d.dch c := by
  obtain rfl | rfl : c = 0 ∨ c = 1 := by omega
  · exact (Dev.dch_modDch_ne _ _ _ _ Nat.zero_ne_one).trans (Dev.dch_modDch ..)
  · refine (Dev.dch_modDch ..).trans ?_
    rw [Dev.dch_modDch_ne _ _ _ _ Nat.one_ne_zero]

end

/-- The end of a stop that no shutdown and no stage 7 follows (R542). -/
theorem orderlyStopEnd_goes {s : State} (hs : Settled s) (hon : s.dev.on 0 = true) (hdone : stopComplete s.dev = true)
    (hshut : (s.dev.pwr.cycling || s.dev.pwr.timedDue) = false) (hseven : s.dev.stageCalled 7 = false) :
    Goes .orderlyStopEnd s fun t =>
      t.dev.sched = { s.dev.sched with stopping := false, stopDone := true } ∧
      t.dev.wear = { s.dev.wear with saved := some (s.dev.wear.inds, s.dev.wear.stored) } ∧
      (∀ c, c < 2 → t.dev.dch c =
        if (s.dev.dch c).st = .serving then { s.dev.dch c with st := .selfRefresh } else s.dev.dch c) ∧
      Only { s.dev with sched := t.dev.sched, ddr := t.dev.ddr, wear := t.dev.wear } s t := by
  have hstops : s.dev.stopEnd = stopped s.dev :=
    (stopEnd_complete hdone).trans ((if_neg (Bool.eq_false_iff.mp hshut)).trans (if_neg (Bool.eq_false_iff.mp hseven)))
  exact ⟨_, inDomain_run hon hstops hs, rfl, rfl, fun c hc => selfRefresh_dch _ hc, rfl⟩

/-! ### HEAT_BIAS_UPDATE -/

section
variable (n : Nat) (d : Dev)

/-- The bias of any number of ports changes the scheduler and the collector only. -/
theorem forN_heatBias_frame : forN n Dev.heatBias d =
    { d with sched := (forN n Dev.heatBias d).sched, flt := (forN n Dev.heatBias d).flt } := by
  induction n with
  | zero => rfl
  | succ n ih =>
    obtain ⟨-, -, -, -, hframe⟩ := heatBias_spec n (forN n Dev.heatBias d)
    rw [forN_succ, hframe, ih]

theorem forN_heatBias_hp (p : Nat) : (forN n Dev.heatBias d).hp p = d.hp p := by
  rw [forN_heatBias_frame]
  rfl

variable {n}

/-- A port whose turn is still to come keeps its model. -/
theorem forN_heatBias_pmodel_of_le {p : Nat} (h : n ≤ p) : (forN n Dev.heatBias d).pmodel p = d.pmodel p := by
  induction n with
  | zero => rfl
  | succ n ih =>
    obtain ⟨hothers, -⟩ := heatBias_spec n (forN n Dev.heatBias d)
    rw [forN_succ, hothers p (by omega)]
    exact ih (by omega)

/-- A port whose turn is over keeps the model that its own update gave it. -/
theorem forN_heatBias_pmodel_of_lt {p : Nat} (h : p < n) :
    (forN n Dev.heatBias d).pmodel p = (Dev.heatBias p (forN p Dev.heatBias d)).pmodel p := by
  induction n with
  | zero => exact absurd h (Nat.not_lt_zero p)
  | succ n ih =>
    obtain rfl | hlt := Nat.eq_or_lt_of_le (Nat.le_of_lt_succ h)
    · rw [forN_succ]
    · obtain ⟨hothers, -⟩ := heatBias_spec n (forN n Dev.heatBias d)
      rw [forN_succ, hothers p (Nat.ne_of_lt hlt)]
      exact ih hlt

variable {d}

/-- A port that is not UP keeps its model (R531). -/
theorem forN_heatBias_down {p : Nat} (h : p < n) (hdown : (d.hp p).st ≠ .up) :
    (forN n Dev.heatBias d).pmodel p = d.pmodel p := by
  obtain ⟨-, hstays, -⟩ := heatBias_spec p (forN p Dev.heatBias d)
  rw [forN_heatBias_pmodel_of_lt d h, hstays (by rwa [forN_heatBias_hp])]
  exact forN_heatBias_pmodel_of_le d (Nat.le_refl p)

/-- An UP port takes its BIAS and its time above the prediction (R531). -/
theorem forN_heatBias_up {p : Nat} (h : p < n) (hup : (d.hp p).st = .up) :
    let m := d.pmodel p
    let diff := (d.hp p).temp - m.pred
    ((forN n Dev.heatBias d).pmodel p).overMs = (if 32 < diff then min 1100 (m.overMs + 100) else 0) ∧
    ((forN n Dev.heatBias d).pmodel p).bias =
      (clampI (m.bias + roundOpen 31 ((diff - m.bias) * Config.expRise 1 10) (2 ^ 32)) 0 160).toNat := by
  obtain ⟨-, -, hmoves, -⟩ := heatBias_spec p (forN p Dev.heatBias d)
  rw [forN_heatBias_hp, forN_heatBias_pmodel_of_le d (Nat.le_refl p)] at hmoves
  rw [forN_heatBias_pmodel_of_lt d h]
  exact hmoves hup

/-- While no UP port measures more than 2 °C above its prediction nothing is posted (R531). -/
theorem forN_heatBias_flt (h : ∀ p, p < n → (d.hp p).st = .up → (d.hp p).temp - (d.pmodel p).pred ≤ 32) :
    (forN n Dev.heatBias d).flt = d.flt := by
  induction n with
  | zero => rfl
  | succ n ih =>
    obtain ⟨-, -, -, hquiet, -⟩ := heatBias_spec n (forN n Dev.heatBias d)
    rw [forN_heatBias_hp, forN_heatBias_pmodel_of_le d (Nat.le_refl n)] at hquiet
    rw [forN_succ, hquiet (h n (Nat.lt_succ_self n))]
    exact ih fun p hp => h p (Nat.lt_succ_of_lt hp)

end

/-! ### HELD_ATTEMPT_TIMER -/

/-- The stronger permitted set with which an attempt would fit (R517, R520). -/
def strongerSet (d : Dev) (e : Entry) : Option Degrade :=
  ((e.desc.sets.dropWhile fun g => !(g = { thresh := e.degThresh, reduce := e.degReduce })).drop 1).find? fun g => d.fits e g

/-- Has a held attempt waited 100 ms (R520)? -/
def waitedLong (d : Dev) (e : Entry) : Bool := e.held && e.heldAt.any fun t => decide (t + 100000000 ≤ d.ns)

/-- The attempt that stream k screens loses its lines. -/
def dropScreened (k : Nat) (d : Dev) : Dev :=
  match (d.sst k).cur with
  | some j => d.modEntry j fun e => { e with lines := [], carry := [], staged := false }
  | none => d

/-- An attempt to be screened again with set g, w wide (R520). -/
def rescreened (g : Degrade) (w : Nat) (e : Entry) : Entry := { e with
  degThresh := g.thresh, degReduce := g.reduce, shedFallback := false, lines := [], staged := false, held := false
  heldAt := none, carry := List.replicate w 0 }

/-- Stream k screens attempt i again with set g, on tables adopted afresh (R520). -/
def restagedWith (k i : Nat) (g : Degrade) (d : Dev) : Dev :=
  (((dropScreened k d).adopt k).modEntry i (rescreened g (d.nst k).width)).modSst k fun x => { x with
    cur := some i
    degraded := if (d.entry i).degThresh || (d.entry i).degReduce then x.degraded else satInc 32 x.degraded }

section
variable {d : Dev} {k i : Nat}

theorem dropScreened_frame (k : Nat) (d : Dev) : dropScreened k d = { d with imp := (dropScreened k d).imp } := by
  unfold dropScreened
  split <;> rfl

theorem dropScreened_entry_ne {j : Nat} (h : (d.sst k).cur ≠ some j) : (dropScreened k d).entry j = d.entry j := by
  unfold dropScreened
  split
  · next l hcur => exact Dev.entry_modEntry_ne _ _ _ _ fun heq => h (heq ▸ hcur)
  · rfl

theorem dropScreened_entry_cur (h : (d.sst k).cur = some i) :
    (dropScreened k d).entry i = { d.entry i with lines := [], carry := [], staged := false } := by
  unfold dropScreened
  rw [h]
  exact Dev.entry_modEntry ..

/-- What screening again overwrites is all that the attempt in screening lost. -/
theorem rescreened_dropScreened (g : Degrade) (w : Nat) :
    rescreened g w ((dropScreened k d).entry i) = rescreened g w (d.entry i) := by
  by_cases hcur : (d.sst k).cur = some i
  · rw [dropScreened_entry_cur hcur]
    rfl
  · rw [dropScreened_entry_ne hcur]

theorem adopt_entry (d : Dev) (k j : Nat) : (d.adopt k).entry j = d.entry j := by
  obtain ⟨-, hframe⟩ := adopt_spec d k
  rw [hframe]
  rfl

theorem adopt_pend (d : Dev) (k : Nat) :
    ((d.adopt k).sst k).tonePend = none ∧ ((d.adopt k).sst k).densityPend = none := by
  obtain ⟨hadopted, -⟩ := adopt_spec d k
  rw [hadopted]
  exact ⟨rfl, rfl⟩

theorem restage_none (h : d.candidate k = none) : d.restage k = d := by
  unfold Dev.restage
  rw [h]

theorem restage_unfit (h : d.candidate k = some i)
    (hno : ¬ ∃ g, strongerSet d (d.entry i) = some g ∧ waitedLong d (d.entry i) = true) : d.restage k = d := by
  have hfilter : (strongerSet d (d.entry i)).filter (fun _ => waitedLong d (d.entry i)) = none := by
    rw [Option.filter_eq_none_iff]
    exact fun g hg hwaited => hno ⟨g, hg, hwaited⟩
  unfold strongerSet waitedLong at hfilter
  unfold Dev.restage
  rw [h]
  dsimp only
  rw [hfilter]

theorem restage_fits {g : Degrade} (h : d.candidate k = some i) (hset : strongerSet d (d.entry i) = some g)
    (hwaited : waitedLong d (d.entry i) = true) : d.restage k = restagedWith k i g d := by
  have hfilter : (strongerSet d (d.entry i)).filter (fun _ => waitedLong d (d.entry i)) = some g := by
    rw [hset, Option.filter_some, if_pos hwaited]
  unfold strongerSet waitedLong at hfilter
  unfold Dev.restage
  rw [h]
  dsimp only
  rw [hfilter]
  have hwidth : (((dropScreened k d).adopt k).nst k).width = (d.nst k).width := by
    obtain ⟨-, hframe⟩ := adopt_spec (dropScreened k d) k
    rw [hframe, dropScreened_frame]
    rfl
  unfold restagedWith
  rw [← hwidth]
  rfl

theorem restagedWith_frame (k i : Nat) (g : Degrade) (d : Dev) : restagedWith k i g d =
    { d with imp := (restagedWith k i g d).imp, scr := (restagedWith k i g d).scr } := by
  obtain ⟨-, hframe⟩ := adopt_spec (dropScreened k d) k
  unfold restagedWith
  rw [hframe, dropScreened_frame]
  rfl

theorem restagedWith_entry (g : Degrade) : (restagedWith k i g d).entry i = rescreened g (d.nst k).width (d.entry i) := by
  refine (Dev.entry_modEntry ..).trans ?_
  rw [adopt_entry, rescreened_dropScreened]

theorem restagedWith_entry_ne (g : Degrade) {j : Nat} (hj : j ≠ i) (hcur : (d.sst k).cur ≠ some j) :
    (restagedWith k i g d).entry j = d.entry j :=
  (Dev.entry_modEntry_ne _ _ _ _ hj).trans ((adopt_entry ..).trans (dropScreened_entry_ne hcur))

theorem restagedWith_sst (g : Degrade) : ((restagedWith k i g d).sst k).cur = some i ∧
    ((restagedWith k i g d).sst k).tonePend = none ∧ ((restagedWith k i g d).sst k).densityPend = none := by
  unfold restagedWith
  rw [Dev.sst_modSst]
  exact ⟨rfl, adopt_pend ..⟩

end

/-- A held attempt that waited and would fit with a stronger set is to be screened again with it (R520). -/
theorem heldAttemptTimer_goes {s : State} (hs : Settled s) (hon : s.dev.on 5 = true) {k i : Nat} {g : Degrade}
    (hcand : s.dev.candidate k = some i) (hset : strongerSet s.dev (s.dev.entry i) = some g)
    (hwaited : waitedLong s.dev (s.dev.entry i) = true) : Goes (.heldAttemptTimer k) s fun t =>
      t.dev.entry i = rescreened g (s.dev.nst k).width (s.dev.entry i) ∧
      (t.dev.sst k).cur = some i ∧ (t.dev.sst k).tonePend = none ∧ (t.dev.sst k).densityPend = none ∧
      (∀ j, j ≠ i → (s.dev.sst k).cur ≠ some j → t.dev.entry j = s.dev.entry j) ∧
      Only { s.dev with imp := t.dev.imp, scr := t.dev.scr } s t := by
  obtain ⟨hcur, htone, hdensity⟩ := restagedWith_sst (d := s.dev) (k := k) (i := i) g
  have hframe := restagedWith_frame k i g s.dev
  have hsettled : (restagedWith k i g s.dev).flt.todo = [] := by rw [hframe]; exact hs
  exact ⟨_, inDomain_run hon (restage_fits hcand hset hwaited) hsettled, restagedWith_entry g, hcur, htone, hdensity,
    fun j hj hscreens => restagedWith_entry_ne g hj hscreens, congrArg (fun d => ({ s with dev := d } : State)) hframe⟩

/-- Settles O57, event by event: when a stop ends and that stage 7 follows are log entries 42 and 43, which ports take a
bias and which attempts are held are 45 and 63. -/
theorem schedulerTimersStopReheatAndRestage : Obligations.SchedulerTimersStopReheatAndRestage := by
  unfold Obligations.SchedulerTimersStopReheatAndRestage
  intro s hs
  refine ⟨fun hon => ⟨fun hwaits => inDomain_stay hon hs (stopEnd_waits hwaits), fun hdone =>
      ⟨fun hshut => ?shutdown, fun hshut hseven => ?stage7, orderlyStopEnd_goes hs hon hdone⟩⟩,
    fun hon => ⟨⟨forN 16 Dev.heatBias s.dev, inDomain_post hon rfl, fun p hp => forN_heatBias_down hp,
      fun p hp => forN_heatBias_up hp, forN_heatBias_flt, forN_heatBias_frame 16 s.dev⟩,
      fun k => ⟨fun hnone => inDomain_stay hon hs (restage_none hnone), fun i hcand hunfit => ?unfit,
        fun i g hcand hdue => ?fits⟩⟩⟩
  case shutdown => exact inDomain_post hon ((stopEnd_complete hdone).trans (if_pos hshut))
  case stage7 =>
    exact inDomain_post hon ((stopEnd_complete hdone).trans ((if_neg (Bool.eq_false_iff.mp hshut)).trans (if_pos hseven)))
  case unfit =>
    refine inDomain_stay hon hs (restage_unfit hcand fun ⟨g, hset, hwaited⟩ => hunfit ⟨g, hset, ?_⟩)
    exact Bool.and_eq_true_iff.mp hwaited
  case fits =>
    obtain ⟨hset, hwaited⟩ := hdue
    exact heldAttemptTimer_goes hs hon hcand hset (Bool.and_eq_true_iff.mpr hwaited)

end Sys2Proof.Proofs
end

section
/-! The step: the command at the front of the queue, and the passing of time on an empty queue (spec chapter 11, R562, R563). -/

namespace Sys2Proof.Proofs

open Sys2Proof.Machine Sys2Proof.Laws

/-! ### A step by the shape of the queue -/

theorem step_of_cons {s : State} {c : Instr} {rest : List Instr} (h : s.pending = c :: rest) :
    step s = exec c { s with pending := rest } := by
  unfold step
  rw [h]

theorem step_of_nil {s : State} (h : s.pending = []) : step s = .next (idle s) := by
  unfold step
  rw [h]

theorem idle_of_off {s : State} (h : s.dev.sys.powered = false) : idle s = s := if_neg (Bool.eq_false_iff.mp h)

theorem idle_of_on {s : State} (h : s.dev.sys.powered = true) : idle s = s.onDev (Dev.advance (40 * 2 ^ 16)) := if_pos h

/-! ### What the passing of time does to the time bases -/

/-- Base b after n units of 2^-16 ns of TB_2 (R562). -/
def tbAfter (n : Nat) (b : Tb) : Tb := { b with t := b.t + n * (2 ^ 40 + b.y) }

/-- TB_0 and TB_1 advance each by its own rate; no other element of the table changes. -/
theorem advance_tb (n : Nat) (d : Dev) (k : Nat) :
    (d.advance n).tb k = if k < 2 then tbAfter n (d.tb k) else d.tb k := by
  have advanced : (d.advance n).tb k = ((d.modTb 0 (tbAfter n)).modTb 1 (tbAfter n)).tb k := rfl
  rw [advanced]
  match k with
  | 0 => exact (Dev.tb_modTb_ne _ _ _ _ Nat.zero_ne_one).trans (Dev.tb_modTb ..)
  | 1 => exact (Dev.tb_modTb ..).trans (congrArg (tbAfter n) (Dev.tb_modTb_ne _ _ _ _ Nat.one_ne_zero))
  | k + 2 =>
    rw [Dev.tb_modTb_ne _ _ _ _ (by omega), Dev.tb_modTb_ne _ _ _ _ (by omega), if_neg (by omega)]

/-- Time passes in the three bases alone. -/
theorem advance_frame (n : Nat) (d : Dev) :
    d.advance n = { d with time := { d.time with tb2 := d.time.tb2 + n, tb := (d.advance n).time.tb } } := rfl

/-- Settles O1: the queue decides between its front command and the idle step, whose 40 ns are the choice of log entry 23;
on a powered device time passes in the three bases alone. -/
theorem stepRunsTheFrontCommand : Obligations.StepRunsTheFrontCommand := by
  unfold Obligations.StepRunsTheFrontCommand
  refine fun s => ⟨fun c rest => step_of_cons, fun hempty hoff => ?off, fun hempty hon => ?on⟩
  case off => rw [step_of_nil hempty, idle_of_off hoff]
  case on =>
    have hframe := advance_frame (40 * 2 ^ 16) s.dev
    exact ⟨s.onDev (Dev.advance (40 * 2 ^ 16)), by rw [step_of_nil hempty, idle_of_on hon],
      congrArg (fun d => d.time.tb2) hframe, advance_tb (40 * 2 ^ 16) s.dev, congrArg Dev.time hframe,
      congrArg (fun d => ({ s with dev := d } : State)) hframe⟩

end Sys2Proof.Proofs
end

section
/-! One computation of a control loop: its limits and its ramp (spec chapter 13, R676). -/

namespace Sys2Proof.Proofs

open Sys2Proof.Machine Sys2Proof.Laws

/-- A value held between ordered bounds lies between them. -/
theorem clampI_bounds {lo hi : Int} (h : lo ≤ hi) (x : Int) : lo ≤ clampI x lo hi ∧ clampI x lo hi ≤ hi := by
  unfold clampI
  split
  case isTrue => exact ⟨le_rfl, h⟩
  case isFalse => split <;> omega

theorem roundHalfAway_nonneg {num den : Int} (hn : 0 ≤ num) (hd : 0 ≤ den) : 0 ≤ roundHalfAway num den := by
  unfold roundHalfAway
  rw [if_pos hn]
  exact Int.ediv_nonneg (by omega) (by omega)

section
variable (y raw : Int) (vs : Nat) (hold : Bool) (x : Loop)

/-- u is held between OUT_MIN and OUT_MAX. -/
theorem compute_u : ∃ w, (Loop.compute y raw vs hold x).u = clampI w x.cfg.outMin x.cfg.outMax := ⟨_, rfl⟩

/-- The integral stands still, or is held between OUT_MIN and OUT_MAX. -/
theorem compute_i : (Loop.compute y raw vs hold x).i = x.i ∨
    ∃ w, (Loop.compute y raw vs hold x).i = clampI w x.cfg.outMin x.cfg.outMax :=
  (ite_eq_or_eq _ _ _).imp_right fun h => ⟨_, h⟩

/-- r moves towards SET from where it was, or from y where the ramp starts again. -/
theorem compute_r : (Loop.compute y raw vs hold x).r =
    let r := if x.restart then y else x.r
    let most := roundHalfAway (x.cfg.ramp * x.cfg.periodUs) 1000000
    r + clampI (x.set - r) (-most) most := rfl

end

/-- Settles O29: u and the integral are clamped to the output's range, the change of r to one ramp step. -/
theorem loopOutputAndIntegralStayWithinTheirLimits : Obligations.LoopOutputAndIntegralStayWithinTheirLimits := by
  unfold Obligations.LoopOutputAndIntegralStayWithinTheirLimits
  intro y raw vs hold x hrange hramp x' most
  have hmost : 0 ≤ most := roundHalfAway_nonneg (mul_nonneg hramp (Int.natCast_nonneg _)) (by decide)
  obtain ⟨w, hu⟩ : ∃ w, x'.u = clampI w x.cfg.outMin x.cfg.outMax := compute_u ..
  obtain ⟨humin, humax⟩ := clampI_bounds hrange w
  have hi : x'.i = x.i ∨ x.cfg.outMin ≤ x'.i ∧ x'.i ≤ x.cfg.outMax :=
    (compute_i y raw vs hold x).imp_right fun ⟨w, hi⟩ => hi ▸ clampI_bounds hrange w
  have hr : x'.r = _ := compute_r ..
  obtain ⟨hdown, hup⟩ := clampI_bounds (by omega : -most ≤ most) (x.set - if x.restart then y else x.r)
  refine ⟨hu ▸ humin, hu ▸ humax, hi, ?_, ?_, rfl, rfl, rfl⟩
  · rw [hr]; exact Int.add_le_add_left hdown _
  · rw [hr]; exact Int.add_le_add_left hup _

end Sys2Proof.Proofs
end

section
/-! The events of a brushless channel: PWM periods, speed updates, chopper checks and the start sequence (spec chapter 13). -/

namespace Sys2Proof.Proofs

open Sys2Proof.Machine Sys2Proof.Laws

/-! ### The states of a channel -/

section
variable {n m : Nat} {d : Dev}

/-- A channel that measures its motor's speed has its outputs off (R662). -/
theorem blMeasure_bch : (d.blMeasure n).bch n = { d.bch n with
    pwmOn := false, brake := false, iqRef := 0, regen := false, holding := false
    st := .measuring, startResult := 6, aligned := false } :=
  (Dev.bch_modBch ..).trans (congrArg (fun c : BlCh => { c with st := .measuring, startResult := 6, aligned := false })
    ((pin_bch ..).trans (Dev.bch_modBch ..)))

theorem blMeasure_bch_ne (h : m ≠ n) : (d.blMeasure n).bch m = d.bch m :=
  (Dev.bch_modBch_ne _ _ _ _ h).trans ((pin_bch ..).trans (Dev.bch_modBch_ne _ _ _ _ h))

/-- A channel that enters RUNNING ramps on from the speed at hand (R662, R664). -/
theorem blRun_bch (result : Nat) (speed : Int) : (d.blRun n result speed).bch n = { d.bch n with
    st := .running, startResult := result, ramped := speed * 2 ^ 16, starts := ((d.bch n).starts + 1) % 2 ^ 32, pwmOn := true
    brake := false, integ := 0, periods := 0, limited := false, skipRun := 0, fromRest := false } :=
  (pin_bch ..).trans (Dev.bch_modBch ..)

theorem blRun_bch_ne (result : Nat) (speed : Int) (h : m ≠ n) : (d.blRun n result speed).bch m = d.bch m :=
  (pin_bch ..).trans (Dev.bch_modBch_ne _ _ _ _ h)

end

/-! ### BL_PWM_PERIOD -/

/-- A channel that has taken a sample of bus voltage and speed. -/
def withSample (x : BlSample) (c : BlCh) : BlCh := { c with vbus := x.vbus, speed := x.speed }

/-- The largest current of a sample, which the trip current bounds (R656). -/
def topCurrent (x : BlSample) : Nat := max x.ia.natAbs (max x.ib.natAbs (x.ia + x.ib).natAbs)

theorem mag'_eq_natAbs (x : Int) : Dev.onBlPwmPeriod.mag' x = x.natAbs := by
  unfold Dev.onBlPwmPeriod.mag'
  omega

theorem topCurrent_eq (x : BlSample) : max (Dev.onBlPwmPeriod.mag' x.ia)
    (max (Dev.onBlPwmPeriod.mag' x.ib) (Dev.onBlPwmPeriod.mag' (x.ia + x.ib))) = topCurrent x := by
  simp only [mag'_eq_natAbs, topCurrent, Nat.cast_max]

section
variable {n : Nat} {d : Dev} {x : BlSample}

theorem onBlPwmPeriod_stopped (h : (d.bch n).st = .stopped) : d.onBlPwmPeriod n x = d := by
  unfold Dev.onBlPwmPeriod
  exact if_pos h

/-- A sound sample of a RUNNING channel runs one period of the current loop (R656). -/
theorem onBlPwmPeriod_sound (hst : (d.bch n).st = .running) (hov : x.vbus ≤ (d.bch n).cfg.ovLim)
    (huv : (d.bch n).cfg.uvLim ≤ x.vbus) (htop : topCurrent x ≤ (d.bch n).cfg.iTrip) :
    d.onBlPwmPeriod n x = (d.modBch n (withSample x)).blCurrents n x := by
  have htrip : ¬ ((d.bch n).cfg.iTrip : Int) < topCurrent x := by omega
  simp only [Dev.onBlPwmPeriod, topCurrent_eq, hst, htrip, not_lt.mpr hov, not_lt.mpr huv, reduceCtorEq, decide_false,
    Bool.or_false, Bool.and_false, Bool.false_and, Bool.false_eq_true, if_false]
  rfl

/-- A valid sample above I_TRIP stops a RUNNING channel (R656). -/
theorem onBlPwmPeriod_trips (hst : (d.bch n).st = .running) (hov : x.vbus ≤ (d.bch n).cfg.ovLim) (hvalid : x.valid = true)
    (htop : (d.bch n).cfg.iTrip < topCurrent x) :
    d.onBlPwmPeriod n x = (((d.modBch n (withSample x)).modBch n fun c => { c with overcurrent := true }).raise
      (152 + n) 0).blStopped n := by
  have htrip : ((d.bch n).cfg.iTrip : Int) < topCurrent x := by omega
  simp only [Dev.onBlPwmPeriod, topCurrent_eq, hst, htrip, not_lt.mpr hov, hvalid, reduceCtorEq, decide_false, decide_true,
    Bool.or_false, Bool.and_true, Bool.false_eq_true, if_false, if_true]
  rfl

/-- A valid sample counts as a period and not as a skip (R656, R659). -/
theorem blCurrents_valid (hvalid : x.valid = true) :
    ((d.blCurrents n x).bch n).iq = Config.iqOf x.ia x.ib (d.bch n).iqRef ∧
    ((d.blCurrents n x).bch n).skips = (d.bch n).skips := by
  unfold Dev.blCurrents
  rw [Dev.bch_modBch]
  exact ⟨if_pos hvalid, if_pos hvalid⟩

/-- The current loop leaves the state and the sample's readings as they are. -/
theorem blCurrents_keeps : ((d.blCurrents n x).bch n).vbus = (d.bch n).vbus ∧
    ((d.blCurrents n x).bch n).speed = (d.bch n).speed ∧ ((d.blCurrents n x).bch n).st = (d.bch n).st ∧
    ((d.blCurrents n x).bch n).periods = (d.bch n).periods + 1 := by
  unfold Dev.blCurrents
  rw [Dev.bch_modBch]
  exact ⟨rfl, rfl, rfl, rfl⟩

theorem blCurrents_bch_ne {m : Nat} (h : m ≠ n) : (d.blCurrents n x).bch m = d.bch m := Dev.bch_modBch_ne _ _ _ _ h

end

/-! ### BL_SPEED_UPDATE -/

theorem when_pin (b : Bool) (q : Pin) (i : Nat) (high : Bool) (d : Dev) :
    d.when b (Dev.pin q i high) = { d with out := if b then .pin q i high :: d.out else d.out } := by
  cases b <;> rfl

/-- A speed update changes a RUNNING channel's record, with a current set-point within I_MAX and the ramp standing still while
LIMITED or HOLDING (R656, R657, R687), and may start the chopper. -/
theorem blSpeedStep_running {n : Nat} {d : Dev} (h : (d.bch n).st = .running) : ∃ f out,
    d.blSpeedStep n = { d.modBch n f with out := out } ∧
    (-((d.bch n).cfg.iMax : Int) ≤ (f (d.bch n)).iqRef ∧ (f (d.bch n)).iqRef ≤ (d.bch n).cfg.iMax) ∧
    ((d.bch n).limited = true ∨ (d.bch n).holding = true → (f (d.bch n)).ramped = (d.bch n).ramped) := by
  unfold Dev.blSpeedStep
  extract_lets c t goal abs rate stepMax ramped e integ want opposes request ok e'
  rw [if_neg (by simp [c, h]), when_pin]
  obtain ⟨hmin, hmax⟩ : -(c.cfg.iMax : Int) ≤ want ∧ want ≤ c.cfg.iMax := clampI_bounds (by omega) _
  have hheld : ∀ drop : Bool, -(c.cfg.iMax : Int) ≤ (if drop then 0 else want) ∧ (if drop then 0 else want) ≤ c.cfg.iMax :=
    fun drop => by split <;> omega
  exact ⟨_, _, rfl, hheld _, fun hstill => if_pos (by simpa using hstill)⟩

/-! ### The start sequence -/

section
variable {n : Nat} {d : Dev}

theorem onBlChopperCheckEnd_running (pass : Bool) (h : (d.bch n).chopCheck = true) : d.onBlChopperCheckEnd n pass =
    (let d := (d.modBch n fun c => { c with chopCheck := false, chop := false, chopFault := !pass, regenOk := pass }).pin
      .blChop n false
    if pass then d.lower (160 + n) else d.raise (160 + n) 0) := by
  unfold Dev.onBlChopperCheckEnd
  exact if_neg (by simp [h])

theorem onBlBusSettled_catches (hst : (d.bch n).st = .coasting) (hwhy : (d.bch n).coastWhy = 1)
    (hbus : (d.bch n).vbus < (d.bch n).cfg.vOff) :
    d.onBlBusSettled n = (d.modBch n fun c => { c with triesDone := 0 }).blMeasure n := by
  unfold Dev.onBlBusSettled
  exact if_pos (by simp [hst, hwhy, hbus])

/-- A motor found turning forward between HANDOVER_RPM and MAX_RPM is caught (R662). -/
theorem onBlMeasureEnd_catches {speed : Int} (hst : (d.bch n).st = .measuring) (hdir : (d.bch n).dir = 1)
    (hrestart : ((d.bch n).cfg.restart : Int) ≤ speed) (hhand : ((d.bch n).cfg.handover : Int) ≤ speed)
    (hmax : speed ≤ (d.bch n).cfg.maxRpm) :
    d.onBlMeasureEnd n true speed = (d.modBch n fun c => { c with speed := speed }).blRun n 1 speed := by
  simp [Dev.onBlMeasureEnd, hst, hdir, hhand, hmax, not_lt.mpr hrestart]

theorem onBlHandover_within (hst : (d.bch n).st = .starting) (haligned : (d.bch n).aligned = true) :
    d.onBlHandover n true = d.blRun n (if (d.bch n).fromRest then 3 else 2) ((d.bch n).dir * (d.bch n).cfg.handover) := by
  simp [Dev.onBlHandover, hst, haligned]

theorem onBlRetryEnd_measures (hst : (d.bch n).st = .coasting) (hwhy : (d.bch n).coastWhy = 0) :
    d.onBlRetryEnd n = d.blMeasure n := by
  unfold Dev.onBlRetryEnd
  exact if_pos (by simp [hst, hwhy])

end

/-! ### The events -/

section
variable {s : State} {n : Nat} (hs : Settled s) (hon : s.dev.on 11 = true)
include hs hon

/-- A PWM period of a RUNNING channel with a sound sample (R656). -/
theorem blPwmPeriod_goes {x : BlSample} (hst : (s.dev.bch n).st = .running) (hov : x.vbus ≤ (s.dev.bch n).cfg.ovLim)
    (huv : (s.dev.bch n).cfg.uvLim ≤ x.vbus) (hvalid : x.valid = true) (htop : topCurrent x ≤ (s.dev.bch n).cfg.iTrip) :
    Goes (.blPwmPeriod n x) s fun t =>
      (t.dev.bch n).vbus = x.vbus ∧ (t.dev.bch n).speed = x.speed ∧ (t.dev.bch n).st = .running ∧
      (t.dev.bch n).skips = (s.dev.bch n).skips ∧ (t.dev.bch n).periods = (s.dev.bch n).periods + 1 ∧
      (t.dev.bch n).iq = Config.iqOf x.ia x.ib (s.dev.bch n).iqRef ∧
      (∀ m, m ≠ n → t.dev.bch m = s.dev.bch m) ∧ Only { s.dev with bl := t.dev.bl } s t := by
  have hsampled : (s.dev.modBch n (withSample x)).bch n = withSample x (s.dev.bch n) := Dev.bch_modBch ..
  obtain ⟨hiq, hskips⟩ := blCurrents_valid (n := n) (d := s.dev.modBch n (withSample x)) hvalid
  obtain ⟨hvbus, hspeed, hrunning, hperiods⟩ := blCurrents_keeps (n := n) (d := s.dev.modBch n (withSample x)) (x := x)
  rw [hsampled] at hiq hskips hvbus hspeed hrunning hperiods
  exact ⟨_, inDomain_run (g := fun _ => _) hon (onBlPwmPeriod_sound hst hov huv htop) hs, hvbus, hspeed, hrunning.trans hst,
    hskips, hperiods, hiq, fun m hm => (blCurrents_bch_ne hm).trans (Dev.bch_modBch_ne _ _ _ _ hm), rfl⟩

/-- A speed update of a RUNNING channel (R656). -/
theorem blSpeedUpdate_goes (hst : (s.dev.bch n).st = .running) :
    Goes (.blSpeedUpdate n) s fun t =>
      - ((s.dev.bch n).cfg.iMax : Int) ≤ (t.dev.bch n).iqRef ∧ (t.dev.bch n).iqRef ≤ (s.dev.bch n).cfg.iMax ∧
      ((s.dev.bch n).limited = true ∨ (s.dev.bch n).holding = true → (t.dev.bch n).ramped = (s.dev.bch n).ramped) ∧
      (∀ m, m ≠ n → t.dev.bch m = s.dev.bch m) ∧ Only { s.dev with bl := t.dev.bl, out := t.dev.out } s t := by
  obtain ⟨f, out, hstep, ⟨hmin, hmax⟩, hstill⟩ := blSpeedStep_running hst
  have hch : ({ s.dev.modBch n f with out := out } : Dev).bch n = f (s.dev.bch n) := Dev.bch_modBch ..
  refine ⟨_, inDomain_run (g := fun _ => _) hon hstep hs, hch ▸ hmin, hch ▸ hmax, hch ▸ hstill,
    fun m hm => Dev.bch_modBch_ne _ _ _ _ hm, rfl⟩

/-- A channel measures again once the bus has settled (R672). -/
theorem blBusSettled_goes (hst : (s.dev.bch n).st = .coasting) (hwhy : (s.dev.bch n).coastWhy = 1)
    (hbus : (s.dev.bch n).vbus < (s.dev.bch n).cfg.vOff) :
    Goes (.blBusSettled n) s fun t => (t.dev.bch n).st = .measuring ∧ (t.dev.bch n).triesDone = 0 ∧
      (∀ m, m ≠ n → t.dev.bch m = s.dev.bch m) ∧ Only { s.dev with bl := t.dev.bl, out := t.dev.out } s t := by
  refine ⟨_, inDomain_run (g := fun _ => _) hon (onBlBusSettled_catches hst hwhy hbus) hs, congrArg BlCh.st blMeasure_bch, ?_,
    fun m hm => (blMeasure_bch_ne hm).trans (Dev.bch_modBch_ne _ _ _ _ hm), rfl⟩
  exact (congrArg BlCh.triesDone blMeasure_bch).trans (congrArg BlCh.triesDone (Dev.bch_modBch ..))

/-- A channel whose motor is found turning fast enough runs at the measured speed (R662). -/
theorem blMeasureEnd_goes {speed : Int} (hst : (s.dev.bch n).st = .measuring) (hdir : (s.dev.bch n).dir = 1)
    (hrestart : ((s.dev.bch n).cfg.restart : Int) ≤ speed) (hhand : ((s.dev.bch n).cfg.handover : Int) ≤ speed)
    (hmax : speed ≤ (s.dev.bch n).cfg.maxRpm) :
    Goes (.blMeasureEnd n true speed) s fun t => (t.dev.bch n).st = .running ∧ (t.dev.bch n).startResult = 1 ∧
      (t.dev.bch n).ramped = speed * 2 ^ 16 ∧ (t.dev.bch n).speed = speed ∧
      (∀ m, m ≠ n → t.dev.bch m = s.dev.bch m) ∧ Only { s.dev with bl := t.dev.bl, out := t.dev.out } s t := by
  refine ⟨_, inDomain_run (g := fun _ => _) hon (onBlMeasureEnd_catches hst hdir hrestart hhand hmax) hs,
    congrArg BlCh.st (blRun_bch ..), congrArg BlCh.startResult (blRun_bch ..), congrArg BlCh.ramped (blRun_bch ..), ?_,
    fun m hm => (blRun_bch_ne _ _ hm).trans (Dev.bch_modBch_ne _ _ _ _ hm), rfl⟩
  exact (congrArg BlCh.speed (blRun_bch ..)).trans (congrArg BlCh.speed (Dev.bch_modBch ..))

/-- The alignment of a STARTING channel ends (R664). -/
theorem blAlignEnd_goes (hst : (s.dev.bch n).st = .starting) :
    Goes (.blAlignEnd n) s fun t => t.dev.bch n = { s.dev.bch n with aligned := true } ∧
      (∀ m, m ≠ n → t.dev.bch m = s.dev.bch m) ∧ Only { s.dev with bl := t.dev.bl } s t :=
  ⟨_, inDomain_run (g := fun _ => _) hon rfl hs, (Dev.bch_modBch ..).trans (if_pos hst),
    fun _ hm => Dev.bch_modBch_ne _ _ _ _ hm, rfl⟩

/-- An observer that has found the forced angle takes over at HANDOVER_RPM (R664, R665). -/
theorem blHandover_goes (hst : (s.dev.bch n).st = .starting) (haligned : (s.dev.bch n).aligned = true) :
    Goes (.blHandover n true) s fun t => (t.dev.bch n).st = .running ∧
      (t.dev.bch n).startResult = (if (s.dev.bch n).fromRest then 3 else 2) ∧
      (t.dev.bch n).ramped = (s.dev.bch n).dir * (s.dev.bch n).cfg.handover * 2 ^ 16 ∧
      (∀ m, m ≠ n → t.dev.bch m = s.dev.bch m) ∧ Only { s.dev with bl := t.dev.bl, out := t.dev.out } s t :=
  ⟨_, inDomain_run (g := fun _ => _) hon (onBlHandover_within hst haligned) hs, congrArg BlCh.st (blRun_bch ..),
    congrArg BlCh.startResult (blRun_bch ..), congrArg BlCh.ramped (blRun_bch ..), fun _ hm => blRun_bch_ne _ _ hm, rfl⟩

/-- After RETRY_MS the next try begins with a measurement (R665). -/
theorem blRetryEnd_goes (hst : (s.dev.bch n).st = .coasting) (hwhy : (s.dev.bch n).coastWhy = 0) :
    Goes (.blRetryEnd n) s fun t => (t.dev.bch n).st = .measuring ∧ (t.dev.bch n).triesDone = (s.dev.bch n).triesDone ∧
      (∀ m, m ≠ n → t.dev.bch m = s.dev.bch m) ∧ Only { s.dev with bl := t.dev.bl, out := t.dev.out } s t :=
  ⟨_, inDomain_run (g := fun _ => _) hon (onBlRetryEnd_measures hst hwhy) hs, congrArg BlCh.st blMeasure_bch,
    (congrArg BlCh.triesDone blMeasure_bch).trans rfl, fun _ hm => blMeasure_bch_ne hm, rfl⟩

end

/-- Settles O27, event by event. -/
theorem channelEventsDriveTheStartSequenceAndLoops : Obligations.ChannelEventsDriveTheStartSequenceAndLoops := by
  unfold Obligations.ChannelEventsDriveTheStartSequenceAndLoops
  exact fun s n hs hon => ⟨fun x hst hov huv hvalid htop => blPwmPeriod_goes hs hon hst hov huv hvalid htop,
    fun x hst => inDomain_stay hon hs (onBlPwmPeriod_stopped hst),
    fun x hst hov hvalid htop => inDomain_post hon (onBlPwmPeriod_trips hst hov hvalid htop),
    blSpeedUpdate_goes hs hon,
    fun pass hcheck => inDomain_post hon (onBlChopperCheckEnd_running pass hcheck),
    blBusSettled_goes hs hon,
    fun speed hst hdir hrestart hhand hmax => blMeasureEnd_goes hs hon hst hdir hrestart hhand hmax,
    blAlignEnd_goes hs hon, blHandover_goes hs hon, blRetryEnd_goes hs hon⟩

end Sys2Proof.Proofs
end

section
/-! The LOOP commands and LOOP_UPDATE (spec chapter 13). -/

namespace Sys2Proof.Proofs

open Sys2Proof.Machine Sys2Proof.Laws

/-- A row that makes of the device e, which differs in the channels and loops only, and completes DONE. -/
theorem row_lp {op : Nat} {p : Packet} {s : State} (h : Ready op p s) {chk : Packet → Dev → Option Status}
    (hc : chk p s.dev = none) {f : Packet → Dev → Dev} {e : Dev} (he : e = { s.dev with bl := e.bl })
    (hf : f p s.dev = e.complete p.ref .done 0 0) :
    ∃ t, opRow op chk (onPkt f) p.ring p.seq s = .next t ∧ Completed p .done 0 0 s t ∧ (∀ l, t.dev.lp l = e.lp l) ∧
      Only { Dev.ringed s.dev t.dev with bl := t.dev.bl } s t := by
  obtain ⟨hnext, hcompleted⟩ := does_of h hc e .done 0 0 hf (by rw [he]) (pre := []) (by rw [he]; rfl) (by rw [he]; exact h.1)
  exact ⟨_, hnext, hcompleted, fun l => complete_lp_at .., only_complete_bl he ..⟩

/-! ### LOOP_SET_POINT -/

/-- LOOP_SET_POINT sets SET, and the ramp of a loop that runs starts again (R677). -/
theorem loopSetPoint_does {s : State} {p : Packet} (h : Ready 0x0B01 p s) (hc : chkLoopSetPoint p s.dev = none) :
    Does (.loopSetPoint p.ring p.seq) p .done 0 0 s fun t =>
      t.dev.lp p.target = { s.dev.lp p.target with set := p.sfld 0 0 32, restart := (s.dev.lp p.target).enabled } ∧
      (∀ m, m ≠ p.target → t.dev.lp m = s.dev.lp m) ∧ Only { Dev.ringed s.dev t.dev with bl := t.dev.bl } s t := by
  obtain ⟨t, hnext, hcompleted, hlp, honly⟩ := row_lp h hc (f := runLoopSetPoint) (by rfl) rfl
  exact ⟨t, hnext, hcompleted, (hlp _).trans (Dev.lp_modLp ..), fun m hm => (hlp m).trans (Dev.lp_modLp_ne _ _ _ _ hm), honly⟩

/-! ### LOOP_ENABLE -/

/-- A loop that starts takes OUT_INIT as its integral and the measured value y as r, y_prev and the model (R678). -/
theorem startLoop_lp (l : Nat) (d : Dev) : (d.startLoop l).lp l =
    (let y := d.loopY (d.lp l).cfg
    { d.lp l with
      i := (d.lp l).cfg.outInit, r := y, y := y, yPrev := y, dm := 0, model := y, u := (d.lp l).cfg.outInit, satHi := false
      satLo := false, restart := false, badUs := 0, rawRun := 0 }) := Dev.lp_modLp ..

theorem startLoop_lp_ne {l m : Nat} (h : m ≠ l) (d : Dev) : (d.startLoop l).lp m = d.lp m := Dev.lp_modLp_ne _ _ _ _ h

section
variable {p : Packet} {d : Dev}

theorem runLoopEnable_on (h : p.flag 0 0 = true) : runLoopEnable p d =
    ((d.startLoop p.target).modLp p.target fun x => { x with enabled := true }).complete p.ref .done 0 0 := if_pos h

/-- A loop that is disabled is plausible again, and a DRY zone or pin it drove is off (R678, R684). -/
theorem runLoopEnable_off (h : p.flag 0 0 = false) : runLoopEnable p d =
    (let d' := (d.modLp p.target fun x => { x with enabled := false, implausible := false }).lower (168 + p.target)
    let k := (d.lp p.target).cfg.outKind
    (if k = 1 ∨ k = 2 then (d'.modLp p.target fun x => { x with out := 0 }).deliver p.target else d').complete
      p.ref .done 0 0) := by
  unfold runLoopEnable
  dsimp only
  rw [if_neg (ne_true_of_eq_false h)]
  simp only [Bool.or_eq_true, decide_eq_true_eq]

end

/-- LOOP_ENABLE with ENABLE 1 starts the loop (R678). -/
theorem loopEnable_does {s : State} {p : Packet} (h : Ready 0x0B02 p s) (hc : chkLoopEnable p s.dev = none)
    (hon : p.flag 0 0 = true) :
    Does (.loopEnable p.ring p.seq) p .done 0 0 s fun t =>
      let y := s.dev.loopY (s.dev.lp p.target).cfg
      (t.dev.lp p.target).enabled = true ∧ (t.dev.lp p.target).i = (s.dev.lp p.target).cfg.outInit ∧
      (t.dev.lp p.target).r = y ∧ (t.dev.lp p.target).yPrev = y ∧ (t.dev.lp p.target).model = y ∧
      (t.dev.lp p.target).dm = 0 ∧
      (∀ m, m ≠ p.target → t.dev.lp m = s.dev.lp m) ∧ Only { Dev.ringed s.dev t.dev with bl := t.dev.bl } s t := by
  obtain ⟨t, hnext, hcompleted, hlp, honly⟩ := row_lp h hc (by rfl) (runLoopEnable_on hon)
  have hstarted : t.dev.lp p.target = { (s.dev.startLoop p.target).lp p.target with enabled := true } :=
    (hlp _).trans (Dev.lp_modLp ..)
  rw [startLoop_lp] at hstarted
  have hother : ∀ m, m ≠ p.target → t.dev.lp m = s.dev.lp m := fun m hm =>
    ((hlp m).trans (Dev.lp_modLp_ne _ _ _ _ hm)).trans (startLoop_lp_ne hm _)
  refine ⟨t, hnext, hcompleted, ?_, ?_, ?_, ?_, ?_, ?_, hother, honly⟩ <;> rw [hstarted]

/-! ### LOOP_UPDATE -/

section
variable {l : Nat} {d : Dev}

theorem onLoopUpdate_disabled (h : (d.lp l).enabled = false) : d.onLoopUpdate l = d := by
  unfold Dev.onLoopUpdate
  exact if_pos (by simp [h])

/-- An update computes the loop once, tells the collector of a loop that has become implausible, and delivers the output, which
reaches its unit at once (R676, R679, R684, log entry 18). -/
theorem onLoopUpdate_enabled (h : (d.lp l).enabled = true) : d.onLoopUpdate l =
    (let c := (d.lp l).cfg
    let d' := d.modLp l (Loop.compute (d.loopY c) (d.loopRaw c) (Tab.get 0 d.pwr.hkExt c.vsCh)
      (decide (c.outKind = 3) && decide (5 ≤ d.sched.stage)))
    (if (d'.lp l).implausible && !(d.lp l).implausible then d'.raise (168 + l) 0 else d').deliver l) := by
  unfold Dev.onLoopUpdate
  exact if_neg (by simp [h])

end

/-- Settles O28, row by row. -/
theorem loopCommandsConfigureSetEnableReadAndRestart : Obligations.LoopCommandsConfigureSetEnableReadAndRestart := by
  unfold Obligations.LoopCommandsConfigureSetEnableReadAndRestart
  exact fun s p => ⟨fun h hc => opRow_post h hc rfl, loopSetPoint_does, loopEnable_does,
    fun h hc hoff => opRow_post h hc (runLoopEnable_off hoff),
    fun h => row_answers h (chk := chkLoopRead) (f := runLoopRead) rfl rfl,
    fun h => opRow_post h (chk := chkLoopReinit) rfl rfl,
    fun l hs hon => ⟨fun hoff => inDomain_stay hon hs (onLoopUpdate_disabled hoff),
      fun hrun => inDomain_post hon (onLoopUpdate_enabled hrun)⟩⟩

end Sys2Proof.Proofs
end

section
/-! The invariant of every step (spec chapters 14 to 16 and 18): every command is answered, keeps the queue and the form of the
memories, and leaves nothing posted. -/

namespace Sys2Proof.Proofs

open Sys2Proof.Machine Sys2Proof.Laws

/-- A row on the whole state whose effect keeps the state. -/
theorem answers_opRow_of {op : Nat} {chk : Packet → Dev → Option Status} {run : Packet → State → State}
    (h : ∀ p s, Kept s (run p s)) (r seq : Nat) (s : State) : Answers (opRow op chk run r seq s) s :=
  answers_opRow op chk r seq s h

theorem answers_powerOn (s : State) : Answers (execPowerOn s) s :=
  ⟨_, rfl, kept_coldBoot 1 s, fun _ => coldBooted_settled (coldBoot_spec 1 s)⟩

theorem answers_powerRemoved (s : State) : Answers (execPowerRemoved s) s := ⟨_, rfl, kept_emptied s _, fun _ => rfl⟩

theorem answers_perstRelease (s : State) : Answers (execPerstRelease s) s := ⟨_, rfl, kept_onDev s _, id⟩

/-- Every command is answered with a next state that keeps the queue and the memories' form; the cases stand by guard, those of
the domains whose effect is on the device alone last. -/
theorem exec_answers (c : Instr) (s : State) : Answers (exec c s) s := by
  cases c with
  | powerOn => exact answers_powerOn s
  | powerRemoved => exact answers_powerRemoved s
  | perstRelease => exact answers_perstRelease s
  | registerWrite path addr v => exact answers_busAccess (kept_writeBy path addr v.toNat s)
  | readToClear path addr | counterLowRead path addr => exact answers_busAccess (kept_readBy path addr s)
  | mspiWriteFrame addr bytes => exact answers_busAccess (kept_mspiWrite addr bytes s)
  | mspiReadFrame addr count ready => exact answers_busAccess (kept_mspiRead addr count ready s)
  | mspiStatusFrame => exact answers_busAccess (kept_onDev s _)
  | sramcBankCtrlWrite n v => exact answers_ite (kept_onDev s _)
  | regPollRead r seq => exact answers_ite (kept_pollRead (r, seq) s)
  | ringTailWrite | ringSlotFetch | indirectPayloadFetch | cqHeadWrite | ringEnable | ringDisable | clearWindow |
    ringIrqHoldoffEnd | rptqHeadWrite | rptqEnable | barrierTimeout | regPollTimeout =>
    exact answers_ringEvent _ s
  | bar2Write o b => exact answers_inDomainS 6 (kept_bar2Write o b s)
  | tableApertureAccess x w =>
    rw [exec, execTableApertureAccess]
    apply answers_inDomainS
    exact kept_aperture x w s
  | dmaTransferEnd c moved other => exact answers_inDomainS 4 (kept_dmaFinish c moved other s)
  | dmaBusError c kind dir addr moved => exact answers_inDomainS 4 (kept_dmaFail c kind dir addr moved s)
  | dmaGo c v | dmaCtrlAbort c v | dmaCtrlClear c v => exact answers_inDomainS 4 (kept_dmaCtrl c _ s)
  | ckptRecordProgrammed ok => exact answers_inDomainS 0 (kept_recordEnds ok s)
  | ckptSectorErased => exact answers_inDomainS 0 (kept_sectorErased s)
  | ddrTrainingEnd c ok => exact answers_inDomainS 7 (kept_trainingEnds c ok s)
  | ddrReadReturn c a reader ue =>
    rw [exec, execDdrReadReturn]
    apply answers_inDomainS
    exact kept_ite ((kept_onDev s _).trans (kept_ueOutcome a reader _)) (kept_onDev s _)
  | bankClearEnd n => exact answers_inDomainS 6 (kept_bankCleared n s)
  | pllLock k =>
    rw [exec, execPllLock]
    apply answers_inDomainS
    exact (kept_onDev s _).trans (kept_clocksDone _)
  | bootWatchdogExpire =>
    rw [exec, execBootWatchdogExpire]
    apply answers_inDomainS
    exact kept_ite (.refl s) (kept_failedStart s)
  | fwImageLoadEnd =>
    rw [exec, execFwImageLoadEnd]
    apply answers_inDomainS
    exact kept_ite (kept_loadImage s) (.refl s)
  | bootOperational =>
    rw [exec, execBootOperational]
    apply answers_inDomainS
    exact kept_ite (kept_operational s) (.refl s)
  | pfwRelease => exact answers_inDomainS 0 (kept_pfwRises s)
  | shedStageClear => exact answers_inDomainS 0 (kept_stageClears s)
  | cycleOffExpire =>
    rw [exec, execCycleOffExpire]
    apply answers_inDomainS
    exact kept_ite (kept_coldBoot 2 s) (.refl s)
  | fabricParityRefuse region hop again => exact answers_inDomainS _ (kept_parityRefuse region hop again s)
  | diagMemtestEnd r seq failing => exact answers_inDomainS 6 (kept_memtestDone (r, seq) failing s)
  | fwWriteProgrammed ok => exact answers_inDomainS 0 (kept_fwProgrammed ok s)
  | sysFwWrite => exact answers_opRow_of kept_runSysFwWrite _ _ s
  | sysFwActivate => exact answers_opRow_of kept_runSysFwActivate _ _ s
  | regRead => exact answers_opRow_of kept_runRegRead _ _ s
  | regWrite => exact answers_opRow_of kept_runRegWrite _ _ s
  | regRmw => exact answers_opRow_of kept_runRegRmw _ _ s
  | regTableWrite => exact answers_opRow_of kept_runRegTableWrite _ _ s
  | regTableRead => exact answers_opRow_of kept_runRegTableRead _ _ s
  | impRelease => exact answers_opRow_of kept_runImpRelease _ _ s
  | stageDmaAbort => exact answers_opRow_of kept_runStageDmaAbort _ _ s
  | stageReinit => exact answers_opRow_of kept_runStageReinit _ _ s
  | diagReinit => exact answers_opRow_of kept_runDiagReinit _ _ s
  | sysNop | sysBarrier | sysInfo | sysSetAddr | sysTrigCancel | sysWarmReset | sysPowerCycle | regPoll | impSubmit |
    impCancel | impSpoil | impConfigStream | impRecover | impReinit | stageObjOpen | stageObjAppend | stageObjClose |
    stageObjFree | stageDmaStart | stageCapture | scrLoadTone | scrLoadDensity | scrLoadThresh | scrSetDiffusion |
    scrLoadDropmap | scrReinit | nozConfigStream | nozLoadStatus | nozSwapStatus | nozLoadTakeover | nozSetStitch |
    nozSetDelay | nozLoadOffsets | nozReinit | fireConfigEncoder | fireSetRatio | fireSetTracking | fireSetDatum |
    fireRegister | fireReinit | headTrain | headAuth | headLoadWave | headSelectWave | headReset | headReadCounter |
    headReinit | pwrSetCap | pwrSetExtBudget | maintStart | maintEnd | maintQuery | maintReinit | timeConfigPtp | timeSet |
    timeAdjust | timeToutConfig | timeTinConfig | timeRead | timeReinit | motConfig | motMove | motStop | motHome |
    motFollow | motGear | motSetLimits | motReinit | blConfig | blStart | blSetSpeed | blStop | blReinit | loopConfig |
    loopSetPoint | loopEnable | loopRead | loopReinit | memBankHandover | memRetrain | memScrub | memScree | memErrRead |
    memReinit | pwrRailConfig | pwrRailOn | pwrRailOff | pwrDomain | pwrReinit | fltConfig | fltRead | fltClear | fltInject |
    fltReinit | wearRead | wearPredict | wearReinit | diagEcho | diagLoopback | diagTrace | diagMemtest =>
    exact answers_row _ _ _ _ _ s
  | _ => exact answers_inDomain _ _ s

/-- The idle step lets the clocks run on and changes nothing else that the invariant speaks of. -/
theorem idle_inv {s : State} (h : Inv s) : Inv (idle s) := by
  unfold idle
  split
  · exact h
  · exact h

/-- Settles O4: every command answers, by its guard. -/
theorem everyCommandCompletesAndKeepsTheQueue : Obligations.EveryCommandCompletesAndKeepsTheQueue := by
  unfold Obligations.EveryCommandCompletesAndKeepsTheQueue
  intro c s
  obtain ⟨t, hexec, ⟨hqueue, -, -⟩, hsettled⟩ := exec_answers c s
  exact ⟨t, hexec, hqueue, hsettled⟩

/-- Settles O2: reset lists no byte and posts no event. -/
theorem invariantHoldsAtReset : Obligations.InvariantHoldsAtReset := by
  unfold Obligations.InvariantHoldsAtReset
  exact ⟨⟨rfl, ⟨rfl, rfl⟩, rfl⟩, rfl, rfl, rfl, rfl⟩

/-- Settles O3: the step's command answers with a state that keeps the invariant, and so does the idle step. -/
theorem everyStepKeepsTheInvariant : Obligations.EveryStepKeepsTheInvariant := by
  unfold Obligations.EveryStepKeepsTheInvariant
  intro s t hinv hstep
  unfold step at hstep
  split at hstep
  · cases hstep
    exact idle_inv hinv
  · rename_i c rest _
    obtain ⟨hsettled, hmem, hsram⟩ := hinv
    obtain ⟨u, hexec, ⟨-, keepsMem, keepsSram⟩, keepsSettled⟩ := exec_answers c { s with pending := rest }
    cases hexec.symm.trans hstep
    exact ⟨keepsSettled hsettled, keepsMem hmem, keepsSram hsram⟩

end Sys2Proof.Proofs
end

section
/-! The table windows (spec chapter 18): what a write of BAR2 and of the aperture stores. -/

namespace Sys2Proof.Proofs

open Sys2Proof.Machine Sys2Proof.Laws

/-- The bytes as an on-chip memory holds them. -/
def cellsOf (b : List Nat) : List (BitVec 8) := b.map fun x => BitVec.ofNat 8 x

theorem length_cellsOf (b : List Nat) : (cellsOf b).length = b.length := List.length_map ..

/-- A naturally aligned word that begins in the banks ends in them. -/
theorem aligned_end_le {o n : Nat} (hn : n = 4 ∨ n = 8) (ho : o % n = 0) (hlt : o < 12 * 0x200000) :
    o + n ≤ 12 * 0x200000 := by
  obtain rfl | rfl := hn <;> omega

/-- The write goes through where its form is right and the device is operational (R878). -/
theorem bar2Write_taken {s : State} {o : Nat} {b : List Nat} (hn : b.length = 4 ∨ b.length = 8)
    (ho : o % b.length = 0) (hop : s.dev.sys.stage = .operational) : s.bar2Write o b = s.tableWrite o b := by
  unfold State.bar2Write
  rw [if_pos (by simp [hn, ho, hop])]

/-- A write into a bank of the host, that ends within the banks, stores all its bytes (R879, R881). -/
theorem tableWrite_hostBank {s : State} {o : Nat} {b : List Nat} (hlt : o < 12 * 0x200000)
    (hend : o + b.length ≤ 12 * 0x200000) (hbank : s.dev.hostBank (o / 0x200000) = true) :
    s.tableWrite o b = { s with mem := { s.mem with sram := Memory.writeList sramDefault o (cellsOf b) s.mem.sram } } := by
  unfold State.tableWrite
  rw [if_pos (by simp [hlt, hbank]), List.take_of_length_le (by omega)]
  rfl

/-- A write of another form, in another stage or outside the banks of the host is discarded (R878, R879, R881). -/
theorem bar2Write_discarded {s : State} {o : Nat} {b : List Nat} (h : ¬ (b.length = 4 ∨ b.length = 8) ∨
    o % b.length ≠ 0 ∨ s.dev.sys.stage ≠ .operational ∨ 12 * 0x200000 ≤ o ∨ s.dev.hostBank (o / 0x200000) = false) :
    s.bar2Write o b = s := by
  unfold State.bar2Write State.tableWrite
  split
  · rename_i form
    split
    · rename_i place
      simp only [Bool.and_eq_true, Bool.or_eq_true, decide_eq_true_eq] at form place
      obtain ⟨⟨hn, ho⟩, hop⟩ := form
      obtain ⟨hlt, hbank⟩ := place
      obtain hn' | ho' | hop' | hle | hbank' := h
      · exact absurd hn hn'
      · exact absurd ho ho'
      · exact absurd hop hop'
      · omega
      · exact absurd hbank (by simp [hbank'])
    · rfl
  · rfl

/-- A read of the aperture changes nothing (R867). -/
theorem aperture_read {s : State} {x : Nat} (hon : s.dev.on 0 = true) (hsettled : Settled s) :
    exec (.tableApertureAccess x none) s = .next s := by
  rw [exec, execTableApertureAccess, inDomainS_next hon, settle_of_settled hsettled]

/-- A write of the aperture, where it is aligned (R875). -/
theorem aperture_write {s : State} {x : Nat} {v : BitVec 32} (hon : s.dev.on 0 = true) :
    exec (.tableApertureAccess x (some v)) s = .next (if x % 4 = 0 then s.apertureWrite x v.toNat else s).settle := by
  rw [exec, execTableApertureAccess, inDomainS_next hon]

/-- Settles O38: the bytes of the write by the laws of the memories, and the aperture as a write of BAR2. -/
theorem tableWindowWritesReachOnlyHostBanks : Obligations.TableWindowWritesReachOnlyHostBanks := by
  unfold Obligations.TableWindowWritesReachOnlyHostBanks
  refine fun s o b hsettled hmem => ⟨fun hon => ⟨fun hn ho hop hlt hbank => ?_, fun h => ?_⟩,
    fun hon x => ⟨?_, fun v hx => ?_, fun v hx hon6 => ?_⟩⟩
  · have hwrite := tableWrite_hostBank hlt (aligned_end_le hn ho hlt) hbank
    refine ⟨_, inDomainS_run hon ((bar2Write_taken hn ho hop).trans hwrite) hsettled, fun i hi => ?_, fun a ha => ?_, rfl⟩
    · refine (Memory.read_writeList o (cellsOf b) _ hmem.1 (by rwa [length_cellsOf])).trans ?_
      simp [cellsOf]
    · exact Memory.read_writeList_ne o (cellsOf b) _ (by rwa [length_cellsOf])
  · exact inDomainS_run hon (bar2Write_discarded h) hsettled
  · exact aperture_read hon hsettled
  · exact (aperture_write hon).trans (by rw [if_neg hx, settle_of_settled hsettled])
  · rw [aperture_write hon, if_pos hx, exec, execBar2Write, inDomainS_next hon6, State.apertureWrite, Dev.apertureAt]

end Sys2Proof.Proofs
end

section
/-! The fault collector's pairs (spec chapter 16): a raise, a lower, a wire error and the timers act on their own source. -/

namespace Sys2Proof.Proofs

open Sys2Proof.Machine Sys2Proof.Laws

/-- d' is d with source n at x: no other source, and nothing outside the collector, has changed, and nothing more is posted. -/
structure SrcStep (n : Nat) (x : Src) (d d' : Dev) : Prop where
  self : d'.src n = x
  other : ∀ m, m ≠ n → d'.src m = d.src m
  frame : d' = { d with flt := d'.flt }
  todo : d'.flt.todo = d.flt.todo

theorem srcStep_refl (n : Nat) (d : Dev) : SrcStep n (d.src n) d d := ⟨rfl, fun _ _ => rfl, rfl, rfl⟩

theorem srcStep_modSrc (n : Nat) (f : Src → Src) (d : Dev) : SrcStep n (f (d.src n)) d (d.modSrc n f) :=
  ⟨Dev.src_modSrc .., fun m hm => Dev.src_modSrc_ne _ _ m _ hm, rfl, rfl⟩

theorem SrcStep.trans {n : Nat} {x y : Src} {a b c : Dev} (h : SrcStep n x a b) (k : SrcStep n y b c) : SrcStep n y a c :=
  ⟨k.self, fun m hm => (k.other m hm).trans (h.other m hm), by rw [k.frame, h.frame], k.todo.trans h.todo⟩

/-- An entry of the fault log changes no source. -/
theorem srcStep_logEvent (n source kind : Nat) (d : Dev) : SrcStep n (d.src n) d (d.logEvent source kind) :=
  ⟨rfl, fun _ _ => rfl, rfl, rfl⟩

/-- A source whose reaction is IGNORE or LOG, as it counts one more raise (R808, R815). -/
def countedSrc (n detail : Nat) (x : Src) : Src :=
  { x with raises := satInc 16 x.raises, detail := detail, st := if isLevel n then .active else .quiet }

theorem srcStep_activate {n detail : Nat} {d : Dev} (hr : (d.src n).reaction = .ignore ∨ (d.src n).reaction = .log) :
    SrcStep n (countedSrc n detail (d.src n)) d (d.activate n detail) := by
  obtain ⟨hself, -, hother, hframe, htodo⟩ := activate_spec (x := detail) hr
  exact ⟨hself, hother, hframe, htodo⟩

section
variable {n : Nat} {d : Dev}

/-- A LEVEL source that is not up comes to count as raised. -/
theorem raiseNow_level {detail : Nat} (hn : n < 248) (hon : d.sourceOn n = true) (hlevel : isLevel n = true)
    (hraised : (d.src n).raised = false) (hheld : d.heldUp n = false) :
    d.raiseNow n detail = (d.modSrc n fun x => { x with raised := true }).activate n detail := by
  unfold Dev.raiseNow
  rw [if_neg (by simp [hon, hn]), if_pos hlevel]
  exact if_neg (by simp [hraised, hheld])

theorem raiseNow_event {detail : Nat} (hn : n < 248) (hon : d.sourceOn n = true) (hlevel : isLevel n = false) :
    d.raiseNow n detail = d.activate n detail := by
  unfold Dev.raiseNow
  rw [if_neg (by simp [hon, hn]), if_neg (by simp [hlevel])]

/-- A raise of a source whose reaction is IGNORE or LOG (R808, R809, R815). -/
theorem raiseNow_quietly {detail : Nat} (hn : n < 248) (hon : d.sourceOn n = true)
    (hr : (d.src n).reaction = .ignore ∨ (d.src n).reaction = .log)
    (hdown : isLevel n = true → (d.src n).raised = false ∧ d.heldUp n = false) :
    SrcStep n (countedSrc n detail { d.src n with raised := isLevel n || (d.src n).raised }) d (d.raiseNow n detail) ∧
    ((d.src n).reaction = .log → (d.raiseNow n detail).flt.log =
      ({ timeUs := d.ns / 1000 % 2 ^ 48, source := n, kind := 1 } :: d.flt.log).take 256) := by
  cases hlevel : isLevel n with
  | true =>
    obtain ⟨hraised, hheld⟩ := hdown hlevel
    rw [raiseNow_level hn hon hlevel hraised hheld]
    have hset := srcStep_modSrc n (fun x => { x with raised := true }) d
    have hr' : ((d.modSrc n fun x => { x with raised := true }).src n).reaction = .ignore ∨
        ((d.modSrc n fun x => { x with raised := true }).src n).reaction = .log := by rwa [hset.self]
    refine ⟨?_, fun hlog => ?_⟩
    · have hact := hset.trans (srcStep_activate (detail := detail) hr')
      rwa [hset.self] at hact
    · obtain ⟨-, hlogged, -⟩ := activate_spec (x := detail) hr'
      rw [hlogged, hset.self, if_neg (by simp [hlog])]
      rfl
  | false =>
    rw [raiseNow_event hn hon hlevel]
    refine ⟨srcStep_activate hr, fun hlog => ?_⟩
    obtain ⟨-, hlogged, -⟩ := activate_spec (x := detail) hr
    rw [hlogged, if_neg (by simp [hlog])]

/-- A LEVEL source goes QUIET where nothing holds it raised (R810, R815). -/
theorem srcStep_levelEnds (n : Nat) (d : Dev) : SrcStep n
    (if isLevel n && !(d.src n).raised && !d.heldUp n then (d.src n).ends else d.src n) d (d.levelEnds n) := by
  unfold Dev.levelEnds
  split
  · exact srcStep_modSrc n Src.ends d
  · exact srcStep_refl n d

/-- A lower of a LEVEL source that nothing else holds ends its condition (R815). -/
theorem lowerNow_ends (hlevel : isLevel n = true) (hraised : (d.src n).raised = true) (hheld : d.heldUp n = false) :
    SrcStep n ({ d.src n with raised := false } : Src).ends d (d.lowerNow n) := by
  unfold Dev.lowerNow
  rw [if_pos hraised]
  have hset := srcStep_modSrc n (fun x => { x with raised := false }) d
  have hheld' : (d.modSrc n fun x => { x with raised := false }).heldUp n = false := by
    unfold Dev.heldUp at hheld ⊢
    rwa [hset.self]
  have hend := hset.trans (srcStep_levelEnds n _)
  rwa [hset.self, hheld', hlevel] at hend

/-- A pair at one level sets WIRE_ERR, and its source counts as raised (R805). -/
theorem wireBad_sets (hn : n < 248) (hon : d.sourceOn n = true) (hsound : (d.src n).wireErr = false)
    (hr : (d.src n).reaction = .ignore ∨ (d.src n).reaction = .log)
    (hup : (isLevel n && ((d.src n).raised || d.heldUp n)) = false) :
    SrcStep n (countedSrc n 0 { d.src n with wireErr := true }) d (d.wireBad n) := by
  have hset := (srcStep_modSrc n (fun x => { x with wireErr := true }) d).trans (srcStep_logEvent n n 2 _)
  rw [Dev.src_modSrc] at hset
  unfold Dev.wireBad
  rw [if_neg (by simp [hon, hn, hsound])]
  dsimp only
  rw [if_neg (ne_true_of_eq_false hup)]
  have hact := hset.trans (srcStep_activate (detail := 0) (by rwa [hset.self]))
  rwa [hset.self] at hact

/-- A pair that is sound again clears WIRE_ERR (R805). -/
theorem wireSound_clears (hinj : d.injected true n = false) : SrcStep n
    (let x : Src := { d.src n with wireErr := false }
    if isLevel n && !x.raised && !d.injected false n then x.ends else x) d (d.wireSound n) := by
  have hset := srcStep_modSrc n (fun x => { x with wireErr := false }) d
  unfold Dev.wireSound
  rw [if_neg (ne_true_of_eq_false hinj)]
  have hend := hset.trans (srcStep_levelEnds n _)
  unfold Dev.heldUp at hend
  rw [hset.self] at hend
  exact hend

/-- A SOFT timer that runs expires: the source asks for the safe state (R810). -/
theorem softExpire_running (h : (d.src n).softTimer.isSome = true) : d.softExpire n =
    Dev.enterSafe n (((d.modSrc n fun x => { x with
      softTimer := none, escalated := true, st := if isLevel n then x.st else .quiet }).logEvent n 3).msix 0) := by
  unfold Dev.softExpire
  rw [if_neg (by simpa using Option.isSome_iff_ne_none.mp h)]

end

/-- What an event leaves that only moves source n: the collector has nothing to do. -/
theorem SrcStep.goes {n k : Nat} {x : Src} {s : State} {f : Dev → Dev} (h : SrcStep n x s.dev (f s.dev)) (hsettled : Settled s)
    (hon : s.dev.on k = true) : inDomain k f s = .next (s.onDev f) ∧ (s.onDev f).dev.src n = x ∧
    (∀ m, m ≠ n → (s.onDev f).dev.src m = s.dev.src m) ∧ Only { s.dev with flt := (s.onDev f).dev.flt } s (s.onDev f) :=
  ⟨inDomain_next hon (h.todo.trans hsettled), h.self, h.other, congrArg (fun d => ({ s with dev := d } : State)) h.frame⟩

section
variable {n : Nat} {s : State}

/-- FAULT_RAISE acts at the end of the command as one raise seen by the collector (log entry 19). -/
theorem faultRaise_next {x : Src} (h : SrcStep n x s.dev (s.dev.raiseNow n 0)) (hsettled : Settled s) (hon : s.dev.on 0 = true) :
    exec (.faultRaise n) s = .next (s.onDev (Dev.raiseNow n 0)) :=
  (inDomain_post hon rfl).trans (congrArg (fun d => Host.Outcome.next ({ s with dev := d } : State))
    (dev_settle_raise hsettled (h.todo.trans hsettled)))

theorem faultLower_next {x : Src} (h : SrcStep n x s.dev (s.dev.lowerNow n)) (hsettled : Settled s) (hon : s.dev.on 0 = true) :
    exec (.faultLower n) s = .next (s.onDev (Dev.lowerNow n)) :=
  (inDomain_post hon rfl).trans (congrArg (fun d => Host.Outcome.next ({ s with dev := d } : State))
    (dev_settle_lower hsettled (h.todo.trans hsettled)))

end

/-- Settles O23: a raise, a lower and the end of the quiet time, each on its own source; DETAIL 0 is log entry 70's. -/
theorem faultPairsFollowTheirSources : Obligations.FaultPairsFollowTheirSources := by
  unfold Obligations.FaultPairsFollowTheirSources
  refine fun s n hsettled hon hn hsource => ⟨fun hr hdown => ?_, fun hlevel hraised hheld => ?_, fun hquiet => ?_⟩
  · obtain ⟨hstep, hlog⟩ := raiseNow_quietly (detail := 0) hn hsource hr hdown
    have hself : ((s.onDev (Dev.raiseNow n 0)).dev.src n) = _ := hstep.self
    refine ⟨_, faultRaise_next hstep hsettled hon, ?_, ?_, ?_, hlog, hstep.other,
      congrArg (fun d => ({ s with dev := d } : State)) hstep.frame⟩
    all_goals rw [hself]
    all_goals rfl
  · have hstep := lowerNow_ends hlevel hraised hheld
    exact ⟨_, faultLower_next hstep hsettled hon, hstep.self, hstep.other,
      congrArg (fun d => ({ s with dev := d } : State)) hstep.frame⟩
  · obtain ⟨hnext, hself, hrest⟩ := (srcStep_modSrc n Src.quietEnd s.dev).goes hsettled hon
    exact ⟨_, hnext, hself.trans (if_pos hquiet), hrest⟩

/-! ### The fabric's replays -/

/-- The device with one more replay counted for a region, and this many in a row for its hop (R823, R824). -/
def replayCounted (region hop run : Nat) (d : Dev) : Dev :=
  { d with flt := { d.flt with
    fabReplays := Tab.set region (satInc 32 (Tab.get 0 d.flt.fabReplays region)) d.flt.fabReplays,
    fabRun := Tab.set (region * 4096 + hop) run d.flt.fabRun } }

/-- A refused word short of the 256th in a row is counted, and the third raises source 11 (R823 to R825). -/
theorem parityRefuse_counts {region hop : Nat} {again : Bool} {s : State} (hregion : region < 7) (hhop : hop < 4096)
    (hrun : (if again then Tab.get 0 s.dev.flt.fabRun (region * 4096 + hop) + 1 else 1) ≠ 256) :
    s.parityRefuse region hop again =
      (let run := if again then Tab.get 0 s.dev.flt.fabRun (region * 4096 + hop) + 1 else 1
      s.onDev fun d => if run = 3 then (replayCounted region hop run d).raise 11 (region + 16 * hop)
        else replayCounted region hop run d) := by
  unfold State.parityRefuse
  rw [if_neg (by simp [hregion, hhop])]
  exact if_neg hrun

/-- Settles O25: the events of a pair on its own source, and the refused words (log entries 70 and 71). -/
theorem wireErrorsTimersAndReplaysActOnTheirSource : Obligations.WireErrorsTimersAndReplaysActOnTheirSource := by
  unfold Obligations.WireErrorsTimersAndReplaysActOnTheirSource
  refine fun s hsettled => ⟨fun n hon hn hsource hsound hr hup => ?_, fun n hon hinj => ?_,
    fun n hon hrun => inDomain_post hon (softExpire_running hrun), fun hon => inDomain_post hon rfl, fun hon => ?_,
    fun region hop again hregion hhop hon => ⟨fun h3 h256 => ?_, fun h3 => ?_⟩⟩
  · exact ⟨_, (wireBad_sets hn hsource hsound hr hup).goes hsettled hon⟩
  · exact ⟨_, (wireSound_clears hinj).goes hsettled hon⟩
  · split
    · rename_i hop
      exact inDomain_post hon (if_pos hop)
    · rename_i hop
      exact inDomain_stay hon hsettled (if_neg hop)
  · refine inDomainS_run hon ((parityRefuse_counts hregion hhop h256).trans ?_) hsettled
    exact congrArg (fun d => ({ s with dev := d } : State)) (if_neg h3)
  · refine (inDomainS_next hon).trans (congrArg (fun t : State => Host.Outcome.next t.settle)
      ((parityRefuse_counts hregion hhop ?_).trans ?_))
    · exact fun h => absurd (h3.symm.trans h) (by decide)
    · exact congrArg (fun d => ({ s with dev := d } : State)) (if_pos h3)

end Sys2Proof.Proofs
end

section
/-! The FLT commands (spec chapter 16). -/

namespace Sys2Proof.Proofs

open Sys2Proof.Machine Sys2Proof.Laws

/-- A row that makes of the device e, which differs in the collector only, and completes with st. -/
theorem row_flt {op : Nat} {p : Packet} {s : State} (h : Ready op p s) {chk : Packet → Dev → Option Status}
    (hc : chk p s.dev = none) {f : Packet → Dev → Dev} {e : Dev} {st : Status} (he : e = { s.dev with flt := e.flt })
    (htodo : e.flt.todo = s.dev.flt.todo) (hf : f p s.dev = e.complete p.ref st 0 0) :
    ∃ t, opRow op chk (onPkt f) p.ring p.seq s = .next t ∧ Completed p st 0 0 s t ∧ (∀ m, t.dev.src m = e.src m) ∧
      Only { Dev.ringed s.dev t.dev with flt := t.dev.flt } s t := by
  obtain ⟨hnext, hcompleted⟩ := does_of h hc e st 0 0 hf (by rw [he]) (pre := []) (by rw [he]; rfl) (htodo.trans h.1)
  exact ⟨_, hnext, hcompleted, fun m => complete_src_at .., only_complete_flt he ..⟩

/-- The same where e moves the packet's source only. -/
theorem row_src {op : Nat} {p : Packet} {s : State} (h : Ready op p s) {chk : Packet → Dev → Option Status}
    (hc : chk p s.dev = none) {f : Packet → Dev → Dev} {e : Dev} {st : Status} {x : Src}
    (he : SrcStep p.target x s.dev e) (hf : f p s.dev = e.complete p.ref st 0 0) :
    ∃ t, opRow op chk (onPkt f) p.ring p.seq s = .next t ∧ Completed p st 0 0 s t ∧ t.dev.src p.target = x ∧
      (∀ m, m ≠ p.target → t.dev.src m = s.dev.src m) ∧ Only { Dev.ringed s.dev t.dev with flt := t.dev.flt } s t := by
  obtain ⟨t, hnext, hcompleted, hsrc, honly⟩ := row_flt h hc he.frame he.todo hf
  exact ⟨t, hnext, hcompleted, (hsrc _).trans he.self, fun m hm => (hsrc m).trans (he.other m hm), honly⟩

/-- The settings of FLT_CONFIG (R836). -/
def configuredSrc (p : Packet) (x : Src) : Src :=
  { x with
    reaction := Reaction.ofCode (p.fld 0 0 3), webStop := p.flag 0 3, quietMs := p.fld 2 0 16, timerUs := p.fld 4 0 20 }

/-! ### FLT_CLEAR -/

/-- A source after FLT_CLEAR: its cause acknowledged, its counters cleared (R839). -/
def clearedSrc (ack counts : Bool) (x : Src) : Src :=
  { x with
    softTimer := if ack then none else x.softTimer, st := if ack then .quiet else x.st,
    raises := if counts then 0 else x.raises, recoveries := if counts then 0 else x.recoveries,
    escalated := if counts then false else x.escalated }

/-- The counters of a source cleared. -/
def countsZero (x : Src) : Src := { x with raises := 0, recoveries := 0, escalated := false }

/-- The device with both effects of FLT_CLEAR on one source. -/
def cleared (n : Nat) (ack counts : Bool) (d : Dev) : Dev :=
  (d.when ack (Dev.modSrc n Src.ends)).when counts (Dev.modSrc n countsZero)

/-- Only an ACTIVE source is acknowledged, so that it goes QUIET. -/
theorem srcStep_cleared {n : Nat} {ack : Bool} (counts : Bool) {d : Dev} (hack : ack = true → (d.src n).st = .active) :
    SrcStep n (clearedSrc ack counts (d.src n)) d (cleared n ack counts d) := by
  cases ack with
  | false =>
    cases counts with
    | false => exact srcStep_refl n d
    | true => exact srcStep_modSrc n countsZero d
  | true =>
    have hends := srcStep_modSrc n Src.ends d
    rw [show (d.src n).ends = clearedSrc true false (d.src n) by unfold Src.ends; rw [if_pos (hack rfl)]; rfl] at hends
    cases counts with
    | false => exact hends
    | true =>
      have hboth := hends.trans (srcStep_modSrc n countsZero _)
      rwa [hends.self] at hboth

/-- FLT_CLEAR that leaves no safe state (R839). -/
theorem runFltClear_stays {p : Packet} {d : Dev} (h : p.flag 0 2 = false ∨ d.flt.held = false) : runFltClear p d =
    (let ack := p.flag 0 0 && d.ackActs p.target
    let counts := p.flag 0 1 && (d.src p.target).countsClear
    (cleared p.target ack counts d).complete p.ref (if ack || counts then .done else .doneEmpty) 0 0) := by
  have hout : (p.flag 0 2 && d.flt.held) = false := Bool.and_eq_false_iff.mpr h
  unfold runFltClear
  dsimp only
  rw [hout, Bool.or_false]
  rfl

/-! ### FLT_INJECT and FLT_INJECT_END -/

/-- The device with the packet executing and its injection among those that drive a pair (R840). -/
def injecting (p : Packet) (wire : Bool) (d : Dev) : Dev :=
  { d.executing p with flt := { d.flt with injects := d.flt.injects ++ [{ src := p.target, wire := wire, ref := p.ref }] } }

/-- FLT_INJECT that drives a pair to raised counts a raise of a source that is not raised already (R840). -/
theorem runFltInject_raised {p : Packet} {d : Dev} (h : p.fld 0 0 2 = 0) : runFltInject p d =
    if (isLevel p.target && ((d.src p.target).raised || d.heldUp p.target)) || !d.sourceOn p.target then injecting p false d
    else (injecting p false d).activate p.target 0 := by
  unfold runFltInject injecting
  simp only [h, Nat.zero_ne_one, decide_false, if_false]
  rfl

theorem activate_injects {n detail : Nat} {d : Dev} (hr : (d.src n).reaction = .ignore ∨ (d.src n).reaction = .log) :
    (d.activate n detail).flt.injects = d.flt.injects := by
  rw [activate_quietly hr]
  dsimp only
  split <;> rfl

/-- The device without the injection of a command. -/
def injectDropped (ref : PktRef) (d : Dev) : Dev :=
  { d with flt := { d.flt with injects := d.flt.injects.filter (fun j => !(j.ref = ref)) } }

/-- The device once an injection into source n has ended (R840). -/
def injectEnded (ref : PktRef) (n : Nat) (d : Dev) : Dev := (injectDropped ref d).levelEnds n

theorem injectEnded_frame (ref : PktRef) (n : Nat) (d : Dev) :
    injectEnded ref n d = { d with flt := (injectEnded ref n d).flt } := (srcStep_levelEnds n (injectDropped ref d)).frame

theorem injectEnd_of_find {ref : PktRef} {d : Dev} {i : Inject} (h : d.flt.injects.find? (fun j => j.ref = ref) = some i) :
    d.injectEnd ref = (injectEnded ref i.src d).complete ref .done 0 0 := by
  unfold Dev.injectEnd
  rw [h]
  rfl

theorem levelEnds_injects (n : Nat) (d : Dev) : (d.levelEnds n).flt.injects = d.flt.injects := by
  unfold Dev.levelEnds
  split <;> rfl

/-- FLT_INJECT of a source that only counts and logs stays in progress (R840). -/
theorem fltInject_goes {s : State} {p : Packet} (h : Ready 0x0E03 p s) (hc : chkFltInject p s.dev = none)
    (hmode : p.fld 0 0 2 = 0) (hr : (s.dev.src p.target).reaction = .ignore ∨ (s.dev.src p.target).reaction = .log) :
    Goes (.fltInject p.ring p.seq) s fun t =>
      t.dev.flt.injects = s.dev.flt.injects ++ [{ src := p.target, wire := false, ref := p.ref }] ∧
      (t.dev.src p.target).raises = (if (isLevel p.target && ((s.dev.src p.target).raised || s.dev.heldUp p.target)) ||
        !s.dev.sourceOn p.target then (s.dev.src p.target).raises else satInc 16 (s.dev.src p.target).raises) ∧
      t.dev.packet? p.ref = some { p with phase := .executing } ∧
      Only { s.dev with flt := t.dev.flt, rings := t.dev.rings } s t := by
  have hrun := runFltInject_raised (d := s.dev) hmode
  have hpacket := packet_executing (ready_packet h)
  split at hrun
  · rename_i hup
    exact ⟨_, opRow_done h hc (g := injecting p false) hrun h.1, rfl, (if_pos hup).symm, hpacket, rfl⟩
  · rename_i hup
    have hstep := srcStep_activate (n := p.target) (detail := 0) (d := injecting p false s.dev) hr
    refine ⟨_, opRow_done h hc (g := fun d => (injecting p false d).activate p.target 0) hrun (hstep.todo.trans h.1),
      activate_injects hr, (congrArg Src.raises hstep.self).trans (if_neg hup).symm, ?_,
      congrArg (fun d => ({ s with dev := d } : State)) ?_⟩
    · show ((injecting p false s.dev).activate p.target 0).packet? p.ref = _
      rw [hstep.frame]
      exact hpacket
    · show (injecting p false s.dev).activate p.target 0 = { s.dev with
        flt := ((injecting p false s.dev).activate p.target 0).flt
        rings := ((injecting p false s.dev).activate p.target 0).rings }
      rw [hstep.frame]
      rfl

/-- The end of an injection ends its command, and its source goes QUIET where nothing else holds it (R840). -/
theorem fltInjectEnd_does {s : State} {p : Packet} {i : Inject} (hsettled : Settled s) (hon : s.dev.on 0 = true)
    (hp : s.dev.packet? p.ref = some p) (hfind : s.dev.flt.injects.find? (fun j => j.ref = p.ref) = some i) :
    Does (.fltInjectEnd p.ring p.seq) p .done 0 0 s fun t =>
      t.dev.flt.injects = s.dev.flt.injects.filter (fun j => !(j.ref = p.ref)) ∧
      (∀ m, m ≠ i.src → t.dev.src m = s.dev.src m) ∧ Only { Dev.ringed s.dev t.dev with flt := t.dev.flt } s t := by
  have hstep := srcStep_levelEnds i.src (injectDropped p.ref s.dev)
  have hframe := injectEnded_frame p.ref i.src s.dev
  refine ⟨_, inDomain_run (g := fun d => (injectEnded p.ref i.src d).complete p.ref .done 0 0) hon (injectEnd_of_find hfind)
    (complete_todo (hstep.todo.trans hsettled) ..), ?_, ?_, fun m hm => (complete_src_at ..).trans (hstep.other m hm),
    only_complete_flt hframe ..⟩
  · exact completed_of (g := injectEnded p.ref i.src s.dev) hp (by rw [hframe]) (pre := []) (by rw [hframe]; rfl) .done 0 0
  · exact (congrArg Flt.injects (complete_flt ..)).trans (levelEnds_injects ..)

/-! ### FLT_REINIT -/

/-- WIRE_ERR of source n cleared, unless an injection holds its pair at one level (R841). -/
def wireCleared (n : Nat) (d : Dev) : Dev :=
  if (d.src n).wireErr && !d.injected true n then d.modSrc n (fun x => { x with wireErr := false }) else d

theorem srcStep_wireCleared (n : Nat) (d : Dev) : SrcStep n
    { d.src n with wireErr := (d.src n).wireErr && d.injected true n } d (wireCleared n d) := by
  unfold wireCleared
  split
  · rename_i h
    obtain ⟨-, hinj⟩ := Bool.and_eq_true_iff.mp h
    rw [Bool.not_eq_true'] at hinj
    rw [hinj, Bool.and_false]
    exact srcStep_modSrc n (fun x => { x with wireErr := false }) d
  · rename_i h
    have hkeep : ((d.src n).wireErr && d.injected true n) = (d.src n).wireErr := by
      revert h
      cases (d.src n).wireErr <;> cases d.injected true n <;> simp
    rw [hkeep]
    exact srcStep_refl n d

theorem wireCleared_injects (n : Nat) (d : Dev) : (wireCleared n d).flt.injects = d.flt.injects := by
  unfold wireCleared
  split <;> rfl

/-- The pairs below k after FLT_REINIT has passed them, and what it leaves alone. -/
theorem forN_wireCleared (k : Nat) (d : Dev) :
    (∀ m, (forN k wireCleared d).src m = { d.src m with
      wireErr := (d.src m).wireErr && !(decide (m < k) && !d.injected true m) }) ∧
    forN k wireCleared d = { d with flt := (forN k wireCleared d).flt } ∧
    (forN k wireCleared d).flt.todo = d.flt.todo ∧ (forN k wireCleared d).flt.injects = d.flt.injects := by
  induction k with
  | zero => exact ⟨fun m => by simp [forN], rfl, rfl, rfl⟩
  | succ k ih =>
    obtain ⟨hsrc, hframe, htodo, hinj⟩ := ih
    have hstep := srcStep_wireCleared k (forN k wireCleared d)
    have hinjected : ∀ m, (forN k wireCleared d).injected true m = d.injected true m := fun m => by
      unfold Dev.injected
      rw [hinj]
    rw [forN_succ]
    refine ⟨fun m => ?_, by rw [hstep.frame, hframe], hstep.todo.trans htodo, (wireCleared_injects _ _).trans hinj⟩
    by_cases hm : m = k
    · subst hm
      rw [hstep.self, hsrc, hinjected]
      simp
    · rw [hstep.other m hm, hsrc]
      simp only [Nat.lt_succ_iff_lt_or_eq, hm, or_false]

/-- Settles O24, row by row; DETAIL 0 of an injected raise, and the pairs that FLT_REINIT spares, are log entry 70's. -/
theorem faultCommandsReadConfigureClearInject : Obligations.FaultCommandsReadConfigureClearInject := by
  unfold Obligations.FaultCommandsReadConfigureClearInject
  refine fun s p => ⟨fun h hc => row_src h hc (srcStep_modSrc p.target (configuredSrc p) s.dev) rfl, fun h hn => ?_,
    fun h hc hstay => ?_, fun h hc hmode hr => ?_, fun i hsettled hon hp hfind => ?_, fun h => ?_⟩
  · exact row_answers h (chk := chkFltRead) (by simp [chkFltRead, firstFail, hn]) rfl
  · have hack : (p.flag 0 0 && s.dev.ackActs p.target) =
        (p.flag 0 0 && !isLevel p.target && decide ((s.dev.src p.target).st = .active)) := (Bool.and_assoc ..).symm
    have hrun := runFltClear_stays hstay
    rw [hack] at hrun
    exact row_src h hc (srcStep_cleared _ fun hacks => by simpa using (Bool.and_eq_true_iff.mp hacks).2) hrun
  · exact fltInject_goes h hc hmode hr
  · exact fltInjectEnd_does hsettled hon hp hfind
  · obtain ⟨hsrc, hframe, htodo, -⟩ := forN_wireCleared 248 s.dev
    obtain ⟨t, hnext, hcompleted, hsrc', honly⟩ :=
      row_flt h (chk := chkFltReinit) rfl hframe htodo (f := runFltReinit) rfl
    exact ⟨t, hnext, hcompleted, fun m => (hsrc' m).trans (hsrc m), honly⟩

end Sys2Proof.Proofs
end

section
/-! PLLs, clock outputs and bridges (spec chapter 15). -/

namespace Sys2Proof.Proofs

open Sys2Proof.Machine Sys2Proof.Laws

/-! ### PLL_CTRL -/

section
variable {k v : Nat} {d : Dev}

/-- The device with LOCK_CNT of PLL k stored (R772). -/
def lockCounted (k v : Nat) (d : Dev) : Dev := d.modPll k fun x => { x with lockCnt := bits v 16 16, aLock := bits v 16 16 }

/-- The shadow dividers taken, through bypass and without lock where the VCO moves far (R769, R771). -/
def dividersTaken (far : Bool) (y : Pll) : Pll :=
  { y with
    aRef := y.refDiv, aFb := y.fbDiv, aFrac := y.frac, aOut := y.outDiv, locked := y.locked && !far, bypass := y.bypass || far }

/-- An update of SYSPLL is refused while a head port is not DOWN, one of DDRPLL while a channel serves or trains (R770, R774). -/
def UpdateRefused (k : Nat) (g : Dev) : Prop :=
  (k = 0 ∧ (g.pll k).moves 10000 = true ∧ (List.range 16).any (fun p => !((g.hp p).st = .down)) = true) ∨
  (k = 1 ∧ (List.range 2).any (fun c => (g.dch c).st = .serving || (g.dch c).st = .training) = true)

theorem pllWrite_discarded (h : 2 ≤ k) : d.pllWrite k v = d := if_pos h

theorem pllWrite_counts (h : k < 2) (hupdate : bits v 0 1 ≠ 1) : d.pllWrite k v = lockCounted k v d := by
  unfold Dev.pllWrite
  rw [if_neg (by omega)]
  exact if_pos (by simp [hupdate])

/-- The condition of a refusal as the model computes it. -/
theorem updateRefused_iff (k : Nat) (g : Dev) : UpdateRefused k g ↔
    (k = 0 && (g.pll k).moves 10000 && (List.range 16).any (fun p => !((g.hp p).st = .down)) ||
      (k = 1 && (List.range 2).any (fun c => (g.dch c).st = .serving || (g.dch c).st = .training))) = true := by
  simp only [UpdateRefused, Bool.or_eq_true, Bool.and_eq_true, decide_eq_true_eq, and_assoc]

theorem pllWrite_refused (h : k < 2) (hupdate : bits v 0 1 = 1) (hrefused : UpdateRefused k (lockCounted k v d)) :
    d.pllWrite k v = (lockCounted k v d).modPll k fun x => { x with updRefused := true } := by
  unfold Dev.pllWrite
  rw [if_neg (by omega)]
  dsimp only
  rw [if_neg (by simp [hupdate])]
  exact if_pos ((updateRefused_iff _ _).mp hrefused)

theorem pllWrite_updates (h : k < 2) (hupdate : bits v 0 1 = 1) (hrefused : ¬ UpdateRefused k (lockCounted k v d)) :
    d.pllWrite k v = (lockCounted k v d).modPll k (dividersTaken (((lockCounted k v d).pll k).moves 200)) := by
  unfold Dev.pllWrite
  rw [if_neg (by omega)]
  dsimp only
  rw [if_neg (by simp [hupdate])]
  exact if_neg ((updateRefused_iff _ _).not.mp hrefused)

end

/-! ### REFCLK -/

/-- A PLL whose reference is lost (R773). -/
def refLost (x : Pll) : Pll := { x with locked := false, bypass := true, lolSeen := true, refLost := true }

/-- A PLL whose reference has returned: its outputs stay on bypass (R773). -/
def refBack (x : Pll) : Pll := { x with refLost := false }

theorem modPll_modPll (k : Nat) (f g : Pll → Pll) (d : Dev) : (d.modPll k f).modPll k g = d.modPll k fun x => g (f x) := by
  unfold Dev.modPll
  dsimp only
  rw [Tab.set_set]
  unfold Dev.pll
  rw [Tab.get_set_same]

/-- REFCLK lost: both PLLs lose lock (log entry 41), and sources 242, 243 and 246 are raised. -/
def refGone (d : Dev) : Dev := ((((d.modPll 0 refLost).raise 242 0).modPll 1 refLost).raise 243 0).raise 246 0

/-- REFCLK back: the mark of both PLLs is cleared, and source 246 is lowered. -/
def refReturned (d : Dev) : Dev := ((d.modPll 0 refBack).modPll 1 refBack).lower 246

theorem pllUnlock_refLost (k : Nat) (d : Dev) :
    (d.pllUnlock k).modPll k (fun x => { x with refLost := true }) = (d.modPll k refLost).raise (242 + k) 0 :=
  congrArg (Dev.raise (242 + k) 0) (modPll_modPll k (fun x => { x with locked := false, bypass := true, lolSeen := true })
    (fun x => { x with refLost := true }) d)

theorem refLoss_eq (d : Dev) :
    (forN 2 (fun k d => (d.pllUnlock k).modPll k fun x => { x with refLost := true }) d).raise 246 0 = refGone d := by
  rw [forN_succ, forN_succ, pllUnlock_refLost, pllUnlock_refLost]
  rfl

theorem refGone_frame {d : Dev} (h : d.flt.todo = []) : refGone d = { d with
    clk := (refGone d).clk, flt := { d.flt with todo := [(true, 242, 0), (true, 243, 0), (true, 246, 0)] } } := by
  have hpost : refGone d = { d with clk := (refGone d).clk, flt := { d.flt with
    todo := ((d.flt.todo ++ [(true, 242, 0)]) ++ [(true, 243, 0)]) ++ [(true, 246, 0)] } } := rfl
  rwa [h] at hpost

theorem refReturned_frame {d : Dev} (h : d.flt.todo = []) : refReturned d = { d with
    clk := (refReturned d).clk, flt := { d.flt with todo := [(false, 246, 0)] } } := by
  have hpost : refReturned d = { d with
    clk := (refReturned d).clk, flt := { d.flt with todo := d.flt.todo ++ [(false, 246, 0)] } } := rfl
  rwa [h] at hpost

/-! ### CLKOUT_CFG -/

/-- A write that would change SRC, DIV or STD of an output that runs, or that names no output (R775). -/
def ClkoutRefused (k v old : Nat) : Prop := 4 ≤ k ∨ (bits old 12 1 = 1 ∧ bits old 0 12 ≠ bits v 0 12)

section
variable {k v : Nat} {d : Dev}

theorem clkoutWrite_refused (h : ClkoutRefused k v (Tab.get 0 d.clk.clkout k)) : d.clkoutWrite k v = d := by
  unfold Dev.clkoutWrite
  exact if_pos (by simpa [ClkoutRefused] using h)

/-- The output takes the write, and its ball is driven where EN changes (R775). -/
def clkoutTaken (k v : Nat) (d : Dev) : Dev :=
  { d with
    clk := { d.clk with clkout := Tab.set k (bits v 0 13) d.clk.clkout }
    out := if bits (Tab.get 0 d.clk.clkout k) 12 1 = bits v 12 1 then d.out else .pin .clkout k (bits v 12 1 = 1) :: d.out }

theorem clkoutWrite_taken (h : ¬ ClkoutRefused k v (Tab.get 0 d.clk.clkout k)) : d.clkoutWrite k v = clkoutTaken k v d := by
  unfold Dev.clkoutWrite clkoutTaken
  dsimp only
  rw [if_neg (by simpa [ClkoutRefused] using h)]
  split <;> rfl

end

/-- Settles O15, event by event; which PLLs REFCLK feeds, and that PLL_CTRL of the others is discarded, is log entry 41's. -/
theorem clocksLoseLockReturnAndTakeSettings : Obligations.ClocksLoseLockReturnAndTakeSettings := by
  unfold Obligations.ClocksLoseLockReturnAndTakeSettings
  refine fun s hsettled hon => ⟨fun k v => ⟨fun hk => ?_, fun hk hupdate => ?_, fun hk hupdate hrefused => ?_,
    fun hk hupdate hrefused => ?_⟩, fun k => ⟨fun hfree => ?_, fun hlocked => ?_⟩, ?_, ?_,
    fun k v => ⟨fun hbad => ?_, fun hbad => ?_⟩,
    fun b => inDomain_post hon rfl⟩
  · exact inDomain_stay hon hsettled (pllWrite_discarded hk)
  · exact inDomain_run (g := lockCounted k v.toNat) hon (pllWrite_counts hk hupdate) hsettled
  · exact inDomain_run (g := fun d => (lockCounted k v.toNat d).modPll k fun x => { x with updRefused := true }) hon
      (pllWrite_refused hk hupdate hrefused) hsettled
  · exact inDomain_run (g := fun _ => (lockCounted k v.toNat s.dev).modPll k
      (dividersTaken (((lockCounted k v.toNat s.dev).pll k).moves 200))) hon (pllWrite_updates hk hupdate hrefused) hsettled
  · exact inDomain_stay hon hsettled (if_neg (by simp [hfree]))
  · exact inDomain_post hon (if_pos hlocked)
  · exact ⟨_, refGone_frame hsettled, pll_two refLost s.dev, inDomain_post (g := refGone) hon (refLoss_eq s.dev)⟩
  · exact ⟨_, refReturned_frame hsettled, pll_two refBack s.dev, inDomain_post (g := refReturned) hon rfl⟩
  · exact inDomain_stay hon hsettled (clkoutWrite_refused hbad)
  · exact ⟨_, inDomain_run (g := clkoutTaken k v.toNat) hon (clkoutWrite_taken hbad) hsettled, Tab.get_set_same ..,
      fun j hj => Tab.get_set_ne _ _ _ hj _, rfl, rfl⟩

end Sys2Proof.Proofs
end

section
/-! The rail events (spec chapter 15). -/

namespace Sys2Proof.Proofs

open Sys2Proof.Machine Sys2Proof.Laws

/-- A step of the sequencer posts nothing. -/
theorem settled_of_seqStep {d d' : Dev} (h : SeqStep d d') (hsettled : d.flt.todo = []) : d'.flt.todo = [] :=
  (congrArg Flt.todo h.flt).trans hsettled

/-- A command of PD_0 whose effect is a step of the sequencer. -/
theorem inDomain_seqStep {f g : Dev → Dev} {s : State} (hon : s.dev.on 0 = true) (hf : f s.dev = g s.dev)
    (hstep : SeqStep s.dev (g s.dev)) (hsettled : Settled s) : inDomain 0 f s = .next (s.onDev g) :=
  inDomain_run hon hf (settled_of_seqStep hstep hsettled)

/-! ### RAIL_GOOD_CHANGE -/

/-- Is a sense voltage within a rail's good range (R752)? -/
def goodAt (mv : Nat) (r : Rail) : Bool := decide (r.uv < mv) && decide (mv < r.ov)

section
variable {n mv : Nat} {d : Dev}

/-- The device with rail n's comparison recorded. -/
def sensed (n mv : Nat) (d : Dev) : Dev := d.modRail n fun r => { r with good := goodAt mv (d.rail n) }

/-- A rail in its good range qualifies (R752). -/
def qualifies (r : Rail) : Rail := { r with st := .qualifying }

/-- A rail that chatters rises again (R759). -/
def risesAgain (r : Rail) : Rail := { r with st := .rising, chatter := r.chatter + 1 }

theorem inStep_iff (r : Rail) : r.inStep = true ↔ r.st = .rising ∨ r.st = .qualifying := by
  simp [Rail.inStep]

theorem railSense_over (hst : (d.rail n).st = .rising ∨ (d.rail n).st = .qualifying) (hov : (d.rail n).ov < mv) :
    d.railSense n mv = (sensed n mv d).railFails n 3 := by
  unfold Dev.railSense
  exact if_pos (by simp [(inStep_iff _).mpr hst, hov])

/-- Below OV the sense only moves a rail within its step. -/
theorem railSense_within (h : ¬ ((d.rail n).inStep = true ∧ (d.rail n).ov < mv)) : d.railSense n mv =
    if (d.rail n).st = .rising && goodAt mv (d.rail n) then (sensed n mv d).modRail n qualifies
    else if (d.rail n).st = .qualifying && !goodAt mv (d.rail n) then
      if (d.rail n).chatterLimit < (d.rail n).chatter + 1 then ((sensed n mv d).modRail n risesAgain).railFails n 2
      else (sensed n mv d).modRail n risesAgain
    else sensed n mv d := by
  unfold Dev.railSense
  exact if_neg (by simpa using h)

theorem railSense_good (hst : (d.rail n).st = .rising) (hov : ¬ (d.rail n).ov < mv) (hgood : goodAt mv (d.rail n) = true) :
    d.railSense n mv = (sensed n mv d).modRail n qualifies := by
  rw [railSense_within fun h => hov h.2, if_pos (by simp [hst, hgood])]

theorem railSense_chatters (hst : (d.rail n).st = .qualifying) (hov : ¬ (d.rail n).ov < mv)
    (hgood : goodAt mv (d.rail n) = false) : d.railSense n mv =
    if (d.rail n).chatterLimit < (d.rail n).chatter + 1 then ((sensed n mv d).modRail n risesAgain).railFails n 2
    else (sensed n mv d).modRail n risesAgain := by
  rw [railSense_within fun h => hov h.2, if_neg (by simp [hst]), if_pos (by simp [hst, hgood])]

/-- Outside its step, or where its comparison is as its step has it, a rail only records the comparison. -/
theorem railSense_records (h : ((d.rail n).st ≠ .rising ∧ (d.rail n).st ≠ .qualifying) ∨ (¬ (d.rail n).ov < mv ∧
    (((d.rail n).st = .rising ∧ goodAt mv (d.rail n) = false) ∨
      ((d.rail n).st = .qualifying ∧ goodAt mv (d.rail n) = true)))) : d.railSense n mv = sensed n mv d := by
  obtain ⟨hr, hq⟩ | ⟨hov, ⟨hst, hgood⟩ | ⟨hst, hgood⟩⟩ := h
  · rw [railSense_within fun h => by simpa [inStep_iff, hr, hq] using h.1, if_neg (by simp [hr]), if_neg (by simp [hq])]
  · rw [railSense_within fun h => hov h.2, if_neg (by simp [hgood]), if_neg (by simp [hst])]
  · rw [railSense_within fun h => hov h.2, if_neg (by simp [hst]), if_neg (by simp [hgood])]

end

/-! ### RAIL_RUN_FAULT -/

section
variable {n : Nat} {d : Dev}

/-- An UP rail that has left its good range and is not warning yet (R760). -/
def FaultHits (r : Rail) : Prop := r.st = .up ∧ r.good = false ∧ r.warning = false

theorem runFault_idle (h : ¬ FaultHits (d.rail n)) : d.runFault n = d := by
  unfold Dev.runFault
  exact if_neg (by simpa [FaultHits, and_assoc] using h)

/-- The failure is counted with its cause, source 209 + n raised and vector 1 sent (R760). -/
def faultCounted (n : Nat) (d : Dev) : Dev :=
  (((d.railCause n 4).modRail n (fun r => { r with fails := satInc 32 r.fails })).raise (209 + n) 0).msix 1

theorem runFault_hits (h : FaultHits (d.rail n)) : d.runFault n =
    if (d.rail n).failDevice then (faultCounted n d).powerFail
    else (faultCounted n d).modRail n (fun r => { r with warning := true }) := by
  obtain ⟨hst, hgood, hwarning⟩ := h
  unfold Dev.runFault
  exact if_pos (by simp [hst, hgood, hwarning])

end

/-- Settles O12, event by event; a rail that misses FALL_MS is OFF with cause 5 by log entry 40. -/
theorem railsRiseFallAndFailAsTheSequencerSays : Obligations.RailsRiseFallAndFailAsTheSequencerSays := by
  unfold Obligations.RailsRiseFallAndFailAsTheSequencerSays
  refine fun s n hsettled hon => ⟨fun mv => ⟨fun hst hov => ?_, fun hst hov hgood => ?_, fun hst hov hgood => ?_, fun h => ?_⟩,
    fun us => ⟨fun h => ?_, fun h => ?_⟩, fun h => ?_, fun h => ?_, fun h => ⟨?_, ?_⟩, fun h => ⟨?_, ?_⟩,
    ⟨fun h => ?_, fun h hdevice => ?_, fun h hrail => ?_⟩, fun h => ?_, fun h => ?_, fun h => ?_, fun hretry hidle => ?_⟩
  · exact inDomain_post hon (railSense_over hst hov)
  · exact inDomain_run (g := fun _ => (sensed n mv s.dev).modRail n qualifies) hon (railSense_good hst hov hgood) hsettled
  · have hchatters := railSense_chatters hst hov hgood
    refine ⟨fun hle => ?_, fun hlt => ?_⟩
    · exact inDomain_run (g := fun _ => (sensed n mv s.dev).modRail n risesAgain) hon
        (hchatters.trans (if_neg (by omega))) hsettled
    · exact inDomain_post (g := fun _ => ((sensed n mv s.dev).modRail n risesAgain).railFails n 2) hon
        (hchatters.trans (if_pos hlt))
  · exact inDomain_run (g := fun _ => sensed n mv s.dev) hon (railSense_records h) hsettled
  · exact inDomain_stay hon hsettled (if_neg h)
  · exact inDomain_seqStep hon (if_pos h) ((seqStep_modRail ..).trans (seqStep_seqGo _)) hsettled
  · exact inDomain_stay hon hsettled (if_neg h)
  · exact inDomain_post hon (if_pos h)
  · exact inDomain_stay hon hsettled (if_neg h)
  · exact inDomain_stay hon hsettled (if_neg h)
  · exact inDomain_seqStep hon (if_pos h) ((seqStep_modRail ..).trans (seqStep_seqGo _)) hsettled
  · exact inDomain_post hon (if_pos h)
  · exact inDomain_stay hon hsettled (runFault_idle h)
  · exact inDomain_post hon ((runFault_hits h).trans (if_pos hdevice))
  · exact inDomain_post hon ((runFault_hits h).trans (if_neg (ne_true_of_eq_false hrail)))
  · exact inDomain_stay hon hsettled (if_neg (ne_true_of_eq_false h))
  · exact inDomain_seqStep hon (if_pos h) ((seqStep_modRail ..).trans (seqStep_seqRequest ..)) hsettled
  · exact inDomain_stay hon hsettled (if_neg (by simpa using h))
  · exact inDomain_seqStep hon (if_pos (by simp [hretry, hidle])) (seqStep_bootRails _) hsettled

end Sys2Proof.Proofs
end

section
/-! Power-on, the clocks, the watchdog and the ends of stops and cycles (spec chapters 10, 15 and 16). -/

namespace Sys2Proof.Proofs

open Sys2Proof.Machine Sys2Proof.Laws

/-- A command of PD_0 that boots the device from the cold: the boot posts nothing. -/
theorem inDomainS_coldBoot {f : State → State} {s u : State} {cause : Nat} (hon : s.dev.on 0 = true)
    (hf : f s = u.coldBoot cause) : ∃ t, inDomainS 0 f s = .next t ∧ ColdBooted cause u t :=
  ⟨_, inDomainS_run hon hf (coldBooted_settled (coldBoot_spec cause u)), coldBoot_spec cause u⟩

/-! ### PLL_LOCK -/

/-- PLL k has locked: its outputs leave bypass and source 242 + k is lowered, unless its reference is lost (R772, R773). -/
def pllLocked (k : Nat) (d : Dev) : Dev :=
  if (d.pll k).refLost then d else (d.modPll k fun x => { x with locked := true, bypass := false }).lower (242 + k)

theorem pllLocked_sys (k : Nat) (d : Dev) : (pllLocked k d).sys = d.sys := by
  unfold pllLocked
  split <;> rfl

/-- Both clocks of a boot that waits for them are locked (R794). -/
def ClocksReady (d : Dev) : Prop := d.sys.stage = .clocks ∧ (d.pll 0).locked = true ∧ (d.pll 1).locked = true

theorem clocksDone_waits {s : State} (h : ¬ ClocksReady s.dev) : s.clocksDone = s := by
  refine clocksDone_wait ?_
  rw [ClocksReady, not_and_or] at h
  exact h.imp id fun hlock => by simpa using hlock

theorem clocksDone_goes {s : State} (h : ClocksReady s.dev) : s.clocksDone = s.domainsUp := by
  obtain ⟨hstage, h0, h1⟩ := h
  exact clocksDone_go hstage (by rw [h0, h1]; rfl)

theorem pllLock_next {s : State} {k : Nat} (hon : s.dev.on 0 = true) :
    exec (.pllLock k) s = .next (State.settle (s.onDev (pllLocked k)).clocksDone) := by
  rw [exec, execPllLock, inDomainS_next hon]
  rfl

/-! ### BOOT_WATCHDOG_EXPIRE -/

/-- No start is under way: the device runs, is in Saddle mode or goes down (R798). -/
def NoStart (d : Dev) : Prop :=
  d.sys.stage = .operational ∨ d.sys.stage = .saddle ∨ d.sys.stage = .noImage ∨ d.goingDown = true ∨ d.pwr.offHold = true

/-- The expiry with the effect of a failed start, or none. -/
theorem bootWatchdog_idle {s : State} (hon : s.dev.on 0 = true) (hsettled : Settled s) (h : NoStart s.dev) :
    exec .bootWatchdogExpire s = .next s := by
  rw [exec, execBootWatchdogExpire, inDomainS_next hon]
  dsimp only
  rw [if_pos (by simpa [NoStart, or_assoc] using h), settle_of_settled hsettled]

theorem bootWatchdog_fails {s : State} (hon : s.dev.on 0 = true) (hsettled : Settled s) (h : ¬ NoStart s.dev) :
    Goes .bootWatchdogExpire s (StartFailed s) := by
  have hfailed := failedStart_spec s
  have htodo : Settled s.failedStart := by
    obtain ⟨-, -, htodo, -⟩ := hfailed
    exact htodo.trans hsettled
  refine ⟨_, ?_, hfailed⟩
  rw [exec, execBootWatchdogExpire, inDomainS_next hon]
  dsimp only
  rw [if_neg (by simpa [NoStart, or_assoc] using h), settle_of_settled htodo]

/-! ### PFW_RELEASE -/

/-- PFW_n is high again: its source is lowered (R764). -/
def pfwHigh (d : Dev) : Dev := ({ d with pwr := { d.pwr with pfwLow := false } }).lower 241

theorem pfwRises_idle {s : State} (h : s.dev.pwr.pfwLow = false) : s.pfwRises = s := by
  unfold State.pfwRises
  exact if_pos (by simp [h])

theorem pfwRises_eq {s : State} (h : s.dev.pwr.pfwLow = true) : s.pfwRises =
    if s.dev.sched.stage = 7 then (s.onDev pfwHigh).settle.coldBoot 3 else s.onDev pfwHigh := by
  unfold State.pfwRises
  exact if_neg (by simp [h])

/-! ### SHED_STAGE_CLEAR -/

section
variable {s : State}

/-- A timed shutdown or a power cycle holds the stages, as long as it has not ended (R764). -/
def heldDown (d : Dev) : Bool := d.pwr.timedDue || d.pwr.cycling

/-- The state with its deepest stage cleared (R540). -/
def stageCleared (s : State) : State :=
  s.onDev fun d => ({ d with sched := { d.sched with stage := d.sched.stage - 1 } }).shedMotors

/-- Nothing clears: no stage is there, its condition holds on, or the way down has not ended (R540, R764). -/
def StageStays (d : Dev) : Prop :=
  (d.sched.stage = 0 ∨ d.stageClear d.sched.stage = false) ∨
  (heldDown d = true ∧ ¬ (d.sched.stage = 7 ∧ d.pwr.cycling = false ∧ d.pwr.pfwLow = false))

theorem stageStays_iff (d : Dev) : StageStays d ↔ (d.sched.stage = 0 || !d.stageClear d.sched.stage ||
    (heldDown d && !(d.sched.stage = 7 && !d.pwr.cycling && !d.pwr.pfwLow))) = true := by
  simp only [StageStays, Bool.or_eq_true, Bool.and_eq_true, Bool.not_eq_true', decide_eq_true_eq, Bool.and_eq_false_iff,
    decide_eq_false_iff_not, Bool.not_eq_false', not_and_or, Bool.not_eq_false, or_assoc]

theorem stageClears_stays (h : StageStays s.dev) : s.stageClears = s := by
  unfold State.stageClears
  exact if_pos ((stageStays_iff _).mp h)

/-- After stage 7 of a timed shutdown the device boots (R545). -/
theorem stageClears_boots (htimed : heldDown s.dev = true) (h : ¬ StageStays s.dev) : s.stageClears = s.coldBoot 3 := by
  unfold State.stageClears
  exact (if_neg ((stageStays_iff _).not.mp h)).trans (if_pos htimed)

/-- Otherwise one stage clears, and the last one ends an orderly stop with a warm reset (R540, R545). -/
theorem stageClears_steps (htimed : heldDown s.dev = false) (h : ¬ StageStays s.dev) : s.stageClears =
    if s.dev.sched.stage ≠ 1 then stageCleared s
    else if (stageCleared s).dev.sys.stage = .rom then (stageCleared s).coldBoot 3
    else if (stageCleared s).dev.sched.stopDone then (stageCleared s).onDev (Dev.warmReset 6) else stageCleared s := by
  unfold State.stageClears
  refine (if_neg ((stageStays_iff _).not.mp h)).trans ((if_neg (ne_true_of_eq_false htimed)).trans ?_)
  simp only [Bool.not_eq_true', decide_eq_false_iff_not]
  rfl

theorem not_stageStays_of_clear (htimed : heldDown s.dev = false) (hstage : s.dev.sched.stage ≠ 0)
    (hclear : s.dev.stageClear s.dev.sched.stage = true) : ¬ StageStays s.dev := by
  simp [StageStays, htimed, hstage, hclear]

end

theorem shedStageClear_next {s t : State} (hon : s.dev.on 0 = true) (h : s.stageClears = t) :
    exec .shedStageClear s = .next t.settle := by
  rw [exec, execShedStageClear, inDomainS_next hon, h]

theorem cycleOff_idle {s : State} (hon : s.dev.on 0 = true) (hsettled : Settled s) (h : s.dev.pwr.offHold = false) :
    exec .cycleOffExpire s = .next s := by
  rw [exec, execCycleOffExpire, inDomainS_next hon, if_neg (ne_true_of_eq_false h), settle_of_settled hsettled]

/-- Settles O9, event by event; that the link is up at once is log entry 32's, what a failed start keeps and where the watchdog
is idle 37's and 38's, and one stage per clearing 42's. -/
theorem resetAndStartEventsBootTheDevice : Obligations.ResetAndStartEventsBootTheDevice := by
  unfold Obligations.ResetAndStartEventsBootTheDevice
  refine ⟨fun s => ⟨_, rfl, coldBoot_spec 1 s⟩, fun s => ⟨_, rfl, rfl, fun k => rfl, rfl, rfl, rfl, rfl, rfl, rfl⟩, fun s => rfl,
    fun s hsettled hon => ⟨fun k => ⟨s.onDev (pllLocked k), rfl, rfl, rfl, fun hwait => ?_, fun hstage h0 h1 => ?_⟩,
      ⟨bootWatchdog_idle hon hsettled, bootWatchdog_fails hon hsettled⟩, fun hlow => ?_,
      fun hlow => ⟨fun hstage => ?_, fun hstage => ?_⟩,
      ⟨fun h => ?_, fun htimed h => ?_, fun htimed h7 hcycling hpfw hclear => ?_,
        fun htimed hclear => ⟨fun hk => ?_, fun hk hrom => ?_,
        fun hk hrom hdone => ?_, fun hk hrom hdone => ?_⟩⟩,
      cycleOff_idle hon hsettled, fun hhold => inDomainS_coldBoot hon (if_pos hhold)⟩⟩
  · rw [pllLock_next hon, clocksDone_waits hwait]
  · obtain ⟨hpending, hmem, hsys, hflt, -, -, hbanks, hdom⟩ := domainsUp_spec (s.onDev (pllLocked k))
    refine ⟨_, ?_, by rw [hsys], hmem, hflt, hbanks, ?_, by rw [hsys]; rfl, fun j hlow hhigh => ?_⟩
    · rw [pllLock_next hon, clocksDone_goes ⟨hstage, h0, h1⟩]
    · rw [hsys]
      exact congrArg Sys.perstReleased (pllLocked_sys k s.dev)
    · rw [hdom, if_pos ⟨hlow, hhigh⟩]
  · exact inDomainS_run hon (pfwRises_idle hlow) hsettled
  · exact (inDomainS_next hon).trans (congrArg (fun t : State => Host.Outcome.next t.settle)
      ((pfwRises_eq hlow).trans (if_neg hstage)))
  · exact inDomainS_coldBoot hon ((pfwRises_eq hlow).trans (if_pos hstage))
  · rw [shedStageClear_next hon (stageClears_stays (.inl h)), settle_of_settled hsettled]
  · rw [shedStageClear_next hon (stageClears_stays (.inr ⟨htimed, h⟩)), settle_of_settled hsettled]
  · exact inDomainS_coldBoot hon (stageClears_boots htimed (by simp [StageStays, h7, hcycling, hpfw, h7 ▸ hclear]))
  all_goals
    have hsteps := stageClears_steps htimed (not_stageStays_of_clear htimed (by omega) hclear)
    refine shedStageClear_next hon (hsteps.trans ?_)
  · exact if_pos (by omega)
  · exact (if_neg (by omega)).trans (if_pos hrom)
  · exact (if_neg (by omega)).trans ((if_neg hrom).trans (if_pos hdone))
  · exact (if_neg (by omega)).trans ((if_neg hrom).trans (if_neg (ne_true_of_eq_false hdone)))

end Sys2Proof.Proofs
end

section
/-! SDRAM training, the images and the start of the firmware (spec chapter 15). -/

namespace Sys2Proof.Proofs

open Sys2Proof.Machine Sys2Proof.Laws

/-! ### DDR_TRAINING_END -/

section
variable {c : Nat} {ok : Bool} {s : State}

theorem trainingEnds_retrains (h : s.dev.sys.stage ≠ .ddrTrain) : s.trainingEnds c ok = s.onDev (Dev.retrained c ok) := by
  unfold State.trainingEnds
  exact if_pos (by simp [h])

theorem trainingEnds_idle (h : s.dev.sys.stage = .ddrTrain) (hst : (s.dev.dch c).st ≠ .training) : s.trainingEnds c ok = s := by
  unfold State.trainingEnds
  rw [if_neg (by simp [h]), if_pos (by simp [hst])]

/-- Do all channels of the board serve (R702)? -/
def allServe (d : Dev) : Bool := (List.range d.ddr.channels).all fun k => (d.dch k).st = .serving

/-- The device with channel c serving, and its boot in the next stage once all serve (R702). -/
def channelServes (c : Nat) (d : Dev) : Dev :=
  let d' := d.modDch c fun x => { x with st := .serving }
  { d' with sys := { d.sys with stage := if allServe d' then .fwLoad else .ddrTrain } }

theorem channelServes_dch (c : Nat) (d : Dev) : (channelServes c d).dch c = { d.dch c with st := .serving } :=
  Dev.dch_modDch d c fun x => { x with st := .serving }

theorem channelServes_dch_ne {c : Nat} (d : Dev) (k : Nat) (hk : k ≠ c) : (channelServes c d).dch k = d.dch k :=
  Dev.dch_modDch_ne d c k (fun x => { x with st := .serving }) hk

theorem trainingEnds_serves (h : s.dev.sys.stage = .ddrTrain) (hst : (s.dev.dch c).st = .training) :
    s.trainingEnds c true = s.onDev (channelServes c) := by
  unfold State.trainingEnds
  rw [if_neg (by simp [h]), if_neg (by simp [hst]), if_pos rfl]
  refine congrArg (fun d => ({ s with dev := d } : State)) ?_
  unfold channelServes allServe
  dsimp only
  split
  · rfl
  · rw [← h]; rfl

theorem trainingEnds_fails (h : s.dev.sys.stage = .ddrTrain) (hst : (s.dev.dch c).st = .training) : s.trainingEnds c false =
    (State.settle (s.onDev fun d =>
      (d.modDch c (fun x => { x with st := .failed, trainFail := true })).raise (204 + c) 0)).failedStart := by
  unfold State.trainingEnds
  rw [if_neg (by simp [h]), if_neg (by simp [hst]), if_neg (by simp)]

/-- A failed start of a settled state leaves nothing posted. -/
theorem settled_failedStart {u : State} (h : Settled u) : Settled u.failedStart := by
  obtain ⟨-, -, htodo, -⟩ := failedStart_spec u
  exact htodo.trans h

end

/-! ### FW_IMAGE_LOAD_END -/

/-- The stages in which the end of the images' reading counts (R783, R796). -/
def LoadsImage (s : State) : Prop := s.dev.sys.stage = .fwLoad ∨ (s.dev.sys.stage = .fwInit ∧ s.mustReload = true)

theorem fwImageLoadEnd_idle {s : State} (hon : s.dev.on 0 = true) (hsettled : Settled s) (h : ¬ LoadsImage s) :
    exec .fwImageLoadEnd s = .next s := by
  rw [exec, execFwImageLoadEnd, inDomainS_next hon]
  rw [if_neg (by simpa [LoadsImage] using h), settle_of_settled hsettled]

theorem fwImageLoadEnd_loads {s : State} (hon : s.dev.on 0 = true) (h : LoadsImage s) :
    exec .fwImageLoadEnd s = .next s.loadImage.settle := by
  rw [exec, execFwImageLoadEnd, inDomainS_next hon]
  rw [if_pos (by simpa [LoadsImage] using h)]

/-- The device with BOOT_ERR set. -/
def withBootErr (e : Nat) (d : Dev) : Dev := { d with sys := { d.sys with bootErr := e } }

/-- No image starts: the device is in NO_IMAGE with this BOOT_ERR (R796). -/
def noImageWith (e : Nat) (d : Dev) : Dev := (withBootErr e d).saddle 1

theorem noImageWith_spec (e : Nat) (d : Dev) : (noImageWith e d).sys.stage = .noImage ∧ (noImageWith e d).sys.saddleReason = 1 ∧
    (noImageWith e d).sys.bootErr = e ∧ (noImageWith e d).flt.todo = d.flt.todo ∧ ∃ l, (noImageWith e d).out = .msix 1 :: l := by
  obtain ⟨hstage, hreason, htodo, -, hframe⟩ := saddle_spec 1 (withBootErr e d)
  unfold noImageWith
  exact ⟨hstage.trans (if_pos rfl), hreason, congrArg (fun d : Dev => d.sys.bootErr) hframe, htodo, saddle_vector ..⟩

/-- The end of the reading where no image starts. -/
theorem fwImageLoadEnd_noImage {s : State} {e : Nat} (hon : s.dev.on 0 = true) (hsettled : Settled s) (h : LoadsImage s)
    (he : s.loadImage = s.onDev (noImageWith e)) : Goes .fwImageLoadEnd s fun t =>
      t.mem = s.mem ∧ t.pending = s.pending ∧ t.dev.sys.stage = .noImage ∧ t.dev.sys.saddleReason = 1 ∧ t.dev.sys.bootErr = e ∧
      t.dev.flt.todo = [] ∧ ∃ l, t.dev.out = .msix 1 :: l := by
  have hspec := noImageWith_spec e s.dev
  have hnext := fwImageLoadEnd_loads hon h
  rw [he, State.onDev] at hnext
  generalize noImageWith e s.dev = g at hspec hnext
  obtain ⟨hstage, hreason, herr, htodo, hout⟩ := hspec
  rw [settle_of_settled (htodo.trans hsettled)] at hnext
  exact ⟨_, hnext, rfl, rfl, hstage, hreason, herr, htodo.trans hsettled, hout⟩

section
variable {s : State}

theorem loadImage_none (h : s.mem.directory = none) : s.loadImage = s.onDev (noImageWith 1) := by
  unfold State.loadImage
  rw [h]
  rfl

theorem loadImage_some {dir : Directory} (h : s.mem.directory = some dir) : s.loadImage =
    if s.mem.slotOk (dir.slot dir.active) then s.startSlot dir.active dir
    else if s.mem.slotOk (dir.slot (1 - dir.active)) then s.startSlot (1 - dir.active) dir
    else s.onDev (noImageWith (s.mem.slotErr (dir.slot dir.active))) := by
  unfold State.loadImage
  rw [h]
  rfl

/-- The ACTIVE slot starts where it verifies, else the other one (R796). -/
theorem loadImage_starts {dir : Directory} {k : Nat} (h : s.mem.directory = some dir)
    (hk : (k = dir.active ∧ s.mem.slotOk (dir.slot k) = true) ∨
      (k = 1 - dir.active ∧ s.mem.slotOk (dir.slot dir.active) = false ∧ s.mem.slotOk (dir.slot k) = true)) :
    s.loadImage = s.startSlot k dir := by
  rw [loadImage_some h]
  obtain ⟨rfl, hok⟩ | ⟨rfl, hbad, hok⟩ := hk
  · exact if_pos hok
  · rw [if_neg (ne_true_of_eq_false hbad), if_pos hok]

end

/-! ### BOOT_OPERATIONAL -/

section
variable {s : State}

/-- The firmware has read its image and may become operational (R783, R794). -/
def BecomesOperational (s : State) : Prop := s.dev.sys.stage = .fwInit ∧ s.mustReload = false

theorem bootOperational_idle (hon : s.dev.on 0 = true) (hsettled : Settled s) (h : ¬ BecomesOperational s) :
    exec .bootOperational s = .next s := by
  rw [exec, execBootOperational, inDomainS_next hon]
  rw [if_neg (by simpa [BecomesOperational] using h), settle_of_settled hsettled]

theorem bootOperational_goes (hon : s.dev.on 0 = true) (h : BecomesOperational s) :
    exec .bootOperational s = .next s.operational.settle := by
  rw [exec, execBootOperational, inDomainS_next hon]
  rw [if_pos (by simpa [BecomesOperational] using h)]

/-- The system registers of a device that becomes operational (R793, R794). -/
def operationalSys (x : Sys) : Sys :=
  { x with
    stage := .operational, failedStarts := 0, warmStarting := false, lockstepSeen := false, saddleReason := 0,
    trialLoaded := false }

/-- After a cold boot the ring is scanned and the wear history read (R794, R833). -/
def coldOperational (d : Dev) : Dev :=
  let d' : Dev := { d with sys := operationalSys d.sys }
  Dev.msix 1 { d'.loadWear with imp := { d.imp with scanning := true } }

theorem operational_cold (h : s.dev.sys.warmStarting = false) :
    s.operational = { s.operational with dev := coldOperational s.dev } := by
  unfold State.operational
  dsimp only
  rw [if_neg (ne_true_of_eq_false h)]
  rfl

theorem operational_warm (h : s.dev.sys.warmStarting = true) :
    s.operational = { s.operational with dev := (Dev.warmResume { s.dev with sys := operationalSys s.dev.sys }).msix 1 } := by
  unfold State.operational
  dsimp only
  rw [if_pos h]
  rfl

theorem coldOperational_frame (d : Dev) : coldOperational d =
    { d with
      sys := { operationalSys d.sys with irqPending := (operationalSys d.sys).irqPending ||| 2 ^ 1 }
      imp := { d.imp with scanning := true }, wear := d.loadWear.wear, out := .msix 1 :: d.out } := by
  have hwear : ({ d with sys := operationalSys d.sys } : Dev).loadWear =
      { d with sys := operationalSys d.sys, wear := d.loadWear.wear } := by
    rw [loadWear_frame]
    unfold Dev.loadWear
    dsimp only
    split <;> rfl
  unfold coldOperational
  dsimp only
  rw [hwear]
  rfl

end

/-! ### BOOT_IMG_GO and BOOT_IMG_LOAD_END -/

section
variable {d : Dev}

/-- GO counts in NO_IMAGE and in Saddle mode, while no image is being read (R797). -/
def GoTaken (v : Nat) (d : Dev) : Prop :=
  v % 2 = 1 ∧ (d.sys.stage = .saddle ∨ d.sys.stage = .noImage) ∧ d.sys.bootLoading = false

theorem goTaken_iff (v : Nat) (d : Dev) : GoTaken v d ↔
    ¬ (!(bits v 0 1 = 1) || !(d.sys.stage = .saddle || d.sys.stage = .noImage) || d.sys.bootLoading) = true := by
  simp only [GoTaken, bits, pow_zero, Nat.div_one, pow_one, Bool.or_eq_true, Bool.not_eq_true', decide_eq_false_iff_not,
    Bool.or_eq_false_iff, ← Bool.not_eq_true d.sys.bootLoading]
  tauto

theorem bootGo_ignored {v : Nat} (h : ¬ GoTaken v d) : d.bootGo v = d := by
  unfold Dev.bootGo
  exact if_pos (not_not.mp ((goTaken_iff v d).not.mp h))

theorem bootGo_taken {v : Nat} (h : GoTaken v d) : d.bootGo v =
    if d.dom 7 = .on then { d with
      sys := { d.sys with bootLoading := true, bootErr := 0 }
      out := .hostRead (d.sys.bootImgLo + 2 ^ 32 * d.sys.bootImgHi) d.sys.bootImgLen :: d.out }
    else { d with sys := { d.sys with bootErr := 5 } } := by
  unfold Dev.bootGo
  refine (if_neg ((goTaken_iff v d).mp h)).trans ?_
  by_cases h7 : d.dom 7 = .on
  · rw [if_neg (by simp [h7]), if_pos h7]
    rfl
  · rw [if_pos (by simp [h7]), if_neg h7]

/-- The reading ends without a start (R797). -/
def imgFails (e : Nat) (d : Dev) : Dev := { d with sys := { d.sys with bootLoading := false, bootErr := e } }

/-- An image of the length that its header and the register give (R797). -/
def ImgSized (b : List Nat) (d : Dev) : Prop := b.length = d.sys.bootImgLen ∧ leNat ((b.drop 8).take 4) + 256 = b.length

/-- The image from host memory starts, with PD_1 to PD_11 on (log entry 39). -/
def imgStarts (b : List Nat) (d : Dev) : Dev :=
  { forN 11 (fun k d => d.modDom (k + 1) (fun _ => .on)) d with sys := { d.sys with
    bootLoading := false, bootErr := 0, stage := .fwInit, saddleReason := 0, fwVersion := imageVersion b, warmStarting := false } }

theorem imgLoaded_idle {data : Option (List Nat)} (h : d.sys.bootLoading = false) : d.imgLoaded data = d := by
  unfold Dev.imgLoaded
  exact if_pos (by simp [h])

theorem imgLoaded_none (h : d.sys.bootLoading = true) : d.imgLoaded none = imgFails 4 d := by
  unfold Dev.imgLoaded
  exact if_neg (by simp [h])

theorem imgLoaded_unsized {b : List Nat} (h : d.sys.bootLoading = true) (hb : ¬ ImgSized b d) :
    d.imgLoaded (some b) = imgFails 3 d := by
  unfold Dev.imgLoaded
  refine (if_neg (by simp [h])).trans (if_pos ?_)
  rw [ImgSized, not_and_or] at hb
  simpa using hb

theorem imgLoaded_sized {b : List Nat} (h : d.sys.bootLoading = true) (hb : ImgSized b d) :
    d.imgLoaded (some b) = if imageOk b then imgStarts b d else imgFails 2 d := by
  unfold Dev.imgLoaded
  refine (if_neg (by simp [h])).trans (if_neg ?_)
  obtain ⟨hlen, hhead⟩ := hb
  simp [hlen, hhead]

theorem imgStarts_sys (b : List Nat) (d : Dev) : (imgStarts b d).sys = { d.sys with
    bootLoading := false, bootErr := 0, stage := .fwInit, saddleReason := 0, fwVersion := imageVersion b,
    warmStarting := false } :=
  rfl

theorem imgStarts_dom (b : List Nat) (d : Dev) (k : Nat) :
    (imgStarts b d).dom k = if 1 ≤ k ∧ k ≤ 11 then .on else d.dom k := forN_modDom_at 11 .on d k

theorem imgStarts_frame (b : List Nat) (d : Dev) :
    imgStarts b d = { d with sys := (imgStarts b d).sys, pwr := (imgStarts b d).pwr } := by
  unfold imgStarts
  rw [forN_modDom_frame]

end

/-- Settles O10, event by event; BOOT_ERR 3 against 2 and the domains of an image from the host are log entry 39's. -/
theorem bootTrainsLoadsAndStartsTheFirmware : Obligations.BootTrainsLoadsAndStartsTheFirmware := by
  unfold Obligations.BootTrainsLoadsAndStartsTheFirmware
  refine fun s hsettled => ⟨fun hon c ok => ⟨fun h => ?_, fun h hst => ?_, fun h hst => ⟨?_, ?_⟩⟩, fun hon =>
    ⟨⟨fwImageLoadEnd_idle hon hsettled, fun hgo => ⟨fun hdir => ?_, fun dir hdir => ⟨fun k hk => ?_, fun hbad hother => ?_⟩⟩⟩,
      bootOperational_idle hon hsettled, fun hstage hload => ⟨fun hcold => ?_, fun hwarm => ?_⟩,
      fun v => ⟨fun hgo => ?_, fun hgo h7 => ?_, fun hgo h7 => ?_⟩,
      fun data => ⟨fun hidle => ?_, fun hload => ⟨?_, ?_⟩⟩⟩⟩
  · rw [exec, execDdrTrainingEnd, inDomainS_next hon, trainingEnds_retrains h]
  · exact inDomainS_run hon (trainingEnds_idle h hst) hsettled
  · exact ⟨_, inDomainS_run hon (trainingEnds_serves h hst) hsettled, channelServes_dch c s.dev, channelServes_dch_ne s.dev,
      rfl, rfl⟩
  · have hfailed := settled_failedStart (settled_settle (s.onDev fun d =>
      (d.modDch c (fun x => { x with st := .failed, trainFail := true })).raise (204 + c) 0))
    exact ⟨_, inDomainS_run hon (trainingEnds_fails h hst) hfailed, failedStart_spec _⟩
  · exact fwImageLoadEnd_noImage hon hsettled hgo (loadImage_none hdir)
  · rw [fwImageLoadEnd_loads hon hgo, loadImage_starts hdir hk]
    exact congrArg Host.Outcome.next (settle_of_settled hsettled)
  · refine fwImageLoadEnd_noImage hon hsettled hgo ((loadImage_some hdir).trans ?_)
    rw [if_neg (ne_true_of_eq_false hbad), if_neg (ne_true_of_eq_false hother)]
  · have hnext := bootOperational_goes hon ⟨hstage, hload⟩
    rw [operational_cold hcold, coldOperational_frame] at hnext
    exact ⟨_, hnext.trans (congrArg Host.Outcome.next (settle_of_settled hsettled)), rfl, rfl, rfl, rfl, rfl, rfl⟩
  · rw [bootOperational_goes hon ⟨hstage, hload⟩, operational_warm hwarm]
    rfl
  · exact inDomain_stay hon hsettled (bootGo_ignored hgo)
  · exact inDomain_run hon ((bootGo_taken hgo).trans (if_neg h7)) hsettled
  · exact inDomain_run hon ((bootGo_taken hgo).trans (if_pos h7)) hsettled
  · exact inDomain_stay hon hsettled (imgLoaded_idle hidle)
  · rintro rfl
    exact inDomain_run hon (imgLoaded_none hload) hsettled
  · rintro b rfl
    refine ⟨fun hb => ?_, fun hb hbad => ?_, fun hb hgood => ?_⟩
    · exact inDomain_run hon (imgLoaded_unsized hload hb) hsettled
    · exact inDomain_run hon ((imgLoaded_sized hload hb).trans (if_neg (ne_true_of_eq_false hbad))) hsettled
    · have hstarts := (imgLoaded_sized hload hb).trans (if_pos hgood)
      have hsys := imgStarts_sys b s.dev
      have hdom := imgStarts_dom b s.dev
      have hframe := imgStarts_frame b s.dev
      generalize imgStarts b s.dev = g at hstarts hsys hdom hframe
      exact ⟨_, inDomain_run (g := fun _ => g) hon hstarts (by rw [hframe]; exact hsettled), hsys, hdom,
        congrArg (fun d => ({ s with dev := d } : State)) hframe⟩

end Sys2Proof.Proofs
end

section
/-! SYS_WARM_RESET, SYS_POWER_CYCLE and the firmware in flash (spec chapters 15 and 16). -/

namespace Sys2Proof.Proofs

open Sys2Proof.Machine Sys2Proof.Laws

/-! ### SYS_WARM_RESET and SYS_POWER_CYCLE -/

theorem goingDown_complete (d : Dev) (ref : PktRef) (st : Status) (a b : Nat) :
    (d.complete ref st a b).goingDown = d.goingDown := by
  unfold Dev.goingDown
  rw [complete_sched, complete_pwr]

/-- A stop or a shutdown runs, which a warm reset or a power cycle does not disturb (log entries 22 and 43). -/
def GoesDown (d : Dev) : Prop := d.sched.stopping = true ∨ d.goingDown = true

theorem sysWarmReset_ignored {s : State} {p : Packet} (h : Ready 0x0005 p s) (hdown : GoesDown s.dev) :
    Does (.sysWarmReset p.ring p.seq) p .done 0 0 s fun t => Only (Dev.ringed s.dev t.dev) s t :=
  row_answers h (chk := chkSysWarmReset) (f := runSysWarmReset) rfl
    (warmReset_ignored 4 _ (by rwa [GoesDown, ← complete_sched s.dev p.ref .done 0 0,
      ← goingDown_complete s.dev p.ref .done 0 0] at hdown))

/-- The failed starts cleared where the device is not operational (R831). -/
def startsCleared (d : Dev) : Dev :=
  if d.sys.stage = .operational then d else { d with sys := { d.sys with failedStarts := 0 } }

/-- Clearing the failed starts after a completion is completing after clearing them, but for the order. -/
theorem startsCleared_ringed {d e : Dev} (h : e = Dev.ringed d e) :
    startsCleared e = Dev.ringed (startsCleared d) (startsCleared e) := by
  have hstage : e.sys.stage = d.sys.stage := by rw [h]; rfl
  unfold startsCleared
  rw [hstage]
  split
  · exact h
  · conv_lhs => rw [h]
    rfl

theorem startsCleared_out (d : Dev) : (startsCleared d).out = d.out := by
  unfold startsCleared
  split <;> rfl

theorem startsCleared_sched (d : Dev) : (startsCleared d).sched = d.sched := by
  unfold startsCleared
  split <;> rfl

theorem startsCleared_flt (d : Dev) : (startsCleared d).flt = d.flt := by
  unfold startsCleared
  split <;> rfl

theorem startsCleared_goingDown (d : Dev) : (startsCleared d).goingDown = d.goingDown := by
  unfold startsCleared
  split <;> rfl

/-- The packet completed with DONE, and then the failed starts cleared. -/
def answered (p : Packet) (d : Dev) : Dev := startsCleared (d.complete p.ref .done 0 0)

theorem answered_spec {s : State} {p : Packet} (hp : s.dev.packet? p.ref = some p) :
    answered p s.dev = Dev.ringed (startsCleared s.dev) (answered p s.dev) ∧
    Completed p .done 0 0 s { s with dev := answered p s.dev } := by
  refine ⟨startsCleared_ringed (complete_frame ..), ?_⟩
  have hcompleted := completed_of (g := s.dev) hp rfl (pre := []) rfl .done 0 0
  unfold Completed at hcompleted ⊢
  unfold answered
  rwa [show ({ s with dev := startsCleared (s.dev.complete p.ref .done 0 0) } : State).dev.out =
    (s.dev.complete p.ref .done 0 0).out from startsCleared_out _]

theorem answered_goesDown (p : Packet) (d : Dev) : GoesDown (answered p d) ↔ GoesDown d := by
  unfold GoesDown answered
  rw [startsCleared_sched, startsCleared_goingDown, complete_sched, goingDown_complete]

theorem goesDown_iff (d : Dev) : GoesDown d ↔ (d.sched.stopping || d.goingDown) = true := by
  rw [GoesDown, Bool.or_eq_true]

theorem runSysPowerCycle_ignored {p : Packet} {d : Dev} (h : GoesDown d) : runSysPowerCycle p d = answered p d :=
  if_pos ((goesDown_iff (answered p d)).mp ((answered_goesDown p d).mpr h))

theorem runSysPowerCycle_goes {p : Packet} {d : Dev} (h : ¬ GoesDown d) : runSysPowerCycle p d =
    ({ answered p d with pwr := { (answered p d).pwr with cycling := true } }).orderlyStop :=
  if_neg ((goesDown_iff (answered p d)).not.mp ((answered_goesDown p d).not.mpr h))

theorem settled_answered {p : Packet} {d : Dev} (h : d.flt.todo = []) : (answered p d).flt.todo = [] := by
  unfold answered
  rw [startsCleared_flt, complete_flt]
  exact h

/-! ### SYS_FW_WRITE -/

section
variable {s : State} {p : Packet}

theorem runSysFwWrite_past (h : (s.mem.fwRegion (p.fld 0 0 2)).2 < p.fld 4 0 32 + (p.payload.drop 16).length) :
    runSysFwWrite p s = s.onDev (Dev.complete p.ref .badField 0 0) := if_pos h

/-- The ACTIVE slot is refused while its firmware runs (R791). -/
def SlotRuns (p : Packet) (s : State) : Prop :=
  s.dev.sys.stage = .operational ∧ s.mem.directory.any (fun d => d.active = p.fld 0 0 2) = true

theorem runSysFwWrite_active (h : ¬ (s.mem.fwRegion (p.fld 0 0 2)).2 < p.fld 4 0 32 + (p.payload.drop 16).length)
    (hrun : SlotRuns p s) : runSysFwWrite p s = s.onDev (Dev.complete p.ref .refused 0 0) := by
  obtain ⟨hstage, hactive⟩ := hrun
  exact (if_neg h).trans (if_pos (by simp [hstage, hactive]))

theorem runSysFwWrite_begins (h : ¬ (s.mem.fwRegion (p.fld 0 0 2)).2 < p.fld 4 0 32 + (p.payload.drop 16).length)
    (hrun : ¬ SlotRuns p s) : runSysFwWrite p s = s.onDev fun d => ({ d with diag := { d.diag with fw := some {
      ref := p.ref, addr := (s.mem.fwRegion (p.fld 0 0 2)).1 + p.fld 4 0 32, erase := p.flag 0 2,
      len := (s.mem.fwRegion (p.fld 0 0 2)).2, data := p.payload.drop 16 } } }).executing p :=
  (if_neg h).trans (if_neg (by simpa [SlotRuns] using hrun))

end

/-- A row on the whole state that only answers. -/
theorem opRow_answers {op : Nat} {p : Packet} {s : State} (h : Ready op p s) {chk : Packet → Dev → Option Status}
    (hc : chk p s.dev = none) {run : Packet → State → State} {st : Status} {a b : Nat}
    (hf : run p s = s.onDev (Dev.complete p.ref st a b)) :
    ∃ t, opRow op chk run p.ring p.seq s = .next t ∧ Completed p st a b s t ∧ Only (Dev.ringed s.dev t.dev) s t :=
  ⟨_, opRow_to h hc hf (complete_todo h.1 ..), completed_of (ready_packet h) rfl (pre := []) rfl st a b, only_of s s.dev ..⟩

/-! ### FW_WRITE_PROGRAMMED -/

/-- The region erased where the write asks for it, and these bytes programmed at its address (R791). -/
def fwMem (w : FwWrite) (base : Nat) (b : List Nat) (m : Mems) : Mems :=
  (if w.erase then m.eraseFlash base w.len else m).program w.addr b

/-- A byte outside the data is erased with its region, or keeps its value. -/
theorem fwMem_read {w : FwWrite} {base : Nat} {b : List Nat} {m : Mems} {a : Nat} (h : a < w.addr ∨ w.addr + b.length ≤ a) :
    Memory.read flashDefault (fwMem w base b m).flash a =
      if w.erase = true ∧ base ≤ a ∧ a < base + w.len then flashDefault else Memory.read flashDefault m.flash a := by
  refine (program_read _ _ _ h).trans ?_
  cases w.erase with
  | true => exact (Memory.read_clear base w.len m.flash a).trans (if_congr (by simp) rfl rfl)
  | false => simp

/-- The bytes a write leaves in the flash, and the device: the data, or free values where the flash fails (log entry 5). -/
def fwBytes (ok : Bool) (w : FwWrite) (d : Dev) : List Nat × Dev := if ok then (w.data, d) else d.freeBytes w.data.length

theorem fwBytes_length (ok : Bool) (w : FwWrite) (d : Dev) : (fwBytes ok w d).1.length = w.data.length := by
  cases ok
  · simp [fwBytes, Dev.freeBytes]
  · rfl

theorem fwBytes_dev (ok : Bool) (w : FwWrite) (d : Dev) :
    (fwBytes ok w d).2 = { d with free := if ok then d.free else d.free + w.data.length } := by
  cases ok <;> rfl

theorem when_send (c : Bool) (o : Out) (d : Dev) :
    d.when c (Dev.send o) = { d with out := (if c then [o] else []) ++ d.out } := by
  cases c <;> rfl

/-- The device before the completion: what is sent to the flash, and the work that has ended. -/
def fwEnded (ok cal : Bool) (base : Nat) (w : FwWrite) (d : Dev) : Dev :=
  let e := ((fwBytes ok w d).2.when w.erase (Dev.send (.flash 0 base w.len))).send (.flash 1 w.addr w.data.length)
  { e with diag := { e.diag with fw := none }, wear := if w.erase && cal then { e.wear with saved := none } else e.wear }

theorem fwEnded_spec (ok cal : Bool) (base : Nat) (w : FwWrite) (d : Dev) :
    (fwEnded ok cal base w d).rings = d.rings ∧ (fwEnded ok cal base w d).flt = d.flt ∧
    (∃ pre, (fwEnded ok cal base w d).out = pre ++ d.out) ∧ (ok = true → (fwEnded ok cal base w d).free = d.free) := by
  unfold fwEnded
  rw [when_send, fwBytes_dev]
  exact ⟨rfl, rfl, ⟨.flash 1 w.addr w.data.length :: if w.erase then [.flash 0 base w.len] else [], rfl⟩, fun hok => if_pos hok⟩

/-- The base of the region a write is of, by the packet that asked for it. -/
def fwBase (w : FwWrite) (d : Dev) : Nat := w.base ((d.packet? w.ref).elim 0 fun p => p.fld 4 0 32)

/-- The write is of the calibration region. -/
def fwCal (w : FwWrite) (d : Dev) : Bool := (d.packet? w.ref).any fun p => p.fld 0 0 2 = 2

/-- The flash after the write. -/
def fwMems (ok : Bool) (w : FwWrite) (s : State) : Mems := fwMem w (fwBase w s.dev) (fwBytes ok w s.dev).1 s.mem

/-- DONE where the data reads back, else WRITE_ERROR (R791). -/
def fwStatus (ok : Bool) (w : FwWrite) (m : Mems) : Status :=
  if ok && m.flashBytes w.addr w.data.length = w.data then .done else .writeError

theorem fwStatus_done (ok : Bool) (w : FwWrite) (m : Mems) :
    fwStatus ok w m = .done ↔ ok = true ∧ m.flashBytes w.addr w.data.length = w.data := by
  unfold fwStatus
  split <;> simp_all

theorem fwStatus_cases (ok : Bool) (w : FwWrite) (m : Mems) : fwStatus ok w m = .done ∨ fwStatus ok w m = .writeError := by
  unfold fwStatus
  split
  · exact .inl rfl
  · exact .inr rfl

theorem fwProgrammed_none {s : State} {ok : Bool} (h : s.dev.diag.fw = none) : s.fwProgrammed ok = s := by
  unfold State.fwProgrammed
  rw [h]

theorem fwProgrammed_some {s : State} {ok : Bool} {w : FwWrite} (h : s.dev.diag.fw = some w) : s.fwProgrammed ok =
    { s with
      dev := (fwEnded ok (fwCal w s.dev) (fwBase w s.dev) w s.dev).complete w.ref (fwStatus ok w (fwMems ok w s)) 0 0
      mem := fwMems ok w s } := by
  unfold State.fwProgrammed
  rewrite [h]
  rfl

theorem fwProgrammed_goes {s : State} {ok : Bool} {w : FwWrite} (hs : Settled s) (hon : s.dev.on 0 = true) (hwf : MemWf s)
    (h : s.dev.diag.fw = some w) : Goes (.fwWriteProgrammed ok) s fun t =>
      let base := fwBase w s.dev
      t.dev.diag.fw = none ∧ t.mem.sram = s.mem.sram ∧ MemWf t ∧ t.pending = s.pending ∧
      (∀ a, (a < w.addr ∨ w.addr + w.data.length ≤ a) → (w.erase = true → a < base ∨ base + w.len ≤ a) →
        Memory.read flashDefault t.mem.flash a = Memory.read flashDefault s.mem.flash a) ∧
      (∀ a, (a < w.addr ∨ w.addr + w.data.length ≤ a) → w.erase = true → base ≤ a → a < base + w.len →
        Memory.read flashDefault t.mem.flash a = flashDefault) ∧
      (ok = true → t.dev.free = s.dev.free) ∧
      (∀ q, s.dev.packet? w.ref = some q → q.ref = w.ref → ∃ st, Completed q st 0 0 s t ∧
        (st = .done ↔ (ok = true ∧ t.mem.flashBytes w.addr w.data.length = w.data)) ∧ (st = .done ∨ st = .writeError)) := by
  have hkept := kept_fwProgrammed ok s
  rw [fwProgrammed_some h] at hkept
  obtain ⟨hrings, hflt, ⟨pre, hout⟩, hfree⟩ := fwEnded_spec ok (fwCal w s.dev) (fwBase w s.dev) w s.dev
  refine ⟨_, inDomainS_run hon (fwProgrammed_some h) (by rw [complete_flt, hflt]; exact hs), by rw [complete_diag]; rfl,
    ?_, hkept.2.1 hwf, rfl, fun a hout hkeeps => ?_, fun a hout herase hfrom hto => ?_, fun hok => ?_, fun q hq href => ?_⟩
  · show (if w.erase = true then _ else _ : Mems).sram = _
    split <;> rfl
  · refine (fwMem_read (by rwa [fwBytes_length])).trans (if_neg fun ⟨herase, hfrom, hto⟩ => ?_)
    have := hkeeps herase
    omega
  · exact (fwMem_read (by rwa [fwBytes_length])).trans (if_pos ⟨herase, hfrom, hto⟩)
  · rw [complete_free]; exact hfree hok
  · refine ⟨_, ?_, fwStatus_done .., fwStatus_cases ..⟩
    have hcompleted := completed_of (href ▸ hq : s.dev.packet? q.ref = some q) hrings hout (fwStatus ok w (fwMems ok w s)) 0 0
    rw [href] at hcompleted
    exact hcompleted

/-! ### SYS_FW_ACTIVATE -/

/-- A completion is read in the device alone. -/
theorem completed_congr {p : Packet} {st : Status} {a b : Nat} {s t u : State} (h : Completed p st a b s t)
    (hdev : u.dev = t.dev) : Completed p st a b s u := by
  unfold Completed at h ⊢
  rwa [hdev]

/-- The state after slot k is written as the ACTIVE one on trial, with device e (R792). -/
def activated (s : State) (d : Directory) (k : Nat) (e : Dev) : State :=
  { s with mem := s.mem.writeDirectory { d with active := k, trial := true }, dev := e }

theorem runSysFwActivate_none {s : State} {p : Packet}
    (h : s.mem.directory = none ∨ ∃ d, s.mem.directory = some d ∧ s.mem.slotOk (d.slot (p.fld 0 0 1)) = false) :
    runSysFwActivate p s = s.onDev (Dev.complete p.ref .signature 0 0) := by
  have hnone : s.mem.directory.filter (fun d => s.mem.slotOk (d.slot (p.fld 0 0 1))) = none := by
    obtain h | ⟨d, hd, hbad⟩ := h
    · rw [h]; rfl
    · rw [hd, Option.filter_some, hbad]; rfl
  unfold runSysFwActivate
  dsimp only
  rw [hnone]

theorem runSysFwActivate_some {s : State} {p : Packet} {d : Directory} (hd : s.mem.directory = some d)
    (hok : s.mem.slotOk (d.slot (p.fld 0 0 1)) = true) : runSysFwActivate p s =
      activated s d (p.fld 0 0 1) ((answered p s.dev).when (p.flag 0 1) (Dev.warmReset 8)) := by
  have hsome : s.mem.directory.filter (fun d => s.mem.slotOk (d.slot (p.fld 0 0 1))) = some d := by
    rw [hd, Option.filter_some, hok]; rfl
  unfold runSysFwActivate
  dsimp only
  rw [hsome]
  rfl

theorem sysFwActivate_stays {s : State} {p : Packet} {d : Directory} (h : Ready 0x0008 p s)
    (hchk : chkSysFwActivate p s.dev = none)
    (hd : s.mem.directory = some d) (hok : s.mem.slotOk (d.slot (p.fld 0 0 1)) = true) (hstays : p.flag 0 1 = false) :
    Does (.sysFwActivate p.ring p.seq) p .done 0 0 s fun t => t = activated s d (p.fld 0 0 1)
      (Dev.ringed (startsCleared s.dev) t.dev) := by
  obtain ⟨hringed, hcompleted⟩ := answered_spec (ready_packet h)
  have hrun := runSysFwActivate_some hd hok
  rw [hstays, Dev.when, if_neg Bool.false_ne_true] at hrun
  exact ⟨_, opRow_to h hchk hrun (settled_answered h.1), completed_congr hcompleted rfl, congrArg (activated s d _) hringed⟩

theorem sysFwActivate_restarts {s : State} {p : Packet} {d : Directory} (h : Ready 0x0008 p s)
    (hchk : chkSysFwActivate p s.dev = none)
    (hd : s.mem.directory = some d) (hok : s.mem.slotOk (d.slot (p.fld 0 0 1)) = true) (hrestart : p.flag 0 1 = true) :
    exec (.sysFwActivate p.ring p.seq) s = .next (State.settle (activated s d (p.fld 0 0 1)
      ((answered p s.dev).warmReset 8))) := by
  have hrun := runSysFwActivate_some hd hok
  rw [hrestart, Dev.when, if_pos rfl] at hrun
  exact (opRow_run h hchk).trans (congrArg (fun t => Host.Outcome.next (State.settle t)) hrun)

/-! ### The commands together -/

/-- Settles O11, command by command: what the answer leaves, and the reset, stop, erase or programming that follows it
(log entries 22, 39 and 43). -/
theorem systemCommandsResetAndWriteFirmware : Obligations.SystemCommandsResetAndWriteFirmware := by
  unfold Obligations.SystemCommandsResetAndWriteFirmware
  intro s p
  refine ⟨fun h => ⟨opRow_post h rfl rfl, sysWarmReset_ignored h⟩, fun h => ⟨fun hdown => ?_, fun hstop hgoing => ?_⟩,
    fun h hchk => ⟨fun hpast => opRow_answers h hchk (runSysFwWrite_past hpast),
      fun hfits hactive => opRow_answers h hchk (runSysFwWrite_active hfits hactive),
      fun hfits hactive => opRow_to h hchk (runSysFwWrite_begins hfits hactive) h.1⟩,
    fun hs hon hwf ok => ⟨fun hnone => inDomainS_run hon (fwProgrammed_none hnone) hs,
      fun w hw => fwProgrammed_goes hs hon hwf hw⟩,
    fun h hchk => ⟨fun hnone => opRow_answers h hchk (runSysFwActivate_none hnone), fun d hd hok =>
      ⟨fun hstays => sysFwActivate_stays h hchk hd hok hstays, fun hrestart => ?_⟩⟩⟩
  all_goals obtain ⟨hringed, hcompleted⟩ := answered_spec (ready_packet h)
  · exact ⟨_, opRow_done h rfl (runSysPowerCycle_ignored hdown) (settled_answered h.1), hcompleted,
      congrArg (fun d => ({ s with dev := d } : State)) hringed⟩
  · have hgoes : ¬ GoesDown s.dev := by simp [GoesDown, hstop, hgoing]
    exact ⟨answered p s.dev, hringed, hcompleted, (opRow_run h rfl).trans
      (congrArg (fun d => Host.Outcome.next (State.settle { s with dev := d })) (runSysPowerCycle_goes hgoes))⟩
  · exact ⟨answered p s.dev, hringed, hcompleted, sysFwActivate_restarts h hchk hd hok hrestart⟩

end Sys2Proof.Proofs
end

section
/-! Bank handovers, wakes, Scree and errors of the on-chip banks (spec chapter 14). -/

namespace Sys2Proof.Proofs

open Sys2Proof.Machine Sys2Proof.Laws

/-! ### SRAMC_BANK_CTRL -/

section
variable {n v : Nat} {d : Dev}

/-- The bank whose register holds this request (R719). -/
def requested (n v : Nat) (d : Dev) : Dev := d.modBank n fun b => { b with reqOwner := bits v 0 2, reqPower := bits v 2 2 }

theorem bankCtrl_same (h : (requested n v d).handSame n (bits v 0 2) (bits v 2 2) = true) : d.bankCtrl n v = requested n v d :=
  if_pos h

theorem bankCtrl_refused (h : (requested n v d).handSame n (bits v 0 2) (bits v 2 2) = false)
    (hrefused : (requested n v d).handRefused n (bits v 0 2) (bits v 2 2) true = true) :
    d.bankCtrl n v = (requested n v d).modBank n fun b => { b with refused := true } :=
  (if_neg (ne_true_of_eq_false h)).trans (if_pos hrefused)

theorem bankCtrl_begins (h : (requested n v d).handSame n (bits v 0 2) (bits v 2 2) = false)
    (hrefused : (requested n v d).handRefused n (bits v 0 2) (bits v 2 2) true = false) :
    d.bankCtrl n v = (requested n v d).handBegin n (bits v 0 2) (bits v 2 2) :=
  (if_neg (ne_true_of_eq_false h)).trans (if_neg (ne_true_of_eq_false hrefused))

end

/-- A handover within one owner sets the power state at once; any other one clears the bank first (R719). -/
theorem handBegin_eq (n owner power : Nat) (d : Dev) : d.handBegin n owner power =
    if (d.bank n).owner = owner ∧ (d.bank n).power ≠ 2 then d.modBank n fun b => { b with power := power }
    else d.modBank n fun b => { b with busy := true, newOwner := owner, newPower := power } :=
  if_congr (by simp) rfl rfl

theorem settled_handBegin {n owner power : Nat} {d : Dev} (h : d.flt.todo = []) : (d.handBegin n owner power).flt.todo = [] := by
  rw [handBegin_eq]
  split
  · exact h
  · exact h

theorem bankCtrl_off {s : State} {n : Nat} {v : BitVec 32} (h : s.dev.sramOn = false) :
    exec (.sramcBankCtrlWrite n v) s = .next s :=
  if_neg (ne_true_of_eq_false h)

theorem bankCtrl_on {s : State} {n : Nat} {v : BitVec 32} {d : Dev} (hon : s.dev.sramOn = true) (h : s.dev.bankCtrl n v.toNat = d)
    (hsettled : d.flt.todo = []) : exec (.sramcBankCtrlWrite n v) s = .next (s.onDev fun _ => d) := by
  refine (if_pos hon).trans ?_
  rw [State.onDev, h]
  exact congrArg Host.Outcome.next (settle_of_settled hsettled)

/-! ### BANK_CLEAR_END -/

section
variable {s : State} {n : Nat}

theorem bankCleared_idle (h : (s.dev.bank n).busy = false) : s.bankCleared n = s := if_pos (by rw [h]; rfl)

/-- The state once transfers have left a bank that leaves HOST (R883). -/
def transfersLeft (n : Nat) (s : State) : State :=
  if (s.dev.bank n).owner = 2 ∧ (s.dev.bank n).newOwner ≠ 2 then s.bankLeaves n else s

/-- Bank n's contents cleared (R719). -/
def bankErased (n : Nat) (u : State) : State :=
  { u with mem := { u.mem with sram := Memory.clear (n * bankBytes) bankBytes u.mem.sram } }

/-- Bank n with its new owner and power state, the waiting command and the activity of b ended (R719, R735). -/
def handedOver (n : Nat) (b : Bank) (d : Dev) : Dev :=
  let e := (d.modBank n fun b => { b with
    busy := false, owner := b.newOwner, power := b.newPower, handRef := none, handAct := 0 }).complete? b.handRef .done 0 0
  if b.handAct = 0 then e else e.endAct b.handAct .done

theorem bankCleared_busy (h : (s.dev.bank n).busy = true) :
    s.bankCleared n = (bankErased n (transfersLeft n s)).onDev (handedOver n (s.dev.bank n)) := by
  have hleaves : (if ((s.dev.bank n).owner = 2 && !(s.dev.bank n).newOwner = 2) = true then s.bankLeaves n else s) =
      transfersLeft n s :=
    if_congr (by simp) rfl rfl
  rw [← hleaves]
  exact if_neg (by rw [h]; decide)

end

/-! ### Scree -/

section
variable {n : Nat} {fails : Bool} {d : Dev}

/-- Scree runs on a bank that is ON while no stage sheds it (R728). -/
def ScreeRuns (n : Nat) (d : Dev) : Prop := (d.bank n).scree = true ∧ (d.bank n).power = 0 ∧ d.sched.stage = 0

theorem screeStays_iff (n : Nat) (d : Dev) : ¬ ScreeRuns n d ↔
    (!(d.bank n).scree || !(decide ((d.bank n).power = 0)) || decide (1 ≤ d.sched.stage)) = true := by
  simp only [ScreeRuns, Bool.or_eq_true, Bool.not_eq_true', decide_eq_true_eq, decide_eq_false_iff_not]
  cases (d.bank n).scree with
  | false => simp
  | true => simp only [true_and, Bool.true_eq_false, false_or]; omega

/-- The bank after one region of the pass (R729, R730). -/
def regionTested (n : Nat) (fails : Bool) (d : Dev) : Dev :=
  (d.modBank n fun x => { x with
    screePos := if 8191 ≤ (d.bank n).screePos then 0 else x.screePos + 1,
    screePass := if 8191 ≤ (d.bank n).screePos then (x.screePass + 1) % 65536 else x.screePass,
    screeFails := if fails = true then satInc 32 x.screeFails else x.screeFails,
    remaps := if fails = true ∧ (d.bank n).remaps.length < 8 then x.screePos :: x.remaps else x.remaps,
    sparesOut := x.sparesOut || (fails && decide (8 ≤ (d.bank n).remaps.length)) }).when fails (Dev.raise 208 0)

theorem screeRegion_idle (h : ¬ ScreeRuns n d) : d.screeRegion n fails = d :=
  (screeRegion_eq n fails d).trans (if_pos ((screeStays_iff n d).mp h))

theorem screeRegion_runs (h : ScreeRuns n d) : d.screeRegion n fails =
    (regionTested n fails d).when (decide (8191 ≤ (d.bank n).screePos) && !(d.bank n).screeCont) (Dev.screeStop n) :=
  (screeRegion_eq n fails d).trans (if_neg fun hstays => (screeStays_iff n d).mpr hstays h)

theorem screeRegion_goes_on (h : ScreeRuns n d) (hlast : ¬ (8191 ≤ (d.bank n).screePos ∧ (d.bank n).screeCont = false)) :
    d.screeRegion n fails = regionTested n fails d :=
  (screeRegion_runs h).trans (if_neg (by simpa using hlast))

theorem screeRegion_ends (h : ScreeRuns n d) (hlast : 8191 ≤ (d.bank n).screePos) (hcont : (d.bank n).screeCont = false) :
    d.screeRegion n fails = (regionTested n fails d).screeStop n :=
  (screeRegion_runs h).trans (if_pos (by simp [hlast, hcont]))

end

/-! ### Errors in banks -/

/-- An uncorrectable error of a home bank acts by its unit (R716, R731). -/
theorem bankUe_home {n st : Nat} {d : Dev} (h : (d.bank n).owner = 1) : d.bankUe n st =
    if n ≤ 2 then d.spoilAll st 0x0B else if n ≤ 7 then (d.spoilAll st 0x0B).discardScreened st
    else if n ≤ 9 then d.codecReset else d.loseCairn := by
  unfold Dev.bankUe homeUnit
  rw [if_pos h]
  split_ifs <;> rfl

theorem bankUe_away {n st : Nat} {d : Dev} (h : (d.bank n).owner ≠ 1) : d.bankUe n st = d := if_neg h

/-- An uncorrectable error of a bank counted, latched and posted (R731). -/
def bankUeCounted (n off : Nat) (d : Dev) : Dev :=
  (d.modBank n fun b => { b with ue := satInc 32 b.ue, errUe := true, errOff := off }).raise 207 0

theorem bankUeCounted_owner (n off : Nat) (d : Dev) : ((bankUeCounted n off d).bank n).owner = (d.bank n).owner :=
  (congrArg Bank.owner (Dev.bank_modBank d n fun b => { b with ue := satInc 32 b.ue, errUe := true, errOff := off }) :)

/-! ### The events and commands together -/

/-- Settles O17, event by event and command by command; which errors, failing regions and words there are is the operand's
(log entry 53). -/
theorem bankEventsAndCommandsDoWhatTheSpecSays : Obligations.BankEventsAndCommandsDoWhatTheSpecSays := by
  unfold Obligations.BankEventsAndCommandsDoWhatTheSpecSays
  refine ⟨fun s hsettled => ⟨fun n v => ⟨bankCtrl_off, fun hon hsame => ?_, fun hon hsame hrefused => ?_,
        fun hon hsame hrefused => ?_⟩,
      fun hon n => ⟨fun hidle => ?_, fun hbusy => ?_, fun a => Memory.read_clear .., ?_,
        fun fails => ⟨fun h => ?_, fun h hlast => ?_, fun h hlast hcont => ?_⟩,
        fun offset st => ⟨?_, fun haway => ?_, fun hhome => ?_⟩⟩⟩,
    fun s p => ⟨fun h hchk => ?_, fun h hchk => ⟨fun hen => ?_, fun hen => ?_⟩⟩⟩
  · exact bankCtrl_on hon (bankCtrl_same hsame) hsettled
  · exact bankCtrl_on hon (bankCtrl_refused hsame hrefused) hsettled
  · exact bankCtrl_on hon ((bankCtrl_begins hsame hrefused).trans (handBegin_eq ..))
      ((congrArg (fun d : Dev => d.flt.todo) (handBegin_eq ..)).symm.trans (settled_handBegin hsettled))
  · exact inDomainS_run hon (bankCleared_idle hidle) hsettled
  · exact (inDomainS_next hon).trans (congrArg (fun t => Host.Outcome.next (State.settle t)) (bankCleared_busy hbusy))
  · exact ⟨_, inDomain_run (g := Dev.bankWoken n) hon rfl hsettled, Dev.bank_modBank ..,
      fun k hk => Dev.bank_modBank_ne (h := hk) .., rfl⟩
  · exact inDomain_stay hon hsettled (screeRegion_idle h)
  · exact inDomain_post (g := fun _ => regionTested n fails s.dev) hon (screeRegion_goes_on h hlast)
  · exact inDomain_post (g := fun _ => (regionTested n fails s.dev).screeStop n) hon (screeRegion_ends h hlast hcont)
  · exact inDomain_post hon rfl
  · exact inDomain_post (g := fun _ => bankUeCounted n _ s.dev) hon
      (bankUe_away fun h => haway ((bankUeCounted_owner ..).symm.trans h))
  · exact inDomain_post (g := fun _ => _) hon (bankUe_home ((bankUeCounted_owner ..).trans hhome))
  · exact opRow_post h hchk rfl
  · exact opRow_post h hchk (if_pos hen)
  · exact opRow_post h hchk (if_neg (ne_true_of_eq_false hen))

end Sys2Proof.Proofs
end

section
/-! Errors, scrubbing, refresh, tracking and command slots of the SDRAM channels, and the MEM commands (spec chapter 14). -/

namespace Sys2Proof.Proofs

open Sys2Proof.Machine Sys2Proof.Laws

/-! ### Read errors -/

/-- An uncorrectable word of channel c at address a, counted, latched and posted (R714). -/
def ueCounted (c a : Nat) (s : State) : State := s.onDev (Dev.ddrUe c a)

theorem ddrReadReturn_ue {s v : State} {c a : Nat} {reader : DdrReader} (hon : s.dev.on 7 = true)
    (h : (ueCounted c a s).ueOutcome a reader = v) : exec (.ddrReadReturn c a reader true) s = .next v.settle := by
  subst h
  exact inDomainS_next (f := fun s => if true then (ueCounted c a s).ueOutcome a reader else s.onDev (Dev.ddrCe c a)) hon

section
variable {u : State} {a : Nat}

theorem ueOutcome_lookahead (i j : Nat) : u.ueOutcome a (.lookahead i j) =
    if u.dev.ddr.regionOf a = 5 ∧ (u.dev.entry i).decode = .running then
      u.onDev (Dev.codecError i j { cause := .ecc, block := none, offset := 0, line := 0 }) else u :=
  if_congr (by simp) rfl rfl

theorem ueOutcome_dma (k : Nat) : u.ueOutcome a (.dma k) =
    if u.dev.ddr.regionOf a = 5 ∨ u.dev.ddr.regionOf a = 2 then u.dmaFail k 5 false a [] else u :=
  if_congr (by simp) rfl rfl

theorem ueOutcome_payloadCopy (n q : Nat) : u.ueOutcome a (.payloadCopy n q) =
    if u.dev.ddr.regionOf a = 2 ∧ (u.dev.packet? (n, q)).any (fun p => p.phase = .payload) = true then
      u.onDev (Dev.complete (n, q) .eccUncorrectable 0 0) else u :=
  if_congr (by simp) rfl rfl

theorem ueOutcome_capture_elsewhere {st : Nat} (h : u.dev.ddr.regionOf a ≠ 3) : u.ueOutcome a (.capture st) = u := if_neg h

theorem ueOutcome_capture_none {st : Nat} (h : u.dev.ddr.regionOf a = 3)
    (hfind : u.dev.codec.store.find? (fun x => x.stream = st) = none) : u.ueOutcome a (.capture st) = u := by
  refine (if_pos h).trans ?_
  rw [State.onDev, hfind]

theorem ueOutcome_capture_lost {st : Nat} {x : CapRec} (h : u.dev.ddr.regionOf a = 3)
    (hfind : u.dev.codec.store.find? (fun x => x.stream = st) = some x) : u.ueOutcome a (.capture st) =
      u.onDev fun d => ({ d with codec := { d.codec with store := d.codec.store.erase x } }).captureLost st := by
  refine (if_pos h).trans ?_
  rw [State.onDev, hfind]
  rfl

end

/-! ### Scrubbing -/

section
variable {c a : Nat} {ce ue : Bool} {d : Dev}

/-- A scrub range whose next word is the one at address a. -/
def scrubMine (a : Nat) (x : Scrub) : Bool := decide (x.pos ≤ a) && decide (a < x.pos + 8)

/-- The scrubber of a channel reads this word: the channel serves without panic and a patrol or a range asks for it
(R709, R715). -/
def ScrubRuns (c a : Nat) (d : Dev) : Prop := (d.dch c).st = .serving ∧ (d.dch c).panicPorts = 0 ∧
  (d.ddr.scrubEn = true ∨ d.ddr.scrubs.any (scrubMine a) = true)

theorem scrubStays_iff (c a : Nat) (d : Dev) : ¬ ScrubRuns c a d ↔
    (!((d.dch c).st = .serving) || !((d.dch c).panicPorts = 0) || !(d.ddr.scrubEn || d.ddr.scrubs.any (scrubMine a))) = true := by
  simp only [ScrubRuns, Bool.or_eq_true, Bool.not_eq_true', decide_eq_false_iff_not, Bool.or_eq_false_iff, not_and_or, not_or,
    Bool.not_eq_true, or_assoc]

theorem scrubRead_idle (h : ¬ ScrubRuns c a d) : d.scrubRead c a ce ue = d := if_pos ((scrubStays_iff c a d).mp h)

theorem scrubRead_runs (h : ScrubRuns c a d) : d.scrubRead c a ce ue =
    ((({ d with ddr := { d.ddr with scrubs := d.ddr.scrubs.map fun x => if scrubMine a x then { x with
      pos := x.pos + 8, ce := x.ce + b2n ce, ue := x.ue + b2n ue } else x } } : Dev).when ce (Dev.ddrCe c a)).when ue
      (Dev.ddrUe c a)).endScrubs :=
  if_neg fun hstays => (scrubStays_iff c a d).mpr hstays h

end

/-! ### Refresh and tracking -/

section
variable {c : Nat} {d : Dev}

/-- The command does nothing on a channel that does not serve. -/
theorem not_serving {st : DdrSt} (h : st ≠ .serving) : (!decide (st = .serving)) = true := by simp [h]

theorem refresh_idle {rank : Nat} {hot : Bool} (h : (d.dch c).st ≠ .serving) : d.refresh c rank hot = d := if_pos (not_serving h)

/-- The refreshes postponed after one is due: none outside panic, else one more up to 4 (R705). -/
def postponedAfter (rank : Nat) (x : DdrCh) : Tab Nat :=
  if x.panicPorts = 0 then Tab.set rank 0 x.postponed else Tab.set rank (min 4 (Tab.get 0 x.postponed rank + 1)) x.postponed

theorem refresh_serving {rank : Nat} {hot : Bool} (h : (d.dch c).st = .serving) : d.refresh c rank hot =
    d.modDch c fun x => { x with refresh2x := hot, postponed := postponedAfter rank x } :=
  if_neg (by rw [h]; decide)

theorem get_postponedAfter (rank : Nat) (x : DdrCh) : Tab.get 0 (postponedAfter rank x) rank =
    if x.panicPorts = 0 then 0 else min 4 (Tab.get 0 x.postponed rank + 1) := by
  unfold postponedAfter
  split <;> exact Tab.get_set_same ..

theorem get_postponedAfter_ne {rank j : Nat} (h : j ≠ rank) (x : DdrCh) :
    Tab.get 0 (postponedAfter rank x) j = Tab.get 0 x.postponed j := by
  unfold postponedAfter
  split <;> exact Tab.get_set_ne _ _ _ h _

theorem trackTimer_idle (h : (d.dch c).st ≠ .serving ∨ (d.dch c).trackQueued = true) : d.trackTimer c = d :=
  if_pos (by rcases h with h | h <;> simp [h])

theorem trackTimer_opens (hst : (d.dch c).st = .serving) (hqueued : (d.dch c).trackQueued = false)
    {id : Nat} {why : Option Nat} {e : Dev}
    (hopen : d.openAct 8 c 0 0 none = (id, why, e)) : d.trackTimer c =
      if why = none then e.pumpActs (e.sched.acts.length + 1)
      else e.modDch c fun x => { x with trackQueued := true, trackAct := id } := by
  refine (if_neg (by simp [hst, hqueued])).trans ?_
  rw [hopen]
  cases why <;> rfl

end

/-! ### Command slots -/

section
variable {c : Nat} {arrivals : List DdrArrival} {leads : List Nat} {d : Dev}

/-- The channel once its leads are measured and the arrivals are queued (R705, R707, R708). -/
def slotQueued (c : Nat) (arrivals : List DdrArrival) (leads : List Nat) (d : Dev) : Dev :=
  (d.ddrLeads c leads).modDch c fun x => arrivals.foldl DdrCh.arrive x

theorem ddrSlot_idle (h : (d.dch c).st ≠ .serving) : d.ddrSlot c arrivals leads = d := if_pos (not_serving h)

theorem ddrSlot_none (h : (d.dch c).st = .serving) (hpick : ((slotQueued c arrivals leads d).dch c).pick = none) :
    d.ddrSlot c arrivals leads = slotQueued c arrivals leads d := by
  unfold slotQueued at hpick
  refine (if_neg (by rw [h]; decide)).trans ?_
  dsimp only
  rw [hpick]
  rfl

theorem ddrSlot_some {q : DdrReq} (h : (d.dch c).st = .serving) (hpick : ((slotQueued c arrivals leads d).dch c).pick = some q) :
    d.ddrSlot c arrivals leads = (slotQueued c arrivals leads d).ddrServe c q := by
  unfold slotQueued at hpick
  refine (if_neg (by rw [h]; decide)).trans ?_
  dsimp only
  rw [hpick]
  rfl

theorem ddrServe_flt (c : Nat) (q : DdrReq) (d : Dev) : (d.ddrServe c q).flt = d.flt := by
  unfold Dev.ddrServe
  dsimp only
  split <;> rfl

end

/-! ### DDR_ACT_TABLE_CLEAR -/

/-- Channel c's activate tables cleared (R710). -/
def actsCleared (c : Nat) (d : Dev) : Dev := d.modDch c fun x => { x with acts := [] }

theorem forN_actsCleared (n : Nat) (d : Dev) :
    (∀ k, k < n → (forN n actsCleared d).dch k = { d.dch k with acts := [] }) ∧
    (∀ k, n ≤ k → (forN n actsCleared d).dch k = d.dch k) ∧
    forN n actsCleared d = { d with ddr := (forN n actsCleared d).ddr } := by
  induction n with
  | zero => exact ⟨fun k hk => absurd hk (Nat.not_lt_zero k), fun _ _ => rfl, rfl⟩
  | succ n ih =>
    obtain ⟨hcleared, hkept, hframe⟩ := ih
    rw [forN_succ]
    generalize forN n actsCleared d = e at hcleared hkept hframe ⊢
    refine ⟨fun k hk => ?_, fun k hk => ?_, by rw [hframe]; rfl⟩
    · obtain hk | rfl := Nat.lt_succ_iff_lt_or_eq.mp hk
      · exact (Dev.dch_modDch_ne (h := by omega) ..).trans (hcleared k hk)
      · exact (Dev.dch_modDch ..).trans (by rw [hkept k le_rfl])
    · exact (Dev.dch_modDch_ne (h := by omega) ..).trans (hkept k (by omega))

/-! ### The MEM commands -/

section
variable {p : Packet} {d : Dev}

/-- The patrol period after a MEM_SCRUB (R735). -/
def scrubPeriod (p : Packet) (d : Dev) : Nat := if p.flag 0 0 then p.fld 2 0 8 else d.ddr.periodH

/-- The patrol period set (R735). -/
def periodSet (p : Packet) (d : Dev) : Dev := { d with ddr := { d.ddr with periodH := scrubPeriod p d } }

theorem periodSet_eq (p : Packet) (d : Dev) :
    d.when (p.flag 0 0) (fun d => { d with ddr := { d.ddr with periodH := p.fld 2 0 8 } }) = periodSet p d := by
  unfold Dev.when periodSet scrubPeriod
  split <;> rfl

theorem runMemScrub_period (h : p.flag 0 1 = false) : runMemScrub p d = (periodSet p d).complete p.ref .done 0 0 := by
  unfold runMemScrub
  dsimp only
  rw [periodSet_eq, if_neg (ne_true_of_eq_false h)]

theorem runMemScrub_range (h : p.flag 0 1 = true) : runMemScrub p d =
    { d.executing p with ddr := { d.ddr with
      periodH := scrubPeriod p d
      scrubs := d.ddr.scrubs ++ [
        { Scrub.reset with ref := p.ref, pos := p.fld 8 0 40, stop := p.fld 8 0 40 + p.fld 16 0 40 }] } } := by
  unfold runMemScrub
  dsimp only
  rw [periodSet_eq, if_pos h]
  rfl

/-- A channel with no error latched. -/
def channelUnlatched (x : DdrCh) : DdrCh := { x with errAddr := 0, errRegion := 0, errUe := false }

/-- A bank with no error latched. -/
def bankUnlatched (b : Bank) : Bank := { b with errOff := 0, errUe := false }

/-- Channel n with its latched error cleared where the command asks for it (R735). -/
def channelRead (clear : Bool) (n : Nat) (d : Dev) : Dev :=
  d.when clear (Dev.modDch n channelUnlatched)

theorem channelRead_spec (clear : Bool) (n : Nat) (d : Dev) :
    (channelRead clear n d).dch n = (if clear then channelUnlatched (d.dch n) else d.dch n) ∧
    (∀ k, k ≠ n → (channelRead clear n d).dch k = d.dch k) ∧
    channelRead clear n d = { d with ddr := (channelRead clear n d).ddr } := by
  cases clear with
  | false => exact ⟨rfl, fun _ _ => rfl, rfl⟩
  | true => exact ⟨Dev.dch_modDch d n channelUnlatched, fun _ hk => Dev.dch_modDch_ne d n _ channelUnlatched hk, rfl⟩

/-- Bank n with its latched error cleared where the command asks for it (R735). -/
def bankRead (clear : Bool) (n : Nat) (d : Dev) : Dev := d.when clear (Dev.modBank n bankUnlatched)

theorem bankRead_spec (clear : Bool) (n : Nat) (d : Dev) :
    (bankRead clear n d).bank n = (if clear then bankUnlatched (d.bank n) else d.bank n) ∧
    (∀ k, k ≠ n → (bankRead clear n d).bank k = d.bank k) ∧
    bankRead clear n d = { d with banks := (bankRead clear n d).banks } := by
  cases clear with
  | false => exact ⟨rfl, fun _ _ => rfl, rfl⟩
  | true => exact ⟨Dev.bank_modBank d n bankUnlatched, fun _ hk => Dev.bank_modBank_ne d n _ bankUnlatched hk, rfl⟩

theorem runMemErrRead_channel (h : p.target < 16) : runMemErrRead p d =
    (channelRead (p.flag 0 0) p.target d).complete p.ref .done
      ((d.dch p.target).errAddr + 2 ^ 40 * b2n (d.dch p.target).errUe) (min 65535 (d.dch p.target).ce) := if_pos h

theorem runMemErrRead_bank (h : ¬ p.target < 16) : runMemErrRead p d =
    (bankRead (p.flag 0 0) (p.target - 16) d).complete p.ref .done
      ((d.bank (p.target - 16)).errOff + 2 ^ 40 * b2n (d.bank (p.target - 16)).errUe) (min 65535 (d.bank (p.target - 16)).ce) :=
  if_neg h

end

theorem memErrRead_channel {s : State} {p : Packet} (h : Ready 0x0D04 p s) (hchk : chkMemErrRead p s.dev = none)
    (hlt : p.target < 16) :
    let x := s.dev.dch p.target
    Does (.memErrRead p.ring p.seq) p .done (x.errAddr + 2 ^ 40 * b2n x.errUe) (min 65535 x.ce) s fun t =>
      t.dev.dch p.target = (if p.flag 0 0 then { x with errAddr := 0, errRegion := 0, errUe := false } else x) ∧
      (∀ k, k ≠ p.target → t.dev.dch k = s.dev.dch k) ∧ Only { Dev.ringed s.dev t.dev with ddr := t.dev.ddr } s t := by
  obtain ⟨hread, hothers, hframe⟩ := channelRead_spec (p.flag 0 0) p.target s.dev
  have hrun := runMemErrRead_channel (d := s.dev) hlt
  generalize channelRead (p.flag 0 0) p.target s.dev = g at hread hothers hframe hrun
  obtain ⟨hnext, hcompleted⟩ := does_of h hchk g _ _ _ hrun (by rw [hframe]) (pre := []) (by rw [hframe]; rfl)
    (by rw [hframe]; exact h.1)
  refine ⟨_, hnext, hcompleted, ?_, fun k hk => ?_, only_complete_ddr hframe ..⟩
  · rw [complete_dch_at]; exact hread
  · rw [complete_dch_at]; exact hothers k hk

theorem memErrRead_bank {s : State} {p : Packet} (h : Ready 0x0D04 p s) (hchk : chkMemErrRead p s.dev = none)
    (hge : ¬ p.target < 16) :
    let b := s.dev.bank (p.target - 16)
    Does (.memErrRead p.ring p.seq) p .done (b.errOff + 2 ^ 40 * b2n b.errUe) (min 65535 b.ce) s fun t =>
      t.dev.bank (p.target - 16) = (if p.flag 0 0 then { b with errOff := 0, errUe := false } else b) ∧
      (∀ k, k ≠ p.target - 16 → t.dev.bank k = s.dev.bank k) ∧ Only { Dev.ringed s.dev t.dev with banks := t.dev.banks } s t := by
  obtain ⟨hread, hothers, hframe⟩ := bankRead_spec (p.flag 0 0) (p.target - 16) s.dev
  have hrun := runMemErrRead_bank (d := s.dev) hge
  generalize bankRead (p.flag 0 0) (p.target - 16) s.dev = g at hread hothers hframe hrun
  obtain ⟨hnext, hcompleted⟩ := does_of h hchk g _ _ _ hrun (by rw [hframe]) (pre := []) (by rw [hframe]; rfl)
    (by rw [hframe]; exact h.1)
  refine ⟨_, hnext, hcompleted, ?_, fun k hk => ?_, only_complete_banks hframe ..⟩
  · rw [complete_bank_at]; exact hread
  · rw [complete_bank_at]; exact hothers k hk

theorem memScrub_period {s : State} {p : Packet} (h : Ready 0x0D02 p s) (hchk : chkMemScrub p s.dev = none)
    (hrange : p.flag 0 1 = false) :
    Does (.memScrub p.ring p.seq) p .done 0 0 s fun t =>
      Only { Dev.ringed s.dev t.dev with ddr := { s.dev.ddr with periodH := scrubPeriod p s.dev } } s t := by
  obtain ⟨hnext, hcompleted⟩ := does_of h hchk (periodSet p s.dev) .done 0 0 (runMemScrub_period hrange) rfl (pre := []) rfl h.1
  exact ⟨_, hnext, hcompleted, only_of s (periodSet p s.dev) ..⟩

/-! ### The events and commands together -/

/-- Settles O16, event by event and command by command; a track that is blocked is queued once (log entry 46), and which words
fail, which requests arrive and what the leads are is the operand's (log entries 51 to 53). -/
theorem sdramEventsAndCommandsDoWhatTheSpecSays : Obligations.SdramEventsAndCommandsDoWhatTheSpecSays := by
  unfold Obligations.SdramEventsAndCommandsDoWhatTheSpecSays
  refine ⟨fun s hsettled hon c => ⟨fun a reader => ?_, fun a reader => ⟨?_, ?_, ?_, ?_, ?_, ?_, ?_, ?_, ?_, ?_, ?_⟩,
      fun a ce ue => ⟨fun h => ?_, fun h => ?_⟩, fun rank hot => ⟨fun h => ?_, fun h => ?_⟩,
      fun h => ?_, fun hst hqueued id why d hopen => ?_, ?_,
      fun arrivals leads => ⟨fun h => ?_, fun h hpick => ?_, fun q h hpick => ?_⟩⟩,
    fun s p => ⟨fun h hchk => opRow_post h hchk rfl, fun h hchk => opRow_post h hchk rfl,
      fun h hchk => ⟨fun hrange => memScrub_period h hchk hrange,
        fun hrange => opRow_done h hchk (g := fun _ => _) (runMemScrub_range hrange) h.1⟩,
      fun h hchk => ⟨memErrRead_channel h hchk, memErrRead_bank h hchk⟩⟩⟩
  · exact (inDomainS_next hon :)
  · rintro rfl; exact ddrReadReturn_ue hon rfl
  · rintro st rfl; exact ddrReadReturn_ue hon rfl
  · rintro i j rfl; exact ddrReadReturn_ue hon (ueOutcome_lookahead i j)
  · rintro o rfl; exact ddrReadReturn_ue hon rfl
  · rintro k rfl; exact ddrReadReturn_ue hon (ueOutcome_dma k)
  · rintro n q rfl; exact ddrReadReturn_ue hon (ueOutcome_payloadCopy n q)
  · rintro st rfl h; exact ddrReadReturn_ue hon (ueOutcome_capture_elsewhere h)
  · rintro st rfl h hfind; exact ddrReadReturn_ue hon (ueOutcome_capture_none h hfind)
  · rintro st x rfl h hfind; exact ddrReadReturn_ue hon (ueOutcome_capture_lost h hfind)
  · rintro rfl; exact ddrReadReturn_ue hon rfl
  · rintro rfl; exact ddrReadReturn_ue hon rfl
  · exact inDomain_stay hon hsettled (scrubRead_idle h)
  · exact inDomain_post hon (scrubRead_runs h)
  · exact inDomain_stay hon hsettled (refresh_idle h)
  · refine ⟨_, inDomain_run (g := Dev.modDch c fun x => { x with refresh2x := hot, postponed := postponedAfter rank x }) hon
      (refresh_serving h) hsettled, ?_, ?_, fun j hj => ?_, fun k hk => Dev.dch_modDch_ne (h := hk) .., rfl⟩
    · exact congrArg DdrCh.refresh2x (Dev.dch_modDch ..)
    · exact (congrArg (fun x : DdrCh => Tab.get 0 x.postponed rank) (Dev.dch_modDch ..)).trans (get_postponedAfter ..)
    · exact (congrArg (fun x : DdrCh => Tab.get 0 x.postponed j) (Dev.dch_modDch ..)).trans (get_postponedAfter_ne hj _)
  · exact inDomain_stay hon hsettled (trackTimer_idle h)
  · exact inDomain_post (g := fun _ => _) hon (trackTimer_opens hst hqueued hopen)
  · obtain ⟨hcleared, hkept, hframe⟩ := forN_actsCleared 2 s.dev
    exact ⟨_, inDomain_run (g := forN 2 actsCleared) hon rfl ((congrArg (fun d : Dev => d.flt.todo) hframe).trans hsettled),
      hcleared, hkept, congrArg (fun d => ({ s with dev := d } : State)) hframe⟩
  · exact inDomain_stay hon hsettled (ddrSlot_idle h)
  · exact inDomain_run (g := fun _ => slotQueued c arrivals leads s.dev) hon (ddrSlot_none h hpick) hsettled
  · exact inDomain_run (g := fun _ => (slotQueued c arrivals leads s.dev).ddrServe c q) hon (ddrSlot_some h hpick)
      ((congrArg Flt.todo (ddrServe_flt ..)).trans hsettled)

end Sys2Proof.Proofs
end
